-- ==== Sys2Proof/Word.lean ====
section
/-! DEFINITION. The bit-level types of the link and the plainest arithmetic on fixed tables. Everything the manual treats as
a number (mW, tenths of a degree, ms, counts) is a Nat or an Int of its own; only link bytes and masks are bit vectors. -/

namespace Sys2Proof

/-- A byte of the system link (section 10.8). -/
abbrev Byte := BitVec 8

/-- A 16-bit mask of the FAULTS request (R188). -/
abbrev Word := BitVec 16

/-- A table of `n` records built from its rows. -/
def tabulate {n : Nat} {α : Type} (f : Fin n → α) : Vector α n := Vector.ofFn f

/-- One row of a table changed. -/
def modifyRow {n : Nat} {α : Type} (v : Vector α n) (i : Fin n) (f : α → α) : Vector α n :=
  v.set i (f (v.get i))

end Sys2Proof
end

