-- ==== Sys2Proof/Syntax.lean ====
section
/-! DEFINITION. The commands of the part: one constructor of `Instr` for each row of spec/opcode_table.json, with the names
and request fields they carry. A command that comes from outside carries `dt`, the time in microseconds since the command
before it; a request carries its frame's `tag` too (log 1 and 4). An enumerated request field is an Option: `none` stands for
a code that names none of the field's values. -/

namespace Sys2Proof

/-- A filtered line's level (R61). -/
inductive Level where
  | low | high
deriving DecidableEq, Repr

/-- The operating modes (R181). -/
inductive Mode where
  | prepare | locked | running | dozing
deriving DecidableEq, Repr

/-- Channel kinds (R18). -/
inductive ChannelKind where
  | temp | current | voltage
deriving DecidableEq, Repr

/-- Thermistor curves (R22). -/
inductive Curve where
  | a | b | c
deriving DecidableEq, Repr

/-- The actions of CAL_OVERRIDE (R24). -/
inductive CalAction where
  | set | restore
deriving DecidableEq, Repr

/-- Where a zone takes its temperature from (R80). -/
inductive ZoneSource where
  | channels | fed
deriving DecidableEq, Repr

/-- Clamp line polarity (R151). -/
inductive Polarity where
  | activeLow | activeHigh
deriving DecidableEq, Repr

/-- Clamp line drive (R151). -/
inductive Drive where
  | openDrain | pushPull
deriving DecidableEq, Repr

/-- The actions of CLAMP_FORCE (R155). -/
inductive ClampAction where
  | set | clear
deriving DecidableEq, Repr

/-- A domain's permit (R118). -/
inductive Permit where
  | on | off
deriving DecidableEq, Repr

/-- Domain kinds (R118). -/
inductive DomainKind where
  | processor | addIn | memory | display | storage | charger
deriving DecidableEq, Repr

/-- The four placements that have a limit set, and the sets named after them (R5, R11). -/
inductive SetId where
  | desk | lap | bag | moving
deriving DecidableEq, Repr

/-- The placement of the notebook (R64). -/
inductive Placement where
  | unsettled
  | settled (p : SetId)
deriving DecidableEq, Repr

/-- The fourteen chassis fields (R1). Power in mW, temperatures in tenths of a degree, the deadline in ms. -/
structure ChassisLimits where
  maxSustained : Nat
  maxBurst : Nat
  minBudget : Nat
  zoneCeiling : Vector Int 6
  sourceDeadline : Nat
  guardTemp : Int
  stallDerate : Vector Nat 2
  systemReserve : Nat
deriving DecidableEq, Repr

/-- The three thresholds of one zone in a limit set (R6). -/
structure Thresholds where
  soft : Int
  hard : Int
  critical : Int
deriving DecidableEq, Repr

/-- The two duty limits of one fan in a limit set (R6). -/
structure FanLimits where
  floor : Nat
  ceiling : Nat
deriving DecidableEq, Repr

/-- The nineteen fields of a limit set (R6). -/
structure LimitSet where
  sustained : Nat
  burst : Nat
  bucket : Nat
  rearm : Nat
  hysteresis : Nat
  thermalStep : Nat
  stepInterval : Nat
  chargeCap : Nat
  compliance : Nat
  tolerance : Nat
  entryDwell : Nat
  zones : Vector Thresholds 6
  fans : Vector FanLimits 2
deriving DecidableEq, Repr

/-- The fields of CHANNEL_SETUP (R19). -/
structure ChannelFields where
  channel : Nat
  enabled : Bool
  kind : Option ChannelKind
  curve : Option Curve
  fullScale : Nat
  depth : Nat
  winLow : Int
  winHigh : Int
deriving DecidableEq, Repr

/-- The fields of ELECTRODE_SETUP for a target other than 8 (R39). -/
structure ElectrodeFields where
  target : Nat
  enabled : Option Bool
  near : Nat
  contact : Nat
  hyst : Nat
deriving DecidableEq, Repr

/-- The fields of ZONE_SETUP (section 5.2); the channel count is the list's length. -/
structure ZoneFields where
  zone : Nat
  enabled : Bool
  source : Option ZoneSource
  fanMap : Byte
  channels : List Nat
deriving DecidableEq, Repr

/-- The fields of SOURCE_SETUP (R100). -/
structure SourceFields where
  rating : Nat
  discharge : Nat
  lowLimit : Nat
  batteryChannel : Nat
  lowThreshold : Nat
  criticalThreshold : Nat
  hysteresis : Nat
  pair : Option (Nat × Nat)
deriving DecidableEq, Repr

/-- The fields of LINE_SETUP (R154). -/
structure LineFields where
  line : Nat
  enabled : Option Bool
  polarity : Option Polarity
  drive : Option Drive
deriving DecidableEq, Repr

/-- The fields of DOMAIN_DECLARE (section 7.3 and its layout in section 10.8); `reservedFlags` are bits 3 to 7 of the presence
flags. -/
structure DomainFields where
  slot : Nat
  kind : Option DomainKind
  priority : Nat
  floor : Nat
  ceiling : Nat
  rail : Nat
  sense : Option Nat
  volt : Option Nat
  line : Option Nat
  reservedFlags : Nat
  labelLength : Nat
  labelChars : List Byte
deriving DecidableEq, Repr

/-- The commands, in the table's order. -/
inductive Instr where
  | powerOnReset
  | identify (dt : Nat) (tag : Byte)
  | status (dt : Nat) (tag : Byte)
  | restart (dt : Nat) (tag : Byte)
  | restartTakesEffect
  | run (dt : Nat) (tag : Byte)
  | doze (dt : Nat) (tag : Byte)
  | wake (dt : Nat) (tag : Byte)
  | chassisLimits (dt : Nat) (tag : Byte) (fields : ChassisLimits)
  | loadSet (dt : Nat) (tag : Byte) (number : Nat) (fields : LimitSet)
  | readSet (dt : Nat) (tag : Byte) (selector : Nat)
  | readSetChassis (dt : Nat) (tag : Byte)
  | channelSetup (dt : Nat) (tag : Byte) (fields : ChannelFields)
  | scanList (dt : Nat) (tag : Byte) (channels : List Nat)
  | readChannels (dt : Nat) (tag : Byte) (first : Nat) (count : Nat)
  | calOverrideSet (dt : Nat) (tag : Byte) (channel : Nat) (gain : Nat) (offset : Int)
  | calOverrideRestore (dt : Nat) (tag : Byte) (channel : Nat)
  | electrodeSetup (dt : Nat) (tag : Byte) (fields : ElectrodeFields)
  | electrodeSetupResolution (dt : Nat) (tag : Byte) (resolution : Nat)
  | readElectrodes (dt : Nat) (tag : Byte) (first : Nat) (count : Nat)
  | rebase (dt : Nat) (tag : Byte)
  | zoneSetup (dt : Nat) (tag : Byte) (fields : ZoneFields)
  | zoneFeed (dt : Nat) (tag : Byte) (zone : Nat) (temperature : Option Int)
  | readZones (dt : Nat) (tag : Byte) (first : Nat) (count : Nat)
  | sourceSetup (dt : Nat) (tag : Byte) (fields : SourceFields)
  | sysCap (dt : Nat) (tag : Byte) (cap : Option Nat)
  | clampForceSet (dt : Nat) (tag : Byte) (mask : Byte)
  | clampForceClear (dt : Nat) (tag : Byte) (mask : Byte)
  | lineSetup (dt : Nat) (tag : Byte) (fields : LineFields)
  | domainDeclare (dt : Nat) (tag : Byte) (fields : DomainFields)
  | domainRetire (dt : Nat) (tag : Byte) (slot : Nat)
  | domainRequest (dt : Nat) (tag : Byte) (slot : Nat) (value : Nat)
  | domainSettled (dt : Nat) (tag : Byte) (slot : Nat)
  | domainPermitOff (dt : Nat) (tag : Byte) (slot : Nat)
  | domainPermitOn (dt : Nat) (tag : Byte) (slot : Nat)
  | readGrants (dt : Nat) (tag : Byte) (first : Nat) (count : Nat)
  | placementPin (dt : Nat) (tag : Byte) (code : Nat) (timeout : Option Nat)
  | placementUnpin (dt : Nat) (tag : Byte)
  | fanSetup (dt : Nat) (tag : Byte) (fan : Nat) (enabled : Bool) (ppr : Nat) (minDuty : Nat)
  | fanRetry (dt : Nat) (tag : Byte) (fan : Nat)
  | readFans (dt : Nat) (tag : Byte)
  | faults (dt : Nat) (tag : Byte) (clear : Word) (report : Option Word)
  | lidChange
  | motionChange
  | adpChange
  | stillTimerExpiry
  | dwellExpiry
  | pinExpiry
  | sequenceTimerMatch
  | channelConversionEnd (raw : BitVec 12)
  | contactTimerMatch
  | electrodeConversionEnd (raw : BitVec 16)
  | groupConversionEnd (raw : BitVec 16)
  | feedTimerExpiry (zone : Fin 6)
  | stepTimerExpiry (zone : Fin 6)
  | deadlineExpiry (slot : Fin 6)
  | tachEdge (dt : Nat) (fan : Fin 2)
  | speedTimeout (fan : Fin 2)
  | stallTimerExpiry (fan : Fin 2)
  | kickEnd (fan : Fin 2)
  | retryKickEnd (fan : Fin 2)
  | provingExpiry (fan : Fin 2)
  | retryTimerExpiry (fan : Fin 2)
  | rampTimerExpiry
  | frameComplete (dt : Nat) (check : Byte)
  | framingError (dt : Nat)
  | gapTimerExpiry
  | lineBreak
  | breakEnd (dt : Nat)
  | replyTransmitStart (dt : Nat) (hrdy : Bool)
  | noticeTransmitStart (dt : Nat) (hrdy : Bool)
  | frameTransmitEnd (dt : Nat)
  | receivedByte (dt : Nat) (byte : Byte)
  | startBit (dt : Nat)
  | lineFilterSample (lid motion adp : Level)
  | pwmPeriodStart
deriving DecidableEq, Repr

end Sys2Proof
end

