-- ==== Sys2Proof/Decode.lean ====
section
/-! DEFINITION. The table's words. No row of spec/opcode_table.json gives bits ("n_rows_with_fixed": 0), so no word spells a
command. Requests reach the part as frames; Machine/Link.lean reads those. -/

namespace Sys2Proof

/-- The command a table word spells: none, since the table gives no row any bits. -/
def decodeTableWord (nbits w : Nat) : Option Instr :=
  match nbits, w with
  | _, _ => none

end Sys2Proof
end

