-- ==== Sys2Proof/Config.lean ====
section
/-! DEFINITION. What one implementation of the part fixes and the manual does not state: the factory calibration rows
(section 2.3), the code bytes of fields for which section 10.8 gives no codes, the bytes of bodies that it does not lay out, and the
one arithmetic corner the manual leaves open. Each is a constant without a body: no proof can know its value. -/

namespace Sys2Proof.Config

/-- The gain of channel `n`'s factory row, before it is held to its range (section 2.3). Log 7. -/
opaque factoryGainRow : Nat → Nat

/-- The offset of channel `n`'s factory row, before it is held to its range (section 2.3). Log 7. -/
opaque factoryOffsetRow : Nat → Nat

/-- The factory gain of channel `n`, in the range of the working gain, 16,384 to 65,535 (R18, section 2.3). -/
def factoryGain (n : Nat) : Nat := 16384 + factoryGainRow n % 49152

/-- The factory offset of channel `n`, in the range of the working offset, -512 to 511 (R18, section 2.3). -/
def factoryOffset (n : Nat) : Int := ((factoryOffsetRow n % 1024 : Nat) : Int) - 512

/-- The channel kind a byte names, if any (CHANNEL_SETUP; no codes given). Log 5. -/
opaque channelKindOf : Byte → Option ChannelKind

/-- The thermistor curve a byte names, if any (CHANNEL_SETUP; no codes given). Log 5. -/
opaque curveOf : Byte → Option Curve

/-- The calibration action a byte names, if any (CAL_OVERRIDE; no codes given). Log 5. -/
opaque calActionOf : Byte → Option CalAction

/-- The zone source a byte names, if any (ZONE_SETUP; no codes given). Log 5. -/
opaque zoneSourceOf : Byte → Option ZoneSource

/-- The polarity a byte names, if any (LINE_SETUP; no codes given). Log 5. -/
opaque polarityOf : Byte → Option Polarity

/-- The drive a byte names, if any (LINE_SETUP; no codes given). Log 5. -/
opaque driveOf : Byte → Option Drive

/-- The clamp action a byte names, if any (CLAMP_FORCE; no codes given). Log 5. -/
opaque clampActionOf : Byte → Option ClampAction

/-- The permit a byte names, if any (DOMAIN_PERMIT; no codes given). Log 5. -/
opaque permitOf : Byte → Option Permit

/-- How a flag byte other than 00h and 01h reads (section 10.8 gives no rule). Log 5. -/
opaque oddFlag : Byte → Bool

/-- The speed taken from two edges captured in the same microsecond, where the formula of R159 divides by zero; its argument
is the pulses per revolution. Log 8. -/
opaque speedOfZeroPeriod : Nat → Nat

/-- The body bytes after the first one of a frame sent whose body section 10.8 does not lay out; its argument is the frame's
content. Log 30. -/
opaque bodyRest {α : Type} : α → List Byte

end Sys2Proof.Config
end

