-- ==== Sys2Proof/Machine/Records.lean ====
section
/-! DEFINITION. The records each block keeps, in the manual's own shape. Times are microseconds since RESETN was released
unless a field says ms. A timer that may be stopped is an Option of its expiry. -/

namespace Sys2Proof.Machine

/-! ## Mode Controller and Fault Record (chapter 11) -/

/-- The nine fault kinds, numbered as in section 10.8. -/
inductive FaultKind where
  | channel | electrode | zoneStale | fanStall | domainOverdue | scanOverrun | linkCheck | linkGap | linkOverrun
deriving DecidableEq, Repr

/-- One entry of the Fault Record (R187). -/
structure FaultEntry where
  detected : Bool
  report : Bool
  subject : Option Nat
deriving DecidableEq, Repr

/-- The mode record and the Fault Record (R181, R187). -/
structure Mdc where
  mode : Mode
  guardClaim : Bool
  restartAwaited : Bool
  faults : Vector FaultEntry 9
deriving DecidableEq, Repr

/-! ## Limit Store (chapter 1) -/

/-- The chassis limits, present exactly when the lock flag is set (R1), and the four limit sets, present when VALID (R5), in
the order DESK, LAP, BAG, MOVING. -/
structure Lst where
  chassis : Option ChassisLimits
  sets : Vector (Option LimitSet) 4
deriving DecidableEq, Repr

/-! ## Measurement Unit (chapter 2) -/

/-- A channel's state (R18). -/
inductive ChannelState where
  | off | valid | fault
deriving DecidableEq, Repr

/-- Where a channel's working calibration comes from (R18). -/
inductive CalSource where
  | factory | override
deriving DecidableEq, Repr

/-- A channel record (R18); its value is the view `Channel.value`. -/
structure Channel where
  enabled : Bool
  kind : ChannelKind
  curve : Option Curve
  fullScale : Option Nat
  depth : Nat
  winLow : Int
  winHigh : Int
  gain : Nat
  offset : Int
  calSource : CalSource
  restartPending : Bool
  history : List Int
  lastRaw : Option Nat
  state : ChannelState
deriving DecidableEq, Repr

/-- What a measurement completion carries (R30): its number, its time in ms, and the sixteen values and states. -/
structure Completion where
  number : Nat
  timeMs : Nat
  values : Vector (Option Int) 16
  states : Vector ChannelState 16
deriving DecidableEq, Repr

/-- A channel conversion in progress: the calibration it started with (R24), and whether its result is to be discarded
(R20). -/
structure ChannelConversion where
  channel : Fin 16
  doneAt : Nat
  gain : Nat
  offset : Int
  discard : Bool
deriving DecidableEq, Repr

/-- A measurement scan in flight (R26, R28): the channels still to convert and the conversion in progress. -/
structure MeasScan where
  todo : List (Fin 16)
  current : Option ChannelConversion
deriving DecidableEq, Repr

/-- The conversion front end (R31). -/
inductive FrontEnd where
  | free | measuring | sensing
deriving DecidableEq, Repr

/-- The contact scan's claim (R31). -/
inductive Claim where
  | unclaimed | running | paused | waiting
deriving DecidableEq, Repr

/-- The Measurement Unit. The sequence timer's counter is the time since `seqStart`; `seqPeriod` is its compare value in
ms. -/
structure Msu where
  channels : Vector Channel 16
  scanList : List (Fin 16)
  prevCopy : List (Fin 16)
  scan : Option MeasScan
  pendingMeas : Bool
  frontEnd : FrontEnd
  claim : Claim
  seqStart : Nat
  seqPeriod : Nat
  last : Completion
deriving DecidableEq, Repr

/-! ## Contact Sensing Unit (chapter 3) -/

/-- An electrode's state (R37). -/
inductive ElectrodeState where
  | off | learning | tracking | fault
deriving DecidableEq, Repr

/-- The three classes NONE, NEAR and CONTACT. -/
inductive TouchClass where
  | noTouch | near | contact
deriving DecidableEq, Repr

/-- An electrode record (R37). -/
structure Electrode where
  enabled : Bool
  near : Nat
  contact : Nat
  hyst : Nat
  state : ElectrodeState
  raw : Option Nat
  baseline : Option Nat
  delta : Option Int
  confirmed : TouchClass
  pending : Option TouchClass
  confirmCount : Nat
  satCount : Nat
  learnSum : Nat
  learnCount : Nat
deriving DecidableEq, Repr

/-- The rebase phase (R38). -/
inductive RebasePhase where
  | noRebase | electrodes | groups
deriving DecidableEq, Repr

/-- Why group learning began (R53). -/
inductive LearnOrigin where
  | rebase | doze
deriving DecidableEq, Repr

/-- The group learning state (R38). -/
inductive GroupLearning where
  | idle
  | learning (origin : LearnOrigin) (count : Nat)
deriving DecidableEq, Repr

/-- A group record (R38). -/
structure Group where
  members : List (Fin 8)
  baseline : Option Nat
  carried : Int
  raw : Option Nat
  delta : Option Int
  confirmed : TouchClass
  pending : Option TouchClass
  confirmCount : Nat
  learnSum : Nat
deriving DecidableEq, Repr

/-- What a contact conversion measures. -/
inductive ContactTarget where
  | electrode (i : Fin 8)
  | group (g : Fin 3)
deriving DecidableEq, Repr

/-- A contact conversion in progress (R31), and whether its result is to be discarded (R40). -/
structure ContactConversion where
  target : ContactTarget
  doneAt : Nat
  discard : Bool
deriving DecidableEq, Repr

/-- A contact scan in flight (R43, R44): its kind, the next electrode or group to visit, the conversion in progress, and the
groups measured in it (R52). -/
structure ContactScan where
  grouped : Bool
  next : Nat
  current : Option ContactConversion
  measured : List (Fin 3)
deriving DecidableEq, Repr

/-- The Contact Sensing Unit (R37, R38). The contact timer's counter is the time since `contactStart`. -/
structure Csu where
  electrodes : Vector Electrode 8
  resolution : Nat
  rebase : RebasePhase
  learning : GroupLearning
  contactStart : Nat
  contactPeriod : Nat
  groups : Vector Group 3
  scan : Option ContactScan
deriving DecidableEq, Repr

/-! ## Placement Unit (chapter 4) -/

/-- A line filter (R61): accepted level, run count, and the time its line was last sampled. -/
structure LineFilter where
  accepted : Level
  run : Nat
  sampledAt : Nat
deriving DecidableEq, Repr

/-- The lid field (R62). -/
inductive Lid where
  | opened | closed
deriving DecidableEq, Repr

/-- The motion field (R63). -/
inductive Motion where
  | moving | still
deriving DecidableEq, Repr

/-- The evidence record (R64). -/
structure Evidence where
  lid : Lid
  motion : Motion
  baseContact : Nat
  baseNear : Nat
  topNear : Nat
  edgeNear : Nat
deriving DecidableEq, Repr

/-- The dwell (R64). -/
inductive Dwell where
  | idle
  | running (expiry : Nat)
  | elapsed
deriving DecidableEq, Repr

/-- A pin (R64). -/
structure Pin where
  placement : SetId
  expiry : Option Nat
deriving DecidableEq, Repr

/-- The Placement Unit's record (R64). -/
structure Plu where
  lid : LineFilter
  motion : LineFilter
  adp : LineFilter
  sampleClock : Nat
  evidence : Evidence
  stillTimer : Option Nat
  candidate : Option SetId
  dwell : Dwell
  placement : Placement
  pin : Option Pin
deriving DecidableEq, Repr

/-! ## Zone Monitor (chapter 5) -/

/-- A zone's state (R80). -/
inductive ZoneState where
  | off | normal | warm | hot | critical | faulted
deriving DecidableEq, Repr

/-- A zone record (R80); `demand` is the demand last handed over for each fan (R93). -/
structure Zone where
  enabled : Bool
  source : ZoneSource
  channels : List (Fin 16)
  fanMap : List (Fin 2)
  temperature : Option Int
  state : ZoneState
  r : Nat
  stepTimer : Option Nat
  lastStepTemp : Option Int
  lastFeed : Option Nat
  feedTimer : Option Nat
  woke : Bool
  demand : Vector (Option Nat) 2
deriving DecidableEq, Repr

/-- The Zone Monitor. -/
structure Znm where
  zones : Vector Zone 6
  thermalClaim : Bool
deriving DecidableEq, Repr

/-! ## Source Monitor (chapter 6) -/

/-- The battery state (R99). -/
inductive Battery where
  | normal | low | critical
deriving DecidableEq, Repr

/-- The setup fields of the source record (R99). -/
structure SourceSetup where
  rating : Nat
  discharge : Nat
  lowLimit : Nat
  batteryChannel : Fin 16
  lowThreshold : Nat
  criticalThreshold : Nat
  hysteresis : Nat
  pair : Option (Fin 16 × Fin 16)
deriving DecidableEq, Repr

/-- The source record (R99); setup received is the presence of `setup`. -/
structure Srm where
  setup : Option SourceSetup
  adapterPresent : Bool
  battery : Battery
  sourceLimit : Option Nat
  severity : Bool
deriving DecidableEq, Repr

/-! ## Allocator (chapters 6, 7, 8) -/

/-- The causes of a round (R139), numbered as in the GRANT notice of section 10.8. -/
inductive RoundCause where
  | placement | setLoad | thermal | source | burst | fan | sysCap | permit | preempt | ceiling
deriving DecidableEq, Repr

/-- A domain's grant state (R119). -/
inductive GrantState where
  | unmanaged | settled | revoking | clamped | overdue
deriving DecidableEq, Repr

/-- A domain record (R118, and the overdue-since time of R139). `holdStart` is a completion's time in ms (R148). -/
structure Domain where
  kind : DomainKind
  label : Option (List Byte)
  priority : Nat
  floor : Nat
  ceiling : Nat
  rail : Nat
  sense : Option (Fin 16)
  volt : Option (Fin 16)
  line : Option (Fin 6)
  permit : Permit
  request : Option Nat
  effCeiling : Option Nat
  grant : Option Nat
  state : GrantState
  deadline : Option Nat
  holdStart : Option Nat
  measured : Option Nat
  revocations : Nat
  clamps : Nat
  overdueSince : Option Nat
deriving DecidableEq, Repr

/-- An entry of the raise queue (R130); `time` is in ms. -/
structure QueueEntry where
  slot : Fin 6
  priority : Nat
  time : Nat
deriving DecidableEq, Repr

/-- An entry of the affected list (R139); target, deadline and outcome are views of the domain. -/
structure AffectedEntry where
  slot : Fin 6
  oldGrant : Nat
deriving DecidableEq, Repr

/-- The round record (R139). -/
structure Round where
  number : Nat
  opened : Bool
  causes : List RoundCause
  affected : List AffectedEntry
  reservation : Nat
  beneficiary : Option (Fin 6)
deriving DecidableEq, Repr

/-- The budget record (R107); floor sum and spare are views. -/
structure Budget where
  sourceLimit : Option Nat
  adapterPresent : Bool
  sourceSeverity : Bool
  reductions : Vector Nat 6
  severities : Vector Bool 6
  derates : Vector Bool 2
  systemCap : Option Nat
  credit : Nat
  armed : Bool
  effective : Option Nat
deriving DecidableEq, Repr

/-- The Allocator. -/
structure Alc where
  budget : Budget
  domains : Vector (Option Domain) 6
  queue : List QueueEntry
  round : Round
deriving DecidableEq, Repr

/-! ## Clamp Unit (chapter 8) -/

/-- The causes on a clamp line (R151). -/
inductive ClampCause where
  | overdue | thermal | source | guard | forced
deriving DecidableEq, Repr

/-- A line record (R151); the active level is the view `Line.active`. -/
structure Line where
  enabled : Bool
  polarity : Polarity
  drive : Drive
  causes : List ClampCause
  assigned : Option (Fin 6)
deriving DecidableEq, Repr

/-! ## Fan Controller (chapter 9) -/

/-- The kinds of spin-up (R157). -/
inductive SpinKind where
  | ordinary | retry
deriving DecidableEq, Repr

/-- The phases of a spin-up (R157). -/
inductive SpinPhase where
  | kick | proving
deriving DecidableEq, Repr

/-- A fan's state; kind and phase are present exactly while SPINUP (R157). -/
inductive FanState where
  | off | stopped
  | spinup (kind : SpinKind) (phase : SpinPhase)
  | running | stalled
deriving DecidableEq, Repr

/-- A fan record (R157). `periodOpen` says that a period is being counted from `lastEdge` (R159). -/
structure Fan where
  enabled : Bool
  ppr : Nat
  minDuty : Nat
  state : FanState
  duty : Nat
  target : Nat
  speed : Option Nat
  lastEdge : Option Nat
  periodOpen : Bool
  stallTimer : Option Nat
  phaseTimer : Option Nat
  retryTimer : Option Nat
  attempts : Nat
  finalFlag : Bool
deriving DecidableEq, Repr

/-- The Fan Controller: the fans, the last expiry of the ramp timer (R161), the start of the running PWM period and the duty
each output took at it (R158). -/
structure Fnc where
  fans : Vector Fan 2
  rampStart : Nat
  pwmStart : Nat
  pwmDuty : Vector Nat 2
deriving DecidableEq, Repr

end Sys2Proof.Machine
end

