-- ==== Sys2Proof/Machine/Messages.lean ====
section
/-! DEFINITION. What the part sends: reply statuses and contents, and notices (chapter 10). A reply's or notice's content is
held by its named fields, as the chapters describe it; section 10.8 gives bytes only for the STATUS reply and the GRANT notice,
which Machine/Flags.lean lays out (log 30). Remaining times are in ms. -/

namespace Sys2Proof.Machine

/-- Reply statuses (R180). -/
inductive Status where
  | ok | accepted | trimmed | badLength | badField | unknownKind | notReady | locked | busy | noSuch | conflict
  | notPermitted | outOfLimits | abandoned
deriving DecidableEq, Repr

/-- Why a GRANT notice is posted (R135). -/
inductive GrantReason where
  | raise | lower | round | ceiling
deriving DecidableEq, Repr

/-- A notice by its kind, its subject and its content (R176, R180). -/
inductive Notice where
  /-- R71 -/
  | placement (now previous : Placement) (pinned : Bool) (evidence : Evidence)
  /-- R135 -/
  | grant (slot : Fin 6) (grant : Nat) (state : GrantState) (effCeiling : Nat) (reason : GrantReason)
      (causes : List RoundCause) (remaining : Option Nat)
  /-- R150 -/
  | round (number : Nat) (causes : List RoundCause) (settled clamped overdue : Nat)
  /-- R152 -/
  | clamp (line : Fin 6) (active : Bool) (causes : List ClampCause)
  /-- R88 -/
  | zone (zone : Fin 6) (state : ZoneState) (temperature : Option Int) (r : Nat) (woke : Bool)
  /-- R187 -/
  | fault (kind : FaultKind) (subject : Nat)
  /-- R106 -/
  | source (adapterPresent : Bool) (battery : Battery) (limit : Option Nat)
  /-- R176: the long request that ended; REBASE is the only one -/
  | done (status : Status)
  /-- R165 -/
  | fan (fan : Fin 2) (state : FanState) (duty : Nat) (speed : Option Nat) (attempts : Nat)
deriving DecidableEq, Repr

/-- The STATUS reply's fields (section 10.8). -/
structure StatusReport where
  mode : Mode
  placement : Placement
  pinned : Bool
  candidate : Option SetId
  roundOpen : Bool
  armed : Bool
  adapterPresent : Bool
  dropped : Bool
  effective : Option Nat
  spare : Option Nat
  reservation : Nat
  sumGrants : Nat
  floorSum : Nat
  roundNumber : Nat
  credit : Nat
  battery : Battery
  detected : List Bool
deriving DecidableEq, Repr

/-- One channel's entry in READ_CHANNELS (R35). -/
structure ChannelEntry where
  channel : Fin 16
  enabled : Bool
  listed : Bool
  kind : ChannelKind
  curve : Option Curve
  fullScale : Option Nat
  depth : Nat
  winLow : Int
  winHigh : Int
  state : ChannelState
  value : Option Int
  results : Nat
  lastRaw : Option Nat
  gain : Nat
  offset : Int
  calSource : CalSource
  restartPending : Bool
deriving DecidableEq, Repr

/-- One group's record in READ_ELECTRODES (R59). -/
structure GroupEntry where
  members : List (Fin 8)
  baseline : Option Nat
  carried : Int
  raw : Option Nat
  delta : Option Int
  confirmed : TouchClass
  pending : Option TouchClass
  confirmCount : Nat
deriving DecidableEq, Repr

/-- One electrode's entry in READ_ELECTRODES (R59). -/
structure ElectrodeEntry where
  electrode : Fin 8
  group : Fin 3
  enabled : Bool
  near : Nat
  contact : Nat
  hyst : Nat
  state : ElectrodeState
  raw : Option Nat
  baseline : Option Nat
  delta : Option Int
  confirmed : TouchClass
  pending : Option TouchClass
  confirmCount : Nat
  satCount : Nat
  learnCount : Nat
deriving DecidableEq, Repr

/-- One zone's entry in READ_ZONES (R96). -/
structure ZoneEntry where
  zone : Fin 6
  enabled : Bool
  source : ZoneSource
  channels : List (Fin 16)
  fanMap : List (Fin 2)
  temperature : Option Int
  state : ZoneState
  r : Nat
  stepRemaining : Option Nat
  lastStepTemp : Option Int
  feedAge : Option Nat
  feedRemaining : Option Nat
  woke : Bool
deriving DecidableEq, Repr

/-- One line in the CLAMP_FORCE reply (R155). -/
structure LineEntry where
  enabled : Bool
  active : Bool
  causes : List ClampCause
deriving DecidableEq, Repr

/-- One slot of READ_GRANTS' summary (R136). -/
structure SlotSummary where
  state : GrantState
  grant : Option Nat
  wanted : Option Nat
  measured : Option Nat
deriving DecidableEq, Repr

/-- A domain's place in the affected list of the open round (R136, R139). -/
structure AffectedView where
  oldGrant : Nat
  target : Nat
  outcome : GrantState
deriving DecidableEq, Repr

/-- A full domain record in READ_GRANTS (R136). -/
structure GrantEntry where
  kind : DomainKind
  label : Option (List Byte)
  priority : Nat
  floor : Nat
  ceiling : Nat
  rail : Nat
  sense : Option (Fin 16)
  volt : Option (Fin 16)
  line : Option (Fin 6)
  permit : Permit
  request : Option Nat
  effCeiling : Option Nat
  wanted : Option Nat
  grant : Option Nat
  state : GrantState
  deadlineRemaining : Option Nat
  holdElapsed : Option Nat
  measured : Option Nat
  revocations : Nat
  clamps : Nat
  queuePosition : Option Nat
  queueTime : Option Nat
  affected : Option AffectedView
deriving DecidableEq, Repr

/-- The dwell's state as a placement report gives it (R72). -/
inductive DwellState where
  | idle | running | elapsed
deriving DecidableEq, Repr

/-- The placement report (R72). -/
structure PlacementReport where
  placement : Placement
  pinned : Bool
  pinRemaining : Option Nat
  candidate : Option SetId
  dwell : DwellState
  dwellRemaining : Option Nat
  evidence : Evidence
deriving DecidableEq, Repr

/-- One fan in READ_FANS (R168): every field of R157, timers as remaining times, with the lift and the highest demand. -/
structure FanEntry where
  enabled : Bool
  ppr : Nat
  minDuty : Nat
  state : FanState
  duty : Nat
  target : Nat
  speed : Option Nat
  lastEdge : Option Nat
  stallRemaining : Option Nat
  phaseRemaining : Option Nat
  retryRemaining : Option Nat
  attempts : Nat
  finalFlag : Bool
  derateClaim : Bool
  lifted : Bool
  highestDemand : Option Nat
deriving DecidableEq, Repr

/-- What a reply carries after its status. -/
inductive ReplyBody where
  | empty
  /-- the number of the failing field (R2, R7) -/
  | field (number : Nat)
  /-- IDENTIFY (R186) -/
  | identity (vendor part : String) (revision : Nat)
  | status (report : StatusReport)
  /-- a refused RUN (R183): the mode, the EMPTY sets, the setup-received flag -/
  | runRefused (mode : Mode) (emptySets : List SetId) (setupReceived : Bool)
  /-- DOZE and WAKE (R184) -/
  | mode (mode : Mode)
  /-- READ_SET 0 to 3 (R16); the state is VALID exactly when the values are present -/
  | set (number : SetId) (active : Bool) (values : Option LimitSet)
  /-- READ_SET 4 (R17); the lock flag is set exactly when the fields are present -/
  | chassis (fields : Option ChassisLimits)
  | scanList (completion : Nat) (list : List (Fin 16))
  | channels (completion : Nat) (entries : List ChannelEntry)
  | unit (resolution fullScale : Nat) (rebase : RebasePhase) (learning : GroupLearning) (groups : List GroupEntry)
  | electrodes (entries : List ElectrodeEntry)
  | zoneSummary (thermalClaim : Bool) (totalReduction : Nat) (states : List ZoneState)
  | zones (entries : List ZoneEntry)
  | sourceLimit (limit : Option Nat)
  /-- SYS_CAP (R108) -/
  | budget (effective spare : Option Nat)
  | lines (entries : List LineEntry)
  /-- DOMAIN_DECLARE (R123) -/
  | declared (state : GrantState) (grant : Option Nat)
  /-- DOMAIN_REQUEST (R125) -/
  | requested (request : Nat) (grant : Option Nat)
  /-- DOMAIN_PERMIT (R127) -/
  | permit (permit : Permit) (effCeiling grant : Option Nat)
  /-- DOMAIN_SETTLED (R146) -/
  | settled (state : GrantState) (holdRemaining : Option Nat)
  | grantSummary (slots : List (Option SlotSummary)) (queue : List (Fin 6)) (reservation : Nat) (beneficiary : Option (Fin 6))
  | grants (entries : List (Fin 6 × Option GrantEntry))
  | placement (report : PlacementReport)
  /-- FAN_RETRY (R167) -/
  | fanState (state : FanState) (attempts : Nat)
  | fans (entries : List FanEntry)
  | faults (entries : List FaultEntry)
deriving DecidableEq, Repr

/-- What an owner answers a request with. -/
structure Answer where
  status : Status
  body : ReplyBody
deriving DecidableEq, Repr

/-- A reply frame's content (R173): its kind, its tag, its status and body, fixed when it is formed. -/
structure Reply where
  kind : Byte
  tag : Byte
  answer : Answer
deriving DecidableEq, Repr

/-! ## System Link records (chapter 10) -/

/-- An occupied request slot (R174): the request's kind and tag, its reply once formed, and whether it is being sent. -/
structure RequestSlot where
  kind : Byte
  tag : Byte
  reply : Option Reply
  sending : Bool
deriving DecidableEq, Repr

/-- The receiver and its frame under assembly (R171). `stored` holds kind, tag and body bytes in order of arrival. -/
inductive Receiver where
  | hunt
  | length
  | body (length : Nat) (stored : List Byte) (count : Nat)
  | check (length : Nat) (stored : List Byte)
deriving DecidableEq, Repr

/-- The transmitter (R175). -/
inductive Transmitter where
  | idle
  | sendingReply
  | sendingNotice (content : Notice)
deriving DecidableEq, Repr

/-- The System Link. `rxdWaiting` holds samples of RXD that have not been taken yet (the model's own input, log 24) and
`rxdTaken` counts those taken since RESETN was released (R170). `startBit` is the time of the fall that opened the byte being
received, and `heard` the accepted level at each sample from that fall on. `txStart` is the time at which the frame being
sent began, absent while nothing is sent (R175), and `cut` the time at which a break has cut it: it stops after the byte that
was being sent then (R178). -/
structure Slk where
  rxd : LineFilter
  rxdWaiting : List Level
  rxdTaken : Nat
  startBit : Option Nat
  heard : List Level
  rx : Receiver
  gapTimer : Option Nat
  breakActive : Bool
  slots : List RequestSlot
  tx : Transmitter
  txStart : Option Nat
  cut : Option Nat
  hrdy : Bool
  notices : List Notice
  dropped : Bool
deriving DecidableEq, Repr

end Sys2Proof.Machine
end

