-- ==== Sys2Proof/Machine/State.lean ====
section
/-! DEFINITION. The whole state of the part as plain data, and the state right after power-on reset. -/

namespace Sys2Proof.Machine

/-- The reasons the part stops. It has none: the manual has no event after which the part is stuck, and every request it
cannot take is answered with a status. No meaning raises a fault (log 26). -/
inductive Fault : Type
deriving DecidableEq, Repr

/-- The reasons a command has no meaning. -/
inductive Refusal where
  /-- Raised only by an arm of `exec` whose command has no meaning yet. Safe: no statement can rest on it. -/
  | notModelled (mnemonic : String)
deriving DecidableEq, Repr

/-- The part, its clock and the queue of commands that wait. -/
structure State where
  now : Nat
  mdc : Mdc
  lst : Lst
  msu : Msu
  csu : Csu
  plu : Plu
  znm : Znm
  srm : Srm
  alc : Alc
  clu : Vector Line 6
  fnc : Fnc
  slk : Slk
  choices : List (List Nat)
  pending : List Instr
deriving DecidableEq, Repr

/-- R187: flag clear, enable set, subject absent. -/
def FaultEntry.reset : FaultEntry := { detected := false, report := true, subject := none }

/-- R181, R187. -/
def Mdc.reset : Mdc :=
  { mode := .prepare, guardClaim := false, restartAwaited := false, faults := Vector.replicate 9 .reset }

/-- R1, R5. -/
def Lst.reset : Lst := { chassis := none, sets := Vector.replicate 4 none }

/-- R18, for channel `n`. -/
def Channel.reset (n : Fin 16) : Channel :=
  { enabled := false, kind := .temp, curve := some .a, fullScale := none, depth := 1, winLow := -400, winHigh := 1500
    gain := Config.factoryGain n, offset := Config.factoryOffset n, calSource := .factory, restartPending := false
    history := [], lastRaw := none, state := .off }

/-- R30: number 0; the time before the first completion is the release of RESETN (R109). The values and states that stand for
a completion before the first, no value and OFF, are the model's choice (log 40). -/
def Completion.reset : Completion :=
  { number := 0, timeMs := 0, values := Vector.replicate 16 none, states := Vector.replicate 16 .off }

/-- R18, R25, R27, R30, R31. -/
def Msu.reset : Msu :=
  { channels := tabulate Channel.reset, scanList := [], prevCopy := [], scan := none, pendingMeas := false
    frontEnd := .free, claim := .unclaimed, seqStart := 0, seqPeriod := 100, last := .reset }

/-- R37. -/
def Electrode.reset : Electrode :=
  { enabled := false, near := 100, contact := 300, hyst := 20, state := .off, raw := none, baseline := none, delta := none
    confirmed := .noTouch, pending := none, confirmCount := 0, satCount := 0, learnSum := 0, learnCount := 0 }

/-- R38. -/
def Group.reset : Group :=
  { members := [], baseline := none, carried := 0, raw := none, delta := none, confirmed := .noTouch, pending := none
    confirmCount := 0, learnSum := 0 }

/-- R37, R38, R42. -/
def Csu.reset : Csu :=
  { electrodes := Vector.replicate 8 .reset, resolution := 12, rebase := .noRebase, learning := .idle, contactStart := 0
    contactPeriod := 50, groups := Vector.replicate 3 .reset, scan := none }

/-- R61: accepted LOW, run count 0, no sample taken yet. -/
def LineFilter.reset : LineFilter := { accepted := .low, run := 0, sampledAt := 0 }

/-- R64: the still timer runs with an expiry 2,000 ms after release. -/
def Plu.reset : Plu :=
  { lid := .reset, motion := .reset, adp := .reset, sampleClock := 0
    evidence := { lid := .closed, motion := .moving, baseContact := 0, baseNear := 0, topNear := 0, edgeNear := 0 }
    stillTimer := some 2000000, candidate := none, dwell := .idle, placement := .unsettled, pin := none }

/-- R80. -/
def Zone.reset : Zone :=
  { enabled := false, source := .fed, channels := [], fanMap := [], temperature := none, state := .off, r := 0
    stepTimer := none, lastStepTemp := none, lastFeed := none, feedTimer := none, woke := false
    demand := Vector.replicate 2 none }

/-- R80. -/
def Znm.reset : Znm := { zones := Vector.replicate 6 .reset, thermalClaim := false }

/-- R99. -/
def Srm.reset : Srm :=
  { setup := none, adapterPresent := false, battery := .normal, sourceLimit := none, severity := false }

/-- R107. -/
def Budget.reset : Budget :=
  { sourceLimit := none, adapterPresent := false, sourceSeverity := false, reductions := Vector.replicate 6 0
    severities := Vector.replicate 6 false, derates := Vector.replicate 2 false, systemCap := none, credit := 0
    armed := false, effective := none }

/-- R139. -/
def Round.reset : Round :=
  { number := 0, opened := false, causes := [], affected := [], reservation := 0, beneficiary := none }

/-- R107, R118, R130, R139. -/
def Alc.reset : Alc := { budget := .reset, domains := Vector.replicate 6 none, queue := [], round := .reset }

/-- R151. -/
def Line.reset : Line :=
  { enabled := true, polarity := .activeLow, drive := .openDrain, causes := [], assigned := none }

/-- R157 with the ordinary spin-up to guard duty that starts at once (R162, R169): full-duty kick until 500 ms. -/
def Fan.reset : Fan :=
  { enabled := true, ppr := 2, minDuty := 20, state := .spinup .ordinary .kick, duty := 100, target := 60, speed := none
    lastEdge := none, periodOpen := false, stallTimer := none, phaseTimer := some 500000, retryTimer := none
    attempts := 0, finalFlag := false }

/-- R157, R158, R161; the first PWM period begins at the release with the duty of the kick (DEDUCED, log 11). -/
def Fnc.reset : Fnc :=
  { fans := Vector.replicate 2 .reset, rampStart := 0, pwmStart := 0, pwmDuty := Vector.replicate 2 100 }

/-- The FAN notice that a fan's power-on spin-up posts (R165; DEDUCED, log 11). -/
def Fan.resetNotice (n : Fin 2) : Notice := .fan n (.spinup .ordinary .kick) 100 none 0

/-- R170, R171, R174, R175, R176; the notice queue is empty but for the FAN notices of the spin-ups (log 11). -/
def Slk.reset : Slk :=
  { rxd := { accepted := .high, run := 0, sampledAt := 0 }, rxdWaiting := [], rxdTaken := 0, startBit := none, heard := []
    rx := .hunt, gapTimer := none, breakActive := false, slots := [], tx := .idle, txStart := none, cut := none, hrdy := false
    notices := [Fan.resetNotice 0, Fan.resetNotice 1], dropped := false }

/-- The part at the release of RESETN, with no command waiting. -/
def State.reset : State :=
  { now := 0, mdc := .reset, lst := .reset, msu := .reset, csu := .reset, plu := .reset, znm := .reset, srm := .reset
    alc := .reset, clu := Vector.replicate 6 .reset, fnc := .reset, slk := .reset, choices := [], pending := [] }

end Sys2Proof.Machine
end

