-- ==== Sys2Proof/Machine/Ops.lean ====
section
/-! DEFINITION. The operations every block shares: the clock, the modes' periods, the active set, posting a notice, detecting
a fault, accepting a request, and the free order of blocks inside a step. -/

namespace Sys2Proof

/-! ## Modes and limit sets -/

/-- RUNNING and DOZING: grants are managed and zones judged. -/
def Mode.managed : Mode → Bool
  | .prepare => false
  | .locked => false
  | .running => true
  | .dozing => true

/-- The measurement scan period in ms (R27). -/
def Mode.scanPeriod : Mode → Nat
  | .dozing => 1000
  | _ => 100

/-- The contact scan period in ms (R42). -/
def Mode.contactPeriod : Mode → Nat
  | .dozing => 500
  | _ => 50

/-- The number of a limit set (R5). -/
def SetId.index : SetId → Fin 4
  | .desk => 0
  | .lap => 1
  | .bag => 2
  | .moving => 3

/-- The set a number names (R5, R7). -/
def setOfNumber : Nat → Option SetId
  | 0 => some .desk
  | 1 => some .lap
  | 2 => some .bag
  | 3 => some .moving
  | _ => none

/-- The four sets in number order. -/
def allSets : List SetId := [.desk, .lap, .bag, .moving]

/-- The limit set of a placement (R11). -/
def Placement.activeSet : Placement → SetId
  | .unsettled => .bag
  | .settled p => p

/-- A set without allowances. It stands for the active set only where that set is EMPTY in RUNNING or DOZING, which R5 rules
out (log 27). -/
def LimitSet.none : LimitSet :=
  { sustained := 0, burst := 0, bucket := 0, rearm := 100, hysteresis := 5, thermalStep := 250, stepInterval := 250
    chargeCap := 0, compliance := 10, tolerance := 0, entryDwell := 500
    zones := Vector.replicate 6 { soft := 0, hard := 1, critical := 2 }
    fans := Vector.replicate 2 { floor := 0, ceiling := 0 } }

end Sys2Proof

namespace Sys2Proof.Machine

/-! ## Clock -/

/-- Milliseconds in the clock's unit. -/
def ms (n : Nat) : Nat := n * 1000

/-- Seconds in the clock's unit. -/
def sec (n : Nat) : Nat := n * 1000000

/-- The time in ms since RESETN was released (R30), rounded down. Log 9. -/
def State.nowMs (s : State) : Nat := s.now / 1000

/-- Time passes. Log 1. -/
def State.elapse (dt : Nat) (s : State) : State := { s with now := s.now + dt }

/-- The clock stands at the moment a timer reaches `t`, or later when that moment has passed. Log 1 and 25. -/
def State.reach (t : Nat) (s : State) : State := { s with now := max s.now t }

/-- What is left until `t`, in ms rounded down. Log 9. -/
def State.remainingMs (s : State) (t : Nat) : Nat := (t - s.now) / 1000

/-- The remaining time of a timer, absent when it is stopped. -/
def State.timerLeft (s : State) (t : Option Nat) : Option Nat := t.map s.remainingMs

/-! ## Tables -/

/-- The six domain slots, zones and clamp lines in order. -/
def six : List (Fin 6) := [0, 1, 2, 3, 4, 5]

/-- The eight electrodes in order. -/
def eight : List (Fin 8) := [0, 1, 2, 3, 4, 5, 6, 7]

/-- The three electrode groups in order: BASE, TOP, EDGE. -/
def three : List (Fin 3) := [0, 1, 2]

/-- The two fans in order. -/
def two : List (Fin 2) := [0, 1]

/-- The sixteen channels in order. -/
def sixteen : List (Fin 16) := [0, 1, 2, 3, 4, 5, 6, 7, 8, 9, 10, 11, 12, 13, 14, 15]

/-- A number as a table index, when it names a row. -/
def index? (n k : Nat) : Option (Fin n) := if h : k < n then some ⟨k, h⟩ else none

/-- The rows of a table from `first` on, `count` of them. -/
def rowsFrom {n : Nat} (rows : List (Fin n)) (first count : Nat) : List (Fin n) := (rows.drop first).take count

/-! ## The mode and the active set -/

/-- The part is RUNNING or DOZING. -/
def State.managed (s : State) : Bool := s.mdc.mode.managed

/-- A stored limit set; absent when EMPTY. -/
def Lst.get (l : Lst) (i : SetId) : Option LimitSet := l.sets.get i.index

/-- The active set's number (R11). -/
def State.activeId (s : State) : SetId := s.plu.placement.activeSet

/-- The limits of the active set (R11). -/
def State.active (s : State) : LimitSet := (s.lst.get s.activeId).getD .none

/-- The entry dwell of a candidate's set in ms: its own when VALID, else the standby dwell (R15). -/
def State.entryDwell (s : State) (p : SetId) : Nat :=
  match s.lst.get p with
  | some l => l.entryDwell
  | none => 3000

/-- A power rounded down to the grant step (section 0.6). -/
def stepDown (n : Nat) : Nat := n / 250 * 250

/-- A multiple of the grant step. -/
def isStep (n : Nat) : Bool := n % 250 == 0

/-! ## Notices and faults -/

/-- The code of a fault kind (section 10.8). -/
def FaultKind.index : FaultKind → Fin 9
  | .channel => 0
  | .electrode => 1
  | .zoneStale => 2
  | .fanStall => 3
  | .domainOverdue => 4
  | .scanOverrun => 5
  | .linkCheck => 6
  | .linkGap => 7
  | .linkOverrun => 8

/-- A notice's kind code (R180). -/
def Notice.kind : Notice → Nat
  | .placement .. => 0x40
  | .grant .. => 0x41
  | .round .. => 0x42
  | .clamp .. => 0x43
  | .zone .. => 0x44
  | .fault .. => 0x45
  | .source .. => 0x46
  | .done .. => 0x47
  | .fan .. => 0x48

/-- A notice's subject (R180); DONE has the kind of the long request, REBASE. -/
def Notice.subject : Notice → Nat
  | .placement .. => 0
  | .grant slot .. => slot
  | .round .. => 0
  | .clamp line .. => line
  | .zone subject .. => subject
  | .fault kind _ => kind.index
  | .source .. => 0
  | .done _ => 0x1A
  | .fan subject .. => subject

/-- Two notices have the same key (R176). -/
def Notice.sameKey (m n : Notice) : Bool := m.kind == n.kind && m.subject == n.subject

/-- The most entries the notice queue holds (R176). -/
def noticeCapacity : Nat := 16

/-- A posting taken by the notice queue (R176). -/
def Slk.post (n : Notice) (k : Slk) : Slk :=
  if k.notices.any (·.sameKey n) then { k with notices := k.notices.map fun m => if m.sameKey n then n else m }
  else if k.notices.length < noticeCapacity then { k with notices := k.notices ++ [n] }
  else { k with dropped := true }

/-- A block posts a notice. -/
def State.post (n : Notice) (s : State) : State := { s with slk := s.slk.post n }

/-- The entry of a fault kind after a detection (R187). -/
def FaultEntry.record (subject : Nat) (e : FaultEntry) : FaultEntry := { e with detected := true, subject := some subject }

/-- A detection sets the kind's flag and latest subject and, when the kind is enabled, posts a FAULT notice (R187). -/
def detect (k : FaultKind) (subject : Nat) (s : State) : State :=
  let t := { s with mdc := { s.mdc with faults := modifyRow s.mdc.faults k.index (·.record subject) } }
  if (s.mdc.faults.get k.index).report then t.post (.fault k subject) else t

/-! ## Requests -/

/-- A reply with a status alone. -/
def Answer.only (st : Status) : Answer := { status := st, body := .empty }

/-- A reply kind: the request's kind plus 80h, its top bit set (R173). -/
def replyKind (kind : Byte) : Byte := kind ||| 0x80

/-- A slot is occupied behind those occupied before it (R174). Log 23. -/
def State.occupy (r : RequestSlot) (s : State) : State := { s with slk := { s.slk with slots := s.slk.slots ++ [r] } }

/-- A checked frame arrives (R172, R173, R174, R179): it is lost with LINK_OVERRUN when both slots are occupied; while a
RESTART is awaited it occupies a slot and goes no further; otherwise its owner takes it at once and the reply is formed. In a
break no frame is taken (R178). -/
def acceptRequest (kind tag : Byte) (owner : State → State × Answer) (s : State) : State :=
  if s.slk.breakActive then s
  else if 2 ≤ s.slk.slots.length then detect .linkOverrun 0 s
  else if s.mdc.restartAwaited then s.occupy { kind, tag, reply := none, sending := false }
  else
    let r := owner s
    r.1.occupy { kind, tag, reply := some { kind := replyKind kind, tag, answer := r.2 }, sending := false }

/-- A request row: time passes, then its frame is accepted. Log 1 and 4. -/
def request (dt : Nat) (kind tag : Byte) (owner : State → State × Answer) (s : State) : Host.Outcome State Fault Refusal :=
  .next (acceptRequest kind tag owner (s.elapse dt))

/-- An owner that refuses: the state stays as it is. -/
def refuse (st : Status) (s : State) : State × Answer := (s, .only st)

/-- An event of one of the part's own timers: it happens at the timer's expiry, and not at all when the timer is stopped.
Log 1 and 2. -/
def atExpiry (timer : Option Nat) (effect : State → State) (s : State) : State :=
  match timer with
  | none => s
  | some t => effect (s.reach t)

/-! ## The free order of blocks inside a step (log 3) -/

/-- The first occurrences of a list. -/
def firsts : List Nat → List Nat
  | [] => []
  | a :: l => a :: (firsts l).filter (· != a)

/-- An order of `0` to `n - 1`: the agents a choice names, then the rest. -/
def orderOf (n : Nat) (choice : List Nat) : List Nat :=
  firsts (choice.filter (· < n) ++ List.range n)

/-- The next choice, read and advanced. -/
def State.takeChoice (s : State) : State := { s with choices := s.choices.tail }

/-- Agents `0` to `n - 1` act one after another in a free order. -/
def inFreeOrder (n : Nat) (agent : Nat → State → State) (s : State) : State :=
  (orderOf n (s.choices.headD [])).foldl (fun t a => agent a t) s.takeChoice

end Sys2Proof.Machine
end

