-- ==== Sys2Proof/Machine/Operands.lean ====
section
/-! DEFINITION. The operands of requests as frames carry them (section 10.8): little-endian fields, flags, packed thresholds
and code bytes, and the check byte of a frame (R172). A body is the list of its bytes; a read past its end gives 00h, which
the length check of R173 rules out. -/

namespace Sys2Proof.Machine

/-- The byte at an offset of a body. -/
def byteAt (b : List Byte) (o : Nat) : Byte := b.getD o 0

/-- An unsigned field of one byte. -/
def u8 (b : List Byte) (o : Nat) : Nat := (byteAt b o).toNat

/-- An unsigned field of two bytes, little-endian. -/
def u16 (b : List Byte) (o : Nat) : Nat := u8 b o + 256 * u8 b (o + 1)

/-- An unsigned field of three bytes, little-endian. -/
def u24 (b : List Byte) (o : Nat) : Nat := u8 b o + 256 * u8 b (o + 1) + 65536 * u8 b (o + 2)

/-- A number of `bits` bits read in two's complement. -/
def signed (bits n : Nat) : Int := if n < 2 ^ (bits - 1) then (n : Int) else (n : Int) - 2 ^ bits

/-- A signed field of two bytes. -/
def s16 (b : List Byte) (o : Nat) : Int := signed 16 (u16 b o)

/-- A flag byte: 00h is clear and 01h is set; how another byte reads is left open (log 5). -/
def flagOf (x : Byte) : Bool := if x = 0 then false else if x = 1 then true else Config.oddFlag x

/-- The flag at an offset. -/
def flagAt (b : List Byte) (o : Nat) : Bool := flagOf (byteAt b o)

/-- A field behind a presence flag (section 10.8). -/
def present {α : Type} (flag : Bool) (a : α) : Option α := if flag then some a else none

/-- An enabled field whose owner checks its range: yes is 01h and no is 00h (R39, R154; log 5). -/
def enabledOf (x : Byte) : Option Bool := if x = 0 then some false else if x = 1 then some true else none

/-- The two 12-bit values packed into three bytes at an offset (section 10.8): the `odd` one is the second. -/
def packed12 (b : List Byte) (o : Nat) (odd : Bool) : Int :=
  signed 12 (if odd then u8 b (o + 1) / 16 + 16 * u8 b (o + 2) else u8 b o + 256 * (u8 b (o + 1) % 16))

/-- The `n`-th of the eighteen packed thresholds of LOAD_SET, whose first byte stands at offset 25. -/
def thresholdAt (b : List Byte) (n : Nat) : Int := packed12 b (25 + n / 2 * 3) (n % 2 == 1)

/-- CHASSIS_LIMITS' fields. -/
def chassisFields (b : List Byte) : ChassisLimits :=
  { maxSustained := u24 b 0, maxBurst := u24 b 3, minBudget := u24 b 6
    zoneCeiling := tabulate fun z => s16 b (9 + 2 * z.val), sourceDeadline := u8 b 21, guardTemp := s16 b 22
    stallDerate := tabulate fun f => u24 b (24 + 3 * f.val), systemReserve := u24 b 30 }

/-- LOAD_SET's fields after the set number. -/
def setFields (b : List Byte) : LimitSet :=
  { sustained := u24 b 1, burst := u24 b 4, bucket := u24 b 7, rearm := u8 b 10, hysteresis := u8 b 11
    thermalStep := u16 b 12, stepInterval := u16 b 14, chargeCap := u24 b 16, compliance := u16 b 19
    tolerance := u16 b 21, entryDwell := u16 b 23
    zones := tabulate fun z =>
      { soft := thresholdAt b (3 * z.val), hard := thresholdAt b (3 * z.val + 1), critical := thresholdAt b (3 * z.val + 2) }
    fans := tabulate fun f => { floor := u8 b (52 + 2 * f.val), ceiling := u8 b (53 + 2 * f.val) } }

/-- CHANNEL_SETUP's fields; the window bounds are signed for TEMP. -/
def channelFields (b : List Byte) : ChannelFields :=
  let kind := Config.channelKindOf (byteAt b 2)
  let bound (o : Nat) : Int := if kind = some .temp then s16 b o else u16 b o
  { channel := u8 b 0, enabled := flagAt b 1, kind, curve := Config.curveOf (byteAt b 3), fullScale := u16 b 4
    depth := u8 b 6, winLow := bound 7, winHigh := bound 9 }

/-- A list of `count` numbers from an offset on. -/
def numbersAt (b : List Byte) (o count : Nat) : List Nat := ((b.drop o).take count).map BitVec.toNat

/-- ELECTRODE_SETUP's fields for an electrode. -/
def electrodeFields (b : List Byte) : ElectrodeFields :=
  { target := u8 b 0, enabled := enabledOf (byteAt b 1), near := u16 b 2, contact := u16 b 4, hyst := u16 b 6 }

/-- ZONE_SETUP's fields. -/
def zoneFields (b : List Byte) : ZoneFields :=
  { zone := u8 b 0, enabled := flagAt b 1, source := Config.zoneSourceOf (byteAt b 2), fanMap := byteAt b 3
    channels := numbersAt b 5 (u8 b 4) }

/-- SOURCE_SETUP's fields. -/
def sourceFields (b : List Byte) : SourceFields :=
  { rating := u24 b 0, discharge := u24 b 3, lowLimit := u24 b 6, batteryChannel := u8 b 9, lowThreshold := u16 b 10
    criticalThreshold := u16 b 12, hysteresis := u16 b 14, pair := present (flagAt b 16) (u8 b 17, u8 b 18) }

/-- LINE_SETUP's fields. -/
def lineFields (b : List Byte) : LineFields :=
  { line := u8 b 0, enabled := enabledOf (byteAt b 1), polarity := Config.polarityOf (byteAt b 2)
    drive := Config.driveOf (byteAt b 3) }

/-- The domain kind a byte names (section 10.8). -/
def domainKindOf : Nat → Option DomainKind
  | 0 => some .processor
  | 1 => some .addIn
  | 2 => some .memory
  | 3 => some .display
  | 4 => some .storage
  | 5 => some .charger
  | _ => none

/-- DOMAIN_DECLARE's fields. -/
def domainFields (b : List Byte) : DomainFields :=
  let flags := byteAt b 3
  { slot := u8 b 0, kind := domainKindOf (u8 b 1), priority := u8 b 2, floor := u24 b 4, ceiling := u24 b 7
    rail := u16 b 10, sense := present (flags.getLsbD 0) (u8 b 12), volt := present (flags.getLsbD 1) (u8 b 13)
    line := present (flags.getLsbD 2) (u8 b 14), reservedFlags := flags.toNat / 8, labelLength := u8 b 15
    labelChars := (b.drop 16).take 8 }

/-- A 16-bit mask. -/
def wordAt (b : List Byte) (o : Nat) : Word := BitVec.ofNat 16 (u16 b o)

/-! ## The check byte (R172) -/

/-- One shift of the check register. -/
def crcShift (c : Byte) : Byte := if c.msb then (c <<< 1) ^^^ 0x07 else c <<< 1

/-- One byte taken into the check register. -/
def crcByte (c x : Byte) : Byte :=
  crcShift <| crcShift <| crcShift <| crcShift <| crcShift <| crcShift <| crcShift <| crcShift <| c ^^^ x

/-- The CRC-8 of a run of bytes, from FFh. -/
def crc8 (l : List Byte) : Byte := l.foldl crcByte 0xFF

/-! ## Lengths (R173, section 10.8) -/

/-- The body length a request kind requires, given the body (its count where the length follows from one); `none` for a kind
that is not assigned. -/
def requiredLength (kind : Byte) (b : List Byte) : Option Nat :=
  match kind.toNat with
  | 0x01 | 0x02 | 0x03 | 0x04 | 0x05 | 0x06 => some 0
  | 0x08 => some 33
  | 0x09 => some 56
  | 0x0A => some 1
  | 0x10 => some 11
  | 0x11 => some (1 + u8 b 0)
  | 0x12 => some 2
  | 0x13 => some 6
  | 0x18 => some 8
  | 0x19 => some 2
  | 0x1A => some 0
  | 0x20 => some (5 + u8 b 4)
  | 0x21 => some 4
  | 0x22 => some 2
  | 0x28 => some 19
  | 0x29 => some 4
  | 0x2A => some 2
  | 0x2B => some 4
  | 0x30 => some 24
  | 0x31 => some 1
  | 0x32 => some 4
  | 0x33 => some 1
  | 0x34 => some 2
  | 0x35 => some 2
  | 0x38 => some 4
  | 0x39 => some 0
  | 0x3C => some 4
  | 0x3D => some 1
  | 0x3E => some 0
  | 0x3F => some 5
  | _ => none

end Sys2Proof.Machine
end

