-- ==== Sys2Proof/Machine/Flags.lean ====
section
/-! DEFINITION. Everything the part shows that follows from its records: channel values, line levels and pins, derate claims,
RDY, ATN, the PWM outputs, the two byte layouts section 10.8 gives, the frame being sent, and its bits on TXD. -/

namespace Sys2Proof.Machine

/-! ## Channels -/

/-- The mean of a history, rounded toward zero; absent when it is empty (R18, R23). -/
def meanOf (l : List Int) : Option Int := if l.isEmpty then none else some (l.sum.tdiv l.length)

/-- A channel's value (R18). -/
def Channel.value (c : Channel) : Option Int := meanOf c.history

/-- The counts at the nine points of a thermistor curve are 512 apart but for the last (R22). -/
def curvePoint (k : Nat) : Nat := if k = 8 then 4095 else 512 * k

/-- The temperatures of the three curves at their points (R22). -/
def curveTemp : Curve → Nat → Int
  | .a, k => [1500, 1050, 800, 620, 470, 330, 180, 0, -400].getD k (-400)
  | .b, k => [1500, 1180, 920, 730, 560, 400, 230, 20, -400].getD k (-400)
  | .c, k => [1500, 960, 710, 540, 400, 270, 130, -50, -400].getD k (-400)

/-- The temperature of a curve at a corrected count, interpolated (R22). -/
def curveAt (v : Curve) (c : Nat) : Int :=
  let k := min (c / 512) 7
  let c1 := curvePoint k
  let t1 := curveTemp v k
  t1 + (((c - c1 : Nat) : Int) * (curveTemp v (k + 1) - t1)).tdiv ((curvePoint (k + 1) - c1 : Nat) : Int)

/-! ## Clamp lines -/

/-- An enabled line is active exactly when its cause set is non-empty; a disabled one is inactive (R152). -/
def Line.active (l : Line) : Bool := l.enabled && !l.causes.isEmpty

/-- What a clamp pin shows. -/
inductive PinLevel where
  | low | high | released
deriving DecidableEq, Repr

/-- The pin follows the active level, the polarity and the drive (R152). -/
def Line.pin (l : Line) : PinLevel :=
  match l.polarity, l.drive, l.active with
  | .activeLow, .openDrain, true => .low
  | .activeLow, .openDrain, false => .released
  | .activeLow, .pushPull, true => .low
  | .activeLow, .pushPull, false => .high
  | .activeHigh, .openDrain, true => .released
  | .activeHigh, .openDrain, false => .low
  | .activeHigh, .pushPull, true => .high
  | .activeHigh, .pushPull, false => .low

/-! ## Zones -/

/-- HOT, CRITICAL or FAULTED: the severity and the fans' lift (R91, R160). -/
def ZoneState.severe : ZoneState → Bool
  | .hot => true
  | .critical => true
  | .faulted => true
  | _ => false

/-- The position of a level; OFF and FAULTED are not levels (R80). -/
def ZoneState.level : ZoneState → Nat
  | .warm => 1
  | .hot => 2
  | .critical => 3
  | _ => 0

/-- The level at a position. -/
def ZoneState.ofLevel : Nat → ZoneState
  | 0 => .normal
  | 1 => .warm
  | 2 => .hot
  | _ => .critical

/-! ## Fans -/

/-- The derate claim is set while the fan is STALLED, or SPINUP with kind RETRY (R157). -/
def FanState.claim : FanState → Bool
  | .stalled => true
  | .spinup .retry _ => true
  | _ => false

/-- Two fan states are the same state; kind and phase are fields beside it (R157, R165). -/
def FanState.same : FanState → FanState → Bool
  | .off, .off => true
  | .stopped, .stopped => true
  | .spinup _ _, .spinup _ _ => true
  | .running, .running => true
  | .stalled, .stalled => true
  | _, _ => false

/-- A PWM output at a moment of the running period: high for the first duty x 40 / 100 us (R158). `late` counts in us from
the start of the period. -/
def pwmHigh (duty late : Nat) : Bool := late * 100 < duty * 40

/-- The output FPWMn (R158). -/
def State.pwmOut (s : State) (n : Fin 2) : Bool := pwmHigh (s.fnc.pwmDuty.get n) ((s.now - s.fnc.pwmStart) % 40)

/-! ## Pins and RESETN -/

/-- The output FPWMn with the level of RESETN: low while RESETN is low (R158). -/
def State.fanPin (resetn : Level) (n : Fin 2) (s : State) : Bool := resetn == .high && s.pwmOut n

/-- The pin CLn with the level of RESETN: released while RESETN is low (R152). -/
def State.clampPin (resetn : Level) (n : Fin 6) (s : State) : PinLevel :=
  match resetn with
  | .low => .released
  | .high => (s.clu.get n).pin

/-! ## The link's lines -/

/-- RDY is asserted while at least one request slot is free (R174). -/
def State.rdy (s : State) : Bool := s.slk.slots.length < 2

/-- ATN is asserted while the notice queue holds an entry (R177). -/
def State.atn (s : State) : Bool := !s.slk.notices.isEmpty

/-- Nothing is being sent (R175). -/
def State.txdIdle (s : State) : Bool := s.slk.tx == .idle

/-! ## Byte layouts (section 10.8) -/

/-- `n` bytes of a number, little-endian. -/
def leBytes : Nat → Nat → List Byte
  | 0, _ => []
  | n + 1, x => BitVec.ofNat 8 x :: leBytes n (x / 256)

/-- A byte whose bits are the flags of a list, bit 0 first. -/
def bitsOf : List Bool → Nat
  | [] => 0
  | b :: l => (if b then 1 else 0) + 2 * bitsOf l

/-- The placement codes (section 4.2). -/
def Placement.code : Placement → Nat
  | .unsettled => 0
  | .settled .desk => 1
  | .settled .lap => 2
  | .settled .bag => 3
  | .settled .moving => 4

/-- The mode codes. -/
def modeCode : Mode → Nat
  | .prepare => 0
  | .locked => 1
  | .running => 2
  | .dozing => 3

/-- The battery codes. -/
def Battery.code : Battery → Nat
  | .normal => 0
  | .low => 1
  | .critical => 2

/-- The grant state codes. -/
def GrantState.code : GrantState → Nat
  | .unmanaged => 0
  | .settled => 1
  | .revoking => 2
  | .clamped => 3
  | .overdue => 4

/-- The reason codes of the GRANT notice. -/
def GrantReason.code : GrantReason → Nat
  | .raise => 0
  | .lower => 1
  | .round => 2
  | .ceiling => 3

/-- The ten round causes in the order of their bits. -/
def allRoundCauses : List RoundCause :=
  [.placement, .setLoad, .thermal, .source, .burst, .fan, .sysCap, .permit, .preempt, .ceiling]

/-- The five clamp causes in a fixed order. -/
def allClampCauses : List ClampCause := [.overdue, .thermal, .source, .guard, .forced]

/-- The status codes (R180). -/
def Status.code : Status → Nat
  | .ok => 0x00
  | .accepted => 0x01
  | .trimmed => 0x02
  | .badLength => 0x10
  | .badField => 0x11
  | .unknownKind => 0x12
  | .notReady => 0x13
  | .locked => 0x14
  | .busy => 0x15
  | .noSuch => 0x16
  | .conflict => 0x17
  | .notPermitted => 0x18
  | .outOfLimits => 0x19
  | .abandoned => 0x1A

/-- The 27 bytes of a STATUS reply's body. -/
def StatusReport.bytes (r : StatusReport) : List Byte :=
  let candidate := match r.candidate with
    | some p => Placement.code (.settled p)
    | none => 0
  leBytes 1 Status.ok.code ++ leBytes 1 (modeCode r.mode) ++ leBytes 1 (Placement.code r.placement) ++
  leBytes 1 (bitsOf [r.pinned, r.candidate.isSome, r.roundOpen, r.armed, r.adapterPresent, r.dropped, r.effective.isSome]) ++
  leBytes 1 candidate ++ leBytes 3 (r.effective.getD 0) ++ leBytes 3 (r.spare.getD 0) ++ leBytes 3 r.reservation ++
  leBytes 3 r.sumGrants ++ leBytes 3 r.floorSum ++ leBytes 1 r.roundNumber ++ leBytes 3 r.credit ++
  leBytes 1 r.battery.code ++ leBytes 2 (bitsOf r.detected)

/-- The 14 bytes of a GRANT notice's body; other notices are not laid out byte by byte. -/
def Notice.grantBytes : Notice → Option (List Byte)
  | .grant slot amount state effCeiling reason causes remaining =>
      some (leBytes 1 slot ++ leBytes 3 amount ++ leBytes 1 state.code ++ leBytes 3 effCeiling ++ leBytes 1 reason.code ++
        leBytes 2 (bitsOf (allRoundCauses.map fun c => causes.contains c)) ++ leBytes 1 (bitsOf [remaining.isSome]) ++
        leBytes 2 (remaining.getD 0))
  | _ => none

/-- Kind, tag and first body byte of a frame that the part sends. -/
structure FrameHead where
  kind : Byte
  tag : Byte
  first : Byte
deriving DecidableEq, Repr

/-- A notice frame carries tag 00h and its subject as its first body byte (R175). -/
def Notice.head (n : Notice) : FrameHead := { kind := BitVec.ofNat 8 n.kind, tag := 0, first := BitVec.ofNat 8 n.subject }

/-- A reply frame carries its kind, the request's tag, and its status as its first body byte (R173). -/
def Reply.head (r : Reply) : FrameHead := { kind := r.kind, tag := r.tag, first := BitVec.ofNat 8 r.answer.status.code }

/-- The head of the frame being sent. -/
def State.sentHead (s : State) : Option FrameHead :=
  match s.slk.tx with
  | .idle => none
  | .sendingReply => (s.slk.slots.find? (·.sending)).bind fun r => r.reply.map Reply.head
  | .sendingNotice n => some n.head

/-- A whole frame: lead byte, length, kind, tag, body and check byte (section 10.8, R172). -/
def frameBytes (kind tag : Byte) (body : List Byte) : List Byte :=
  let inner := leBytes 1 (body.length + 2) ++ [kind, tag] ++ body
  [0xC3] ++ inner ++ [crc8 inner]

/-- The body of a reply: its status, then its content (section 10.8; log 30 for a content that is not laid out). A body has at
most 60 bytes. -/
def Reply.bodyBytes (r : Reply) : List Byte :=
  BitVec.ofNat 8 r.answer.status.code :: match r.answer.body with
    | .empty => []
    | .status report => report.bytes.tail
    | _ => (Config.bodyRest (r.kind, r.answer)).take 59

/-- The body of a notice: its subject, then its content (section 10.8; log 30). -/
def Notice.bodyBytes (n : Notice) : List Byte :=
  n.grantBytes.getD (BitVec.ofNat 8 n.subject :: (Config.bodyRest n).take 59)

/-- The frame of a reply (R173). -/
def Reply.frame (r : Reply) : List Byte := frameBytes r.kind r.tag r.bodyBytes

/-- The frame of a notice (R175). -/
def Notice.frame (n : Notice) : List Byte := frameBytes (BitVec.ofNat 8 n.kind) 0x00 n.bodyBytes

/-- The bytes of the frame being sent. -/
def State.sentFrame (s : State) : Option (List Byte) :=
  match s.slk.tx with
  | .idle => none
  | .sendingReply => (s.slk.slots.find? (·.sending)).bind fun r => r.reply.map Reply.frame
  | .sendingNotice n => some n.frame

/-! ## TXD (R170, R175, R178) -/

/-- The levels of a byte on the line, one per bit time: a low start bit, eight data bits, least significant first, and a high
stop bit; there is no parity bit (R170). -/
def byteLevels (b : Byte) : List Level :=
  .low :: (List.range 8).map (fun k => if b.getLsbD k then .high else .low) ++ [.high]

/-- How many whole bit times have passed since a time in us, at 115,200 bit/s (R170). -/
def bitsSince (start now : Nat) : Nat := (now - start) * 115200 / 1000000

/-- The levels of the frame being sent, byte after byte with no gap between them (R175); a frame that a break has cut ends
with the byte that was being sent at the break (R178, log 10). -/
def State.txdLevels (s : State) : List Level :=
  let levels := (s.sentFrame.getD []).flatMap byteLevels
  match s.slk.txStart, s.slk.cut with
  | some start, some at_ => levels.take (10 * (bitsSince start at_ / 10 + 1))
  | _, _ => levels

/-- The level of TXD, which idles high (R175). -/
def State.txd (s : State) : Level :=
  match s.slk.txStart with
  | none => .high
  | some start => s.txdLevels[bitsSince start s.now]?.getD .high

end Sys2Proof.Machine
end

