-- ==== Sys2Proof/Machine/Clamps.lean ====
section
/-! DEFINITION. The Clamp Unit (sections 8.6, 8.7): causes on the lines, CLAMP_FORCE and LINE_SETUP. -/

namespace Sys2Proof.Machine

/-- A cause added to a set; one already present stays once (R153). -/
def withCause (l : List ClampCause) (c : ClampCause) : List ClampCause :=
  allClampCauses.filter fun d => l.contains d || d == c

/-- A cause taken out of a set (R153). -/
def withoutCause (l : List ClampCause) (c : ClampCause) : List ClampCause := l.filter (· != c)

/-- A line's record is replaced; a change of its active level posts a CLAMP notice (R152). -/
def setLine (n : Fin 6) (l : Line) (s : State) : State :=
  let t := { s with clu := s.clu.set n l }
  if (s.clu.get n).active = l.active then t else t.post (.clamp n l.active l.causes)

/-- A claimant adds its cause to a line (R153). -/
def addCause (c : ClampCause) (n : Fin 6) (s : State) : State :=
  let l := s.clu.get n
  setLine n { l with causes := withCause l.causes c } s

/-- A claimant withdraws its cause from a line (R153). -/
def withdrawCause (c : ClampCause) (n : Fin 6) (s : State) : State :=
  let l := s.clu.get n
  setLine n { l with causes := withoutCause l.causes c } s

/-- A cause added to several lines. -/
def addCauseTo (lines : List (Fin 6)) (c : ClampCause) (s : State) : State := lines.foldl (fun t n => addCause c n t) s

/-- A cause withdrawn from several lines. -/
def withdrawCauseFrom (lines : List (Fin 6)) (c : ClampCause) (s : State) : State :=
  lines.foldl (fun t n => withdrawCause c n t) s

/-- The assigned domain of a line (R151); it bears on no level. -/
def assignLine (n : Fin 6) (d : Option (Fin 6)) (s : State) : State :=
  { s with clu := modifyRow s.clu n fun l => { l with assigned := d } }

/-- RESTART at the Clamp Unit: every cause set is emptied and every assignment cleared, with no notice (R156). -/
def restartLines (s : State) : State :=
  { s with clu := tabulate fun n => { s.clu.get n with causes := [], assigned := none } }

/-! ## CLAMP_FORCE and LINE_SETUP -/

/-- The lines a mask names: bit n is CLn (log 6). -/
def maskLines (m : Byte) : List (Fin 6) := six.filter fun n => m.getLsbD n

/-- The six lines as the CLAMP_FORCE reply shows them (R155). -/
def lineEntries (s : State) : List LineEntry :=
  six.map fun n => let l := s.clu.get n; { enabled := l.enabled, active := l.active, causes := l.causes }

/-- CLAMP_FORCE with an action (R155); no action stands for one that is neither SET nor CLEAR. -/
def clampForce (mask : Byte) (action : Option ClampAction) (s : State) : State × Answer :=
  if 64 ≤ mask.toNat then refuse .badField s
  else match action with
    | none => refuse .badField s
    | some .set =>
      let t := addCauseTo (maskLines mask) .forced s
      (t, { status := .ok, body := .lines (lineEntries t) })
    | some .clear =>
      let t := withdrawCauseFrom (maskLines mask) .forced s
      (t, { status := .ok, body := .lines (lineEntries t) })

/-- LINE_SETUP (R154). Where both refusals apply the line is judged first (log 41). -/
def lineSetup (f : LineFields) (s : State) : State × Answer :=
  if s.managed then refuse .notReady s
  else match index? 6 f.line with
    | none => refuse .noSuch s
    | some n =>
      match f.enabled, f.polarity, f.drive with
      | some e, some p, some d =>
        (setLine n { s.clu.get n with enabled := e, polarity := p, drive := d } s, .only .ok)
      | _, _, _ => refuse .badField s

/-- CLAMP_FORCE_SET. -/
def execClampForceSet (dt : Nat) (tag mask : Byte) (s : State) : Host.Outcome State Fault Refusal :=
  request dt 0x2A tag (clampForce mask (some .set)) s

/-- CLAMP_FORCE_CLEAR. -/
def execClampForceClear (dt : Nat) (tag mask : Byte) (s : State) : Host.Outcome State Fault Refusal :=
  request dt 0x2A tag (clampForce mask (some .clear)) s

/-- LINE_SETUP. -/
def execLineSetup (dt : Nat) (tag : Byte) (f : LineFields) (s : State) : Host.Outcome State Fault Refusal :=
  request dt 0x2B tag (lineSetup f) s

end Sys2Proof.Machine
end

