-- ==== Sys2Proof/Machine/Allocator.lean ====
section
/-! DEFINITION. The Allocator's shared operations (chapters 6, 7, 8): ceilings and wanted values, GRANT notices, the raise
queue, B, lowering, rounds, serving, preemption, the close of a round, and the recomputation they make up. -/

namespace Sys2Proof.Machine

/-! ## Sums and views (R107, R112, R113) -/

/-- The sum of a value over the six slots. -/
def sumSix (f : Fin 6 → Nat) : Nat := f 0 + f 1 + f 2 + f 3 + f 4 + f 5

/-- The sum of a value over the declared domains. -/
def Alc.sumDomains (a : Alc) (f : Domain → Nat) : Nat :=
  sumSix fun i => match a.domains.get i with
    | some d => f d
    | none => 0

/-- A domain's grant, 0 while it has none. -/
def Domain.held (d : Domain) : Nat := d.grant.getD 0

/-- The floor sum (R118). -/
def Alc.floorSum (a : Alc) : Nat := a.sumDomains Domain.floor

/-- The sum of the grants. -/
def Alc.grantSum (a : Alc) : Nat := a.sumDomains Domain.held

/-- What grants and the reservation take up. -/
def Alc.taken (a : Alc) : Nat := a.grantSum + a.round.reservation

/-- Spare (R113). -/
def Alc.spare (a : Alc) : Nat := a.budget.effective.getD 0 - a.taken

/-- Spare as it is reported: absent outside RUNNING and DOZING (R107). -/
def State.spare (s : State) : Option Nat := if s.managed then some s.alc.spare else none

/-- B as it is reported. -/
def State.effective (s : State) : Option Nat := if s.managed then s.alc.budget.effective else none

/-! ## Domains -/

/-- A slot's record replaced. -/
def State.setDomain (i : Fin 6) (d : Option Domain) (s : State) : State :=
  { s with alc := { s.alc with domains := s.alc.domains.set i d } }

/-- The effective ceiling of a domain (R120). -/
def Domain.ceilingNow (d : Domain) (adapterPresent : Bool) (chargeCap : Nat) : Nat :=
  match d.permit with
  | .off => d.floor
  | .on => if d.kind = .charger then (if adapterPresent then min d.ceiling chargeCap else 0) else d.ceiling

/-- The effective ceiling from the budget's adapter presence and the active set's charge cap (R120). -/
def State.ceilingOf (s : State) (d : Domain) : Nat := d.ceilingNow s.alc.budget.adapterPresent s.active.chargeCap

/-- The wanted value (R120): the request or the floor, within the effective ceiling and never below the floor. -/
def Domain.wantedIn (d : Domain) (ceiling : Nat) : Nat := max d.floor (min (d.request.getD d.floor) ceiling)

/-- The wanted value, absent while there is no effective ceiling. -/
def Domain.wanted? (d : Domain) : Option Nat := d.effCeiling.map d.wantedIn

/-- The wanted value of a managed domain. -/
def Domain.wanted (d : Domain) : Nat := d.wanted?.getD 0

/-- What a domain lacks. -/
def Domain.shortfall (d : Domain) : Nat := d.wanted - d.held

/-- A counter that stays at 65,535 (R118). -/
def bump (n : Nat) : Nat := min 65535 (n + 1)

/-! ## GRANT notices (R135, R150) -/

/-- The domain stands in the affected list. -/
def Round.lists (r : Round) (i : Fin 6) : Bool := r.affected.any (·.slot == i)

/-- The cause set a GRANT notice carries: the round's when the reason is ROUND and the domain is listed, else empty. -/
def Round.causesFor (r : Round) (i : Fin 6) (reason : GrantReason) : List RoundCause :=
  if reason = .round ∧ r.lists i then r.causes else []

/-- A GRANT notice for a declared domain as it stands (R135). -/
def postGrant (reason : GrantReason) (i : Fin 6) (s : State) : State :=
  match s.alc.domains.get i with
  | none => s
  | some d =>
    s.post (.grant i d.held d.state (d.effCeiling.getD 0) reason (s.alc.round.causesFor i reason)
      (if d.state = .revoking then s.timerLeft d.deadline else none))

/-! ## The raise queue (R130) -/

/-- The order of entries: priority, then time of entry, then slot. Times of entry are whole ms (R130), so entries made at
different moments of one ms stand in slot order (the model's choice, log 9). -/
def QueueEntry.before (a b : QueueEntry) : Bool :=
  a.priority < b.priority || (a.priority == b.priority && (a.time < b.time || (a.time == b.time && a.slot < b.slot)))

/-- An entry takes its place. -/
def enqueue (e : QueueEntry) : List QueueEntry → List QueueEntry
  | [] => [e]
  | a :: l => if e.before a then e :: a :: l else a :: enqueue e l

/-- The queue replaced. -/
def State.setQueue (q : List QueueEntry) (s : State) : State := { s with alc := { s.alc with queue := q } }

/-- The queue without a slot's entry. -/
def dropEntry (i : Fin 6) (q : List QueueEntry) : List QueueEntry := q.filter (·.slot != i)

/-- A domain's entry is kept in step with its wanted value and grant (R130). Its time of entry is the present one in whole ms,
rounded down (log 9). -/
def syncQueue (i : Fin 6) (s : State) : State :=
  match s.alc.domains.get i with
  | none => s.setQueue (dropEntry i s.alc.queue)
  | some d =>
    if d.permit = .on ∧ d.held < d.wanted then
      if s.alc.queue.any (·.slot == i) then s
      else s.setQueue (enqueue { slot := i, priority := d.priority, time := s.nowMs } s.alc.queue)
    else s.setQueue (dropEntry i s.alc.queue)

/-! ## The reservation -/

/-- The reservation and the beneficiary replaced. -/
def State.reserve (amount : Nat) (holder : Option (Fin 6)) (s : State) : State :=
  { s with alc := { s.alc with round := { s.alc.round with reservation := amount, beneficiary := holder } } }

/-- The beneficiary's wanted value or permit has changed: the reservation is cut or returned (R134). -/
def adjustReservation (i : Fin 6) (s : State) : State :=
  if s.alc.round.beneficiary = some i then
    match s.alc.domains.get i with
    | none => s.reserve 0 none
    | some d =>
      if d.shortfall = 0 then s.reserve 0 none else s.reserve (min s.alc.round.reservation d.shortfall) (some i)
  else s

/-! ## B (R112) -/

/-- The least of two values, where the second may be absent. -/
def minOpt (a : Nat) : Option Nat → Nat
  | none => a
  | some b => min a b

/-- R, the sum of the zone reductions. -/
def Budget.reduction (b : Budget) : Nat := sumSix b.reductions.get

/-- D, the sum of the chassis stall derates of the fans whose derate claim is set. -/
def State.derate (s : State) : Nat :=
  match s.lst.chassis with
  | none => 0
  | some c => (if s.alc.budget.derates.get 0 then c.stallDerate.get 0 else 0) +
      (if s.alc.budget.derates.get 1 then c.stallDerate.get 1 else 0)

/-- A severity holds B at the floor sum. -/
def Budget.held (b : Budget) : Bool := b.sourceSeverity || six.any b.severities.get

/-- The cap in force. Within a hand-over of a new active set it is the new set's for every recomputation, also for one that
a zone or a fan calls for before the Allocator's turn (log 34). -/
def State.cap (s : State) : Nat := if s.alc.budget.armed then s.active.burst else s.active.sustained

/-- The least of the cap, the source limit and the system cap. -/
def State.base (s : State) : Nat := minOpt (minOpt s.cap s.alc.budget.sourceLimit) s.alc.budget.systemCap

/-- The effective budget formed from its inputs (R112). -/
def State.formB (s : State) : Nat :=
  if s.alc.budget.held then s.alc.floorSum
  else stepDown (max s.alc.floorSum (s.base - s.alc.budget.reduction - s.derate))

/-- The effective budget replaced. -/
def State.setB (b : Option Nat) (s : State) : State :=
  { s with alc := { s.alc with budget := { s.alc.budget with effective := b } } }

/-! ## Lowering (R140 to R143) -/

/-- The grants of the six slots. -/
def Alc.grants (a : Alc) : Vector Nat 6 :=
  tabulate fun i => match a.domains.get i with
    | some d => d.held
    | none => 0

/-- The floor of a slot, 0 when it is EMPTY. -/
def Alc.floorOf (a : Alc) (i : Fin 6) : Nat :=
  match a.domains.get i with
  | some d => d.floor
  | none => 0

/-- The slots of one priority, highest slot number first. -/
def Alc.ofPriority (a : Alc) (p : Nat) : List (Fin 6) :=
  six.reverse.filter fun i => match a.domains.get i with
    | some d => d.priority == p
    | none => false

/-- The order of taking (R133, R140): priority 3 first, within one priority the highest slot first; only priorities above
`least` are taken from. -/
def Alc.takeOrder (a : Alc) (least : Nat) : List (Fin 6) :=
  ([3, 2, 1, 0].filter (least ≤ ·)).flatMap a.ofPriority

/-- A need is taken from slots in order, each down to its floor or by what is left of the need. -/
def takeFrom (floorOf : Fin 6 → Nat) : List (Fin 6) → Nat → Vector Nat 6 → Vector Nat 6
  | [], _, g => g
  | i :: l, need, g =>
    let part := min (g.get i - floorOf i) need
    takeFrom floorOf l (need - part) (g.set i (g.get i - part))

/-- The slots whose grant exceeds their effective ceiling, in ascending order. -/
def Alc.overCeiling (a : Alc) : List (Fin 6) :=
  six.filter fun i => match a.domains.get i with
    | some d => d.effCeiling.getD d.held < d.held
    | none => false

/-- Each grant held to its effective ceiling. -/
def Alc.trimmed (a : Alc) : Vector Nat 6 :=
  tabulate fun i => match a.domains.get i with
    | some d => min d.held (d.effCeiling.getD d.held)
    | none => 0

/-- The sum of six grants. -/
def sumGrants (g : Vector Nat 6) : Nat := sumSix g.get

/-- The number of the next round (R141). -/
def nextRound (n : Nat) : Nat := if n = 255 then 1 else n + 1

/-- A cause joins a cause set, once. -/
def withRoundCause (l : List RoundCause) (c : RoundCause) : List RoundCause :=
  allRoundCauses.filter fun d => l.contains d || d == c

/-- The round a lowering step opens or folds into (R141, R143). -/
def Round.join (c : RoundCause) (r : Round) : Round :=
  if r.opened then { r with causes := withRoundCause r.causes c }
  else { r with number := nextRound r.number, opened := true, causes := [c], affected := [] }

/-- The step opens a round or folds into the open one; a step that lowers nothing opens none. -/
def joinRound (c : RoundCause) (lowersNone : Bool) (s : State) : State :=
  if lowersNone && !s.alc.round.opened then s
  else { s with alc := { s.alc with round := s.alc.round.join c } }

/-- The deadline a cause gives from now on (R142). -/
def State.deadlineFor (c : RoundCause) (s : State) : Nat :=
  match c, s.lst.chassis with
  | .source, some l => s.now + ms l.sourceDeadline
  | _, _ => s.now + ms s.active.compliance

/-- A domain's deadline when it is lowered: never later than one already running (R142). -/
def Domain.newDeadline (d : Domain) (fresh : Nat) : Nat :=
  match d.state, d.deadline with
  | .revoking, some t => min t fresh
  | _, _ => fresh

/-- A lowered domain's record (R141). -/
def Domain.lowered (d : Domain) (target deadline : Nat) (listed : Bool) : Domain :=
  { d with grant := some target, state := .revoking, deadline := some (d.newDeadline deadline), holdStart := none
           overdueSince := none, revocations := if listed then d.revocations else bump d.revocations }

/-- An entry at the end of the affected list, for a domain that has none. -/
def Round.list (i : Fin 6) (old : Nat) (r : Round) : Round :=
  if r.lists i then r else { r with affected := r.affected ++ [{ slot := i, oldGrant := old }] }

/-- The affected list gains a domain. -/
def listAffected (i : Fin 6) (old : Nat) (s : State) : State :=
  { s with alc := { s.alc with round := s.alc.round.list i old } }

/-- One domain is lowered to its target within a round (R141). -/
def lowerOne (c : RoundCause) (target : Nat) (i : Fin 6) (s : State) : State :=
  match s.alc.domains.get i with
  | none => s
  | some d =>
    postGrant .round i <| syncQueue i <| listAffected i d.held <|
      s.setDomain i (some (d.lowered target (s.deadlineFor c) (s.alc.round.lists i)))

/-- The domains of a plan are lowered in order, in the round the step opens or folds into. -/
def lowerAll (c : RoundCause) (order : List (Fin 6)) (targets : Vector Nat 6) (s : State) : State :=
  order.foldl (fun t i => lowerOne c (targets.get i) i t) (joinRound c order.isEmpty s)

/-- The grants a reduction leads to (R140): the trims, then what remains of the need. -/
def Alc.reducedGrants (a : Alc) (b : Nat) : Vector Nat 6 :=
  let afterTrim := a.trimmed
  let need := a.taken - b - a.round.reservation - (a.grantSum - sumGrants afterTrim)
  takeFrom a.floorOf (a.takeOrder 0) need afterTrim

/-- The domains a reduction lowers, in the order of lowering: the trims, then the others in the order of taking. -/
def Alc.reductionOrder (a : Alc) (targets : Vector Nat 6) : List (Fin 6) :=
  a.overCeiling ++ (a.takeOrder 0).filter fun i => !a.overCeiling.contains i && targets.get i < a.grants.get i

/-- A reduction (R140, R143): the reservation is cancelled whole, then domains are lowered. Log 13. -/
def reduce (c : RoundCause) (s : State) : State :=
  let targets := s.alc.reducedGrants (s.alc.budget.effective.getD 0)
  let order := s.alc.reductionOrder targets
  lowerAll c order targets (s.reserve 0 none)

/-! ## Serving and preemption (R131 to R133) -/

/-- A domain's grant raised, with its notice; its queue entry follows (R130, R132). -/
def raiseGrant (amount : Nat) (i : Fin 6) (s : State) : State :=
  match s.alc.domains.get i with
  | none => s
  | some d =>
    syncQueue i <| postGrant .raise i <| s.setDomain i (some { d with grant := some (d.held + amount) })

/-- Serving from the head (R132); the first argument bounds the heads served. -/
def serveHeads : Nat → State → State
  | 0, s => s
  | n + 1, s =>
    match s.alc.queue with
    | [] => s
    | e :: _ =>
      match s.alc.domains.get e.slot with
      | none => s
      | some d =>
        let amount := min s.alc.spare d.shortfall
        let t := if amount = 0 then s else raiseGrant amount e.slot s
        if amount = d.shortfall then serveHeads n t else t

/-- The power that a preemption for priority `p` can take (R133). -/
def Alc.takeable (a : Alc) (p : Nat) : Nat :=
  a.sumDomains fun d => if p < d.priority then d.held - d.floor else 0

/-- A preemption for an unsatisfied head (R133). -/
def preemptFor (i : Fin 6) (d : Domain) (s : State) : State :=
  let takeable := s.alc.takeable d.priority
  if d.shortfall = 0 ∨ takeable = 0 then s
  else
    let reservation := min d.shortfall (s.alc.spare + takeable)
    let targets := takeFrom s.alc.floorOf (s.alc.takeOrder (d.priority + 1)) (reservation - s.alc.spare) s.alc.grants
    let order := (s.alc.takeOrder (d.priority + 1)).filter fun j => targets.get j < s.alc.grants.get j
    lowerAll .preempt order targets ((joinRound .preempt false s).reserve reservation (some i))

/-- A preemption is weighed for the head of the queue (R133). -/
def weighPreemption (s : State) : State :=
  match s.alc.queue with
  | [] => s
  | e :: _ =>
    match s.alc.domains.get e.slot with
    | none => s
    | some d => preemptFor e.slot d s

/-- The raise queue is served, and a preemption weighed where serving stops (R131 to R133). -/
def serve (s : State) : State :=
  if s.alc.round.opened then s else weighPreemption (serveHeads (s.alc.queue.length + 1) s)

/-! ## Recomputation (R114, R115) -/

/-- What follows from B as it stands: a reduction, a serving, or nothing (R115). -/
def settleBudget (c : RoundCause) (s : State) : State :=
  if s.alc.budget.effective.getD 0 < s.alc.taken ∨ s.alc.overCeiling ≠ [] then reduce c s
  else if 0 < s.alc.spare then serve s
  else s

/-- A recomputation with its cause, in RUNNING and DOZING (R114, R115). -/
def recompute (c : RoundCause) (s : State) : State :=
  if s.managed then settleBudget c (s.setB (some s.formB)) else s

/-- One domain's effective ceiling is formed anew (R120, R130, R134, R135). -/
def reformCeiling (i : Fin 6) (s : State) : State :=
  match s.alc.domains.get i with
  | none => s
  | some d =>
    let c := s.ceilingOf d
    if d.effCeiling = some c then s
    else
      let t := syncQueue i <| adjustReservation i <| s.setDomain i (some { d with effCeiling := some c })
      if d.held ≤ c then postGrant .ceiling i t else t

/-- Every effective ceiling is formed anew. -/
def reformCeilings (s : State) : State := six.foldl (fun t i => reformCeiling i t) s

/-- The wanted value in a slot, 0 when it is EMPTY. -/
def Alc.wantedAt (a : Alc) (i : Fin 6) : Nat :=
  match a.domains.get i with
  | some d => d.wanted
  | none => 0

/-- A queue entry has been created, or updated to a higher wanted value, between two states (R131). -/
def Alc.entryRose (before after : Alc) (i : Fin 6) : Bool :=
  after.queue.any (·.slot == i) && (!before.queue.any (·.slot == i) || before.wantedAt i < after.wantedAt i)

/-- A recomputation whose input bears on ceilings: they are formed anew within it (R114, R120). An entry this has created or
raised is an event that serves the queue, even when spare is 0 (R131). A beneficiary's reservation is cut or returned (R134)
before the need of a reduction is formed (R140; log 36). -/
def recomputeCeilings (c : RoundCause) (s : State) : State :=
  let t := reformCeilings s
  let u := recompute c t
  if six.any (s.alc.entryRose t.alc) then serve u else u

/-! ## The close of a round (R149, R150) -/

/-- A domain is REVOKING. -/
def Alc.revoking (a : Alc) (i : Fin 6) : Bool :=
  match a.domains.get i with
  | some d => d.state == .revoking
  | none => false

/-- How many listed domains have an outcome. -/
def Alc.outcomes (a : Alc) (g : GrantState) : Nat :=
  a.round.affected.countP fun e => match a.domains.get e.slot with
    | some d => d.state == g
    | none => false

/-- The ROUND notice (R150). -/
def postRound (s : State) : State :=
  s.post (.round s.alc.round.number s.alc.round.causes (s.alc.outcomes .settled) (s.alc.outcomes .clamped)
    (s.alc.outcomes .overdue))

/-- The round record after a close: only the number stays. -/
def Round.closed (r : Round) : Round :=
  { number := r.number, opened := false, causes := [], affected := [], reservation := 0, beneficiary := none }

/-- The round record is cleared, its number kept (R149, R156). -/
def clearRound (s : State) : State := { s with alc := { s.alc with round := s.alc.round.closed } }

/-- The beneficiary receives the reservation (R149). -/
def grantReservation (s : State) : State :=
  match s.alc.round.beneficiary with
  | none => s
  | some i => raiseGrant s.alc.round.reservation i (s.reserve 0 none)

/-- The round closes (R149). -/
def closeRound (s : State) : State := serve (clearRound (postRound (grantReservation s)))

/-- The round closes when no domain is REVOKING any more. -/
def closeIfDone (s : State) : State :=
  if s.alc.round.opened && !six.any s.alc.revoking then closeRound s else s

/-! ## Settlement and release (R145, R148) -/

/-- The OVERDUE cause of a domain's line is withdrawn. -/
def withdrawOverdue (d : Domain) (s : State) : State :=
  match d.line with
  | none => s
  | some n => withdrawCause .overdue n s

/-- A domain settles, or is released, with its GRANT notice (R145, R148). -/
def settleDomain (i : Fin 6) (d : Domain) (s : State) : State :=
  postGrant .round i <| withdrawOverdue d <|
    s.setDomain i (some { d with state := .settled, deadline := none, holdStart := none, overdueSince := none })

/-! ## Inputs of the other blocks (R91, R106, R111, R165) -/

/-- The budget record changed. -/
def State.withBudget (f : Budget → Budget) (s : State) : State :=
  { s with alc := { s.alc with budget := f s.alc.budget } }

/-- A zone's reduction is handed over (R91). -/
def handReduction (z : Fin 6) (r : Nat) (s : State) : State :=
  recompute .thermal (s.withBudget fun b => { b with reductions := b.reductions.set z r })

/-- A zone's severity is handed over (R91). -/
def handSeverity (z : Fin 6) (v : Bool) (s : State) : State :=
  recompute .thermal (s.withBudget fun b => { b with severities := b.severities.set z v })

/-- A fan's derate claim is handed over (R165): a recompute input in RUNNING and DOZING, stored in every mode. -/
def handDerate (n : Fin 2) (v : Bool) (s : State) : State :=
  recompute .fan (s.withBudget fun b => { b with derates := b.derates.set n v })

/-- The SRM's values as the budget record takes them. -/
def Budget.takeSource (b : Budget) (r : Srm) : Budget :=
  { b with sourceLimit := r.sourceLimit, adapterPresent := r.adapterPresent, sourceSeverity := r.severity }

/-- The source limit, presence and severity are handed over together when one of them has changed (R106, R114). -/
def handSource (s : State) : State :=
  let t := s.withBudget (·.takeSource s.srm)
  if !s.managed || t.alc.budget = s.alc.budget then s
  else if s.srm.adapterPresent = s.alc.budget.adapterPresent then recompute .source t
  else recomputeCeilings .source t

/-- The re-arm threshold (R110), rounded up. -/
def rearmAt (l : LimitSet) : Nat := (l.bucket * l.rearm + 99) / 100

/-- The armed flag weighed (R110). -/
def weighArmed (l : LimitSet) (armed : Bool) (credit : Nat) : Bool :=
  if armed then 0 < credit && l.bucket != 0 else 0 < l.bucket && rearmAt l ≤ credit

/-- A new active set at the Allocator (R12, R111, R114). -/
def takeNewSet (c : RoundCause) (s : State) : State :=
  let l := s.active
  let credit := min s.alc.budget.credit l.bucket
  recomputeCeilings c <|
    s.withBudget fun b => { b with credit := credit, armed := weighArmed l b.armed credit }

end Sys2Proof.Machine
end

