-- ==== Sys2Proof/Machine/Grants.lean ====
section
/-! DEFINITION. The Allocator's own commands and steps: DOMAIN_DECLARE, DOMAIN_RETIRE, DOMAIN_REQUEST, DOMAIN_PERMIT,
DOMAIN_SETTLED, READ_GRANTS, SYS_CAP, DEADLINE_EXPIRY, and its part in RUN, in a measurement completion and in RESTART. -/

namespace Sys2Proof.Machine

/-- The declared domain that a slot number names. -/
def State.domainAt (s : State) (slot : Nat) : Option (Fin 6 × Domain) :=
  match index? 6 slot with
  | none => none
  | some i => (s.alc.domains.get i).map fun d => (i, d)

/-! ## DOMAIN_DECLARE (R122, R123) -/

/-- The label a declaration gives: absent for length 0 (section 7.3). -/
def labelOf (f : DomainFields) : Option (List Byte) :=
  if f.labelLength = 0 then none else some (f.labelChars.take f.labelLength)

/-- Step 4 of R122: ranges and orderings. -/
def declareFieldsOk (f : DomainFields) (k : DomainKind) : Bool :=
  f.reservedFlags == 0 && f.labelLength ≤ 8 &&
  (f.labelChars.take f.labelLength).all (fun c => 0x20 ≤ c.toNat && c.toNat ≤ 0x7E) &&
  f.priority ≤ 3 && f.floor ≤ 250000 && f.ceiling ≤ 250000 && isStep f.floor && isStep f.ceiling && f.floor ≤ f.ceiling &&
  (k != .charger || f.floor == 0) && 500 ≤ f.rail && f.rail ≤ 25000 &&
  (f.volt.isNone || f.sense.isSome) && (f.volt.isNone || f.volt != f.sense)

/-- An optional field within a table's rows (step 5 of R122). -/
def optBelow (n : Nat) (x : Option Nat) : Bool := x.all (· < n)

/-- A domain names a channel as its sense or voltage channel. -/
def Domain.names (d : Domain) (c : Fin 16) : Bool := d.sense == some c || d.volt == some c

/-- Some declared domain satisfies a test. -/
def Alc.anyDomain (a : Alc) (p : Domain → Bool) : Bool :=
  six.any fun i => match a.domains.get i with
    | some d => p d
    | none => false

/-- A channel has a stored kind. -/
def State.kindIs (s : State) (c : Fin 16) (k : ChannelKind) : Bool := (s.msu.channels.get c).kind == k

/-- Step 6 of R122: no other domain holds what this one names, the kinds fit, and there is no second CHARGER. -/
def declareFree (s : State) (k : DomainKind) (sense volt : Option (Fin 16)) (line : Option (Fin 6)) : Bool :=
  sense.all (fun c => s.kindIs c .current && !s.alc.anyDomain (·.names c)) &&
  volt.all (fun c => s.kindIs c .voltage && !s.alc.anyDomain (·.names c)) &&
  line.all (fun n => !s.alc.anyDomain (·.line == some n)) &&
  (k != .charger || !s.alc.anyDomain (·.kind == .charger))

/-- The record of a declaration (R118, R123). -/
def declaredDomain (f : DomainFields) (k : DomainKind) (managed : Bool) : Domain :=
  { kind := k, label := labelOf f, priority := f.priority, floor := f.floor, ceiling := f.ceiling, rail := f.rail
    sense := f.sense.bind (index? 16), volt := f.volt.bind (index? 16), line := f.line.bind (index? 6), permit := .on
    request := none, effCeiling := none, grant := if managed then some f.floor else none
    state := if managed then .settled else .unmanaged, deadline := none, holdStart := none, measured := none
    revocations := 0, clamps := 0, overdueSince := none }

/-- A line's assigned domain is recorded, when a line is named. -/
def assignIfNamed (line : Option (Fin 6)) (d : Option (Fin 6)) (s : State) : State :=
  match line with
  | none => s
  | some n => assignLine n d s

/-- An accepted declaration fills the slot (R123). -/
def enterDomain (i : Fin 6) (d : Domain) (s : State) : State :=
  if s.managed then
    recompute .ceiling <| postGrant .raise i <| assignIfNamed d.line (some i) <|
      s.setDomain i (some { d with effCeiling := some (s.ceilingOf d) })
  else assignIfNamed d.line (some i) (s.setDomain i (some d))

/-- The floor sum a declaration may not pass (step 7 of R122). -/
def State.minBudget (s : State) : Nat :=
  match s.lst.chassis with
  | none => 0
  | some c => c.minBudget

/-- The grant state and grant of a slot as a declaration's reply gives them. -/
def declaredBody (i : Fin 6) (s : State) : ReplyBody :=
  match s.alc.domains.get i with
  | none => .empty
  | some d => .declared d.state d.grant

/-- DOMAIN_DECLARE (R122, R123). -/
def domainDeclare (f : DomainFields) (s : State) : State × Answer :=
  if s.mdc.mode = .prepare then refuse .notReady s
  else match index? 6 f.slot with
    | none => refuse .noSuch s
    | some i =>
      if (s.alc.domains.get i).isSome then refuse .conflict s
      else match f.kind with
        | none => refuse .badField s
        | some k =>
          if !declareFieldsOk f k then refuse .badField s
          else if !(optBelow 16 f.sense && optBelow 16 f.volt && optBelow 6 f.line) then refuse .noSuch s
          else
            let d := declaredDomain f k s.managed
            if !declareFree s k d.sense d.volt d.line then refuse .conflict s
            else if s.minBudget < s.alc.floorSum + f.floor then refuse .outOfLimits s
            else
              let t := enterDomain i d s
              (t, { status := .ok, body := declaredBody i t })

/-! ## DOMAIN_RETIRE (R124) -/

/-- A slot leaves the affected list. -/
def unlist (i : Fin 6) (s : State) : State :=
  { s with alc := { s.alc with round := { s.alc.round with affected := s.alc.round.affected.filter (·.slot != i) } } }

/-- A slot is emptied: its line lets go of it, and its record, queue entry and affected entry are gone (R124). -/
def emptySlot (i : Fin 6) (d : Domain) (s : State) : State :=
  adjustReservation i <| unlist i <| syncQueue i <| State.setDomain i none <| assignIfNamed d.line none <| withdrawOverdue d s

/-- B after a retirement: formed anew, with no reduction (R114, R124). -/
def refreshB (s : State) : State := s.setB (some s.formB)

/-- A retirement in RUNNING or DOZING: the round closes when it held the last REVOKING domain, and otherwise the queue is
served when no round is open (R124, R131). Log 19. -/
def retireManaged (i : Fin 6) (d : Domain) (s : State) : State :=
  let t := refreshB (emptySlot i d s)
  if t.alc.round.opened then closeIfDone t else serve t

/-- DOMAIN_RETIRE (R124). -/
def domainRetire (slot : Nat) (s : State) : State × Answer :=
  match s.domainAt slot with
  | none => refuse .noSuch s
  | some (i, d) =>
    if s.managed then (retireManaged i d s, .only .ok) else (emptySlot i d s, .only .ok)

/-! ## DOMAIN_REQUEST (R125, R126) -/

/-- The value a request stores (R125): rounded down, then brought within floor and ceiling. -/
def Domain.requestFor (d : Domain) (value : Nat) : Nat := min d.ceiling (max d.floor (stepDown value))

/-- A stored request acts on the grant and the queue (R126, R131, R134); `before` is the domain as it was. Log 14. -/
def actOnRequest (i : Fin 6) (before d : Domain) (s : State) : State :=
  let t := syncQueue i (adjustReservation i s)
  if d.wanted < d.held then
    let u := postGrant .lower i <| syncQueue i <| t.setDomain i (some { d with grant := some d.wanted })
    if 0 < u.alc.spare then serve u else u
  else if d.held < d.wanted then
    if s.alc.queue.any (·.slot == i) ∧ d.wanted ≤ before.wanted then t else serve t
  else t

/-- The request and the grant as a request's reply gives them. -/
def requestedBody (i : Fin 6) (request : Nat) (s : State) : ReplyBody :=
  .requested request ((s.alc.domains.get i).bind (·.grant))

/-- DOMAIN_REQUEST (R125, R126). Of several refusals that apply the first in the text answers (log 41). -/
def domainRequest (slot value : Nat) (s : State) : State × Answer :=
  match s.domainAt slot with
  | none => refuse .noSuch s
  | some (i, d) =>
    if 250000 < value then refuse .badField s
    else if d.permit = .off then refuse .notPermitted s
    else
      let r := d.requestFor value
      let d' := { d with request := some r }
      let stored := s.setDomain i (some d')
      let t := if s.managed then actOnRequest i d d' stored else stored
      (t, { status := if r = stepDown value then .ok else .trimmed, body := requestedBody i r t })

/-! ## DOMAIN_PERMIT (R127 to R129) -/

/-- The permit, effective ceiling and grant of a slot as a permit's reply gives them (R127). -/
def permitAnswer (i : Fin 6) (p : Permit) (s : State) : Answer :=
  { status := .ok
    body := .permit p ((s.alc.domains.get i).bind (·.effCeiling)) ((s.alc.domains.get i).bind (·.grant)) }

/-- A permit turned OFF in RUNNING or DOZING (R128). -/
def permitOffManaged (i : Fin 6) (d : Domain) (s : State) : State :=
  let t := syncQueue i <| adjustReservation i <|
    s.setDomain i (some { d with permit := .off, effCeiling := some d.floor })
  if d.floor < d.held then reduce .permit t else postGrant .ceiling i t

/-- A permit turned ON in RUNNING or DOZING (R129). Log 15. -/
def permitOnManaged (i : Fin 6) (d : Domain) (s : State) : State :=
  let on := { d with permit := .on }
  let d' := { on with effCeiling := some (s.ceilingOf on) }
  let t := postGrant .ceiling i <| syncQueue i <| s.setDomain i (some d')
  if d'.held < d'.wanted then serve t else t

/-- DOMAIN_PERMIT with OFF (R127, R128). -/
def domainPermitOff (slot : Nat) (s : State) : State × Answer :=
  match s.domainAt slot with
  | none => refuse .noSuch s
  | some (i, d) =>
    if d.permit = .off then (s, permitAnswer i .off s)
    else
      let t := if s.managed then permitOffManaged i d s else s.setDomain i (some { d with permit := .off })
      (t, permitAnswer i .off t)

/-- DOMAIN_PERMIT with ON (R127, R129). -/
def domainPermitOn (slot : Nat) (s : State) : State × Answer :=
  match s.domainAt slot with
  | none => refuse .noSuch s
  | some (i, d) =>
    if d.permit = .on then (s, permitAnswer i .on s)
    else
      let t := if s.managed then permitOnManaged i d s else s.setDomain i (some { d with permit := .on })
      (t, permitAnswer i .on t)

/-- DOMAIN_PERMIT with a code that is neither: the slot is judged first (R127; log 41). -/
def domainPermitOther (slot : Nat) (s : State) : State × Answer :=
  match s.domainAt slot with
  | none => refuse .noSuch s
  | some _ => refuse .badField s

/-! ## DOMAIN_SETTLED (R146) -/

/-- The time a CLAMPED or OVERDUE domain without measurements must wait for its release, in clock units (R146, R148). -/
def holdTime : Nat := ms 200

/-- The state of a slot as DOMAIN_SETTLED's reply gives it. -/
def settledAnswer (i : Fin 6) (left : Option Nat) (s : State) : Answer :=
  match s.alc.domains.get i with
  | none => .only .ok
  | some d => { status := .ok, body := .settled d.state left }

/-- A CONFLICT of DOMAIN_SETTLED; it carries the grant state, as every reply of the table does (R146). -/
def settledConflict (d : Domain) (s : State) : State × Answer := (s, { status := .conflict, body := .settled d.state none })

/-- DOMAIN_SETTLED (R146). -/
def domainSettled (slot : Nat) (s : State) : State × Answer :=
  match s.domainAt slot with
  | none => refuse .noSuch s
  | some (i, d) =>
    match d.state with
    | .unmanaged => (s, settledAnswer i none s)
    | .settled => (s, settledAnswer i none s)
    | .revoking =>
      if d.measured.isSome then settledConflict d s
      else
        let t := closeIfDone (settleDomain i d s)
        (t, settledAnswer i none t)
    | _ =>
      if d.measured.isSome then settledConflict d s
      else
        let due := d.overdueSince.getD 0 + holdTime
        if due ≤ s.now then
          let t := settleDomain i d s
          (t, settledAnswer i none t)
        else (s, settledAnswer i (some (s.remainingMs due)) s)

/-! ## READ_GRANTS (R136) -/

/-- One slot of the summary. -/
def slotSummary (s : State) (i : Fin 6) : Option SlotSummary :=
  (s.alc.domains.get i).map fun d => { state := d.state, grant := d.grant, wanted := d.wanted?, measured := d.measured }

/-- A domain's place in the open round. -/
def affectedView (s : State) (i : Fin 6) (d : Domain) : Option AffectedView :=
  if s.alc.round.opened then
    (s.alc.round.affected.find? (·.slot == i)).map fun e =>
      { oldGrant := e.oldGrant, target := d.held, outcome := d.state }
  else none

/-- A full record; times are given as remaining or elapsed ms. -/
def grantEntry (s : State) (i : Fin 6) : Option GrantEntry :=
  (s.alc.domains.get i).map fun d =>
    { kind := d.kind, label := d.label, priority := d.priority, floor := d.floor, ceiling := d.ceiling, rail := d.rail
      sense := d.sense, volt := d.volt, line := d.line, permit := d.permit, request := d.request
      effCeiling := d.effCeiling, wanted := d.wanted?, grant := d.grant, state := d.state
      deadlineRemaining := s.timerLeft d.deadline, holdElapsed := d.holdStart.map (s.nowMs - ·), measured := d.measured
      revocations := d.revocations, clamps := d.clamps
      queuePosition := (s.alc.queue.findIdx? (·.slot == i)).map (· + 1)
      queueTime := (s.alc.queue.find? (·.slot == i)).map (·.time), affected := affectedView s i d }

/-- READ_GRANTS (R136). Where both refusals apply it answers NO_SUCH (log 41). -/
def readGrants (first count : Nat) (s : State) : State × Answer :=
  if 6 ≤ first then refuse .noSuch s
  else if 2 < count ∨ 6 < first + count then refuse .badField s
  else if count = 0 then
    (s, { status := .ok
          body := .grantSummary (six.map (slotSummary s)) (s.alc.queue.map (·.slot)) s.alc.round.reservation
            s.alc.round.beneficiary })
  else (s, { status := .ok, body := .grants ((rowsFrom six first count).map fun i => (i, grantEntry s i)) })

/-! ## SYS_CAP (R108) -/

/-- The system cap is stored; a change is a recompute input in RUNNING and DOZING. -/
def storeCap (cap : Option Nat) (s : State) : State :=
  let t := s.withBudget fun b => { b with systemCap := cap }
  if s.alc.budget.systemCap = cap then t else recompute .sysCap t

/-- SYS_CAP (R108). -/
def sysCap (cap : Option Nat) (s : State) : State × Answer :=
  if cap.any (fun c => 250000 < c || !isStep c) then refuse .badField s
  else
    let t := storeCap cap s
    (t, { status := .ok, body := .budget t.effective t.spare })

/-! ## DEADLINE_EXPIRY (R147) -/

/-- The OVERDUE cause of a domain's line is added. -/
def addOverdue (d : Domain) (s : State) : State :=
  match d.line with
  | none => s
  | some n => addCause .overdue n s

/-- A domain's record after its deadline has expired (R147). -/
def Domain.expired (d : Domain) (now : Nat) : Domain :=
  { d with state := if d.line.isSome then .clamped else .overdue, deadline := none, overdueSince := some now
           clamps := bump d.clamps }

/-- A deadline expires (R147). -/
def expireDeadline (i : Fin 6) (s : State) : State :=
  match s.alc.domains.get i with
  | none => s
  | some d =>
    closeIfDone <| postGrant .round i <| detect .domainOverdue i <| addOverdue d <|
      s.setDomain i (some (d.expired s.now))

/-- The deadline of a slot's REVOKING domain. -/
def State.deadlineOf (s : State) (i : Fin 6) : Option Nat :=
  match s.alc.domains.get i with
  | some d => if d.state = .revoking then d.deadline else none
  | none => none

/-! ## RUN (R117, R137) -/

/-- The value of a channel in a completion, as a magnitude in the unit its use has (mA or mV). A value that was formed while the
channel was of another kind is taken by its number, and a negative one as 0 (the model's choice, log 43). -/
def Completion.magnitude (c : Completion) (ch : Fin 16) : Option Nat := (c.values.get ch).map Int.toNat

/-- Measured power from a completion (R121). -/
def Domain.measuredIn (d : Domain) (c : Completion) : Option Nat :=
  match d.sense with
  | none => none
  | some m =>
    (c.magnitude m).map fun i => i * ((d.volt.bind c.magnitude).getD d.rail) / 1000

/-- A domain enters management at its floor (R137). -/
def manageDomain (i : Fin 6) (s : State) : State :=
  match s.alc.domains.get i with
  | none => s
  | some d =>
    postGrant .raise i <| s.setDomain i
      (some { d with effCeiling := some (s.ceilingOf d), grant := some d.floor, state := .settled
                     measured := d.measuredIn s.msu.last })

/-- The Allocator's RUN entry (R117, R137): bucket empty, inputs as the blocks hand them, B, domains at their floors, queue,
serving. -/
def allocatorRun (s : State) : State :=
  let inputs := s.withBudget fun b =>
    { b.takeSource s.srm with credit := 0, armed := false, reductions := Vector.replicate 6 0
                              severities := Vector.replicate 6 false }
  let formed := refreshB inputs
  let floors := six.foldl (fun t i => manageDomain i t) formed
  serve (six.foldl (fun t i => syncQueue i t) floors)

/-! ## A measurement completion (R109, R110, R121, R145, R148) -/

/-- Measured powers formed from a completion. -/
def measureDomains (c : Completion) (s : State) : State :=
  { s with alc := { s.alc with
      domains := tabulate fun i => (s.alc.domains.get i).map fun d => { d with measured := d.measuredIn c } } }

/-- Compliance at a completion (R145). -/
def Domain.compliant (d : Domain) (tolerance : Nat) : Bool := d.measured.any (· ≤ d.held + tolerance)

/-- The clamp hold at a completion (R148). -/
def checkHold (i : Fin 6) (d : Domain) (timeMs : Nat) (compliant : Bool) (s : State) : State :=
  if !compliant then s.setDomain i (some { d with holdStart := none })
  else match d.holdStart with
    | none => s.setDomain i (some { d with holdStart := some timeMs })
    | some t => if t + 200 ≤ timeMs then settleDomain i d s else s

/-- One domain's compliance check at a completion (R145, R148). -/
def checkDomain (timeMs : Nat) (i : Fin 6) (s : State) : State :=
  match s.alc.domains.get i with
  | none => s
  | some d =>
    let ok := d.compliant s.active.tolerance
    match d.state with
    | .revoking => if ok then settleDomain i d s else s
    | .clamped => checkHold i d timeMs ok s
    | .overdue => checkHold i d timeMs ok s
    | _ => s

/-- The platform power from the pair of the source setup, when both channels are VALID with values (R109). -/
def pairPower (s : State) (c : Completion) : Option Nat :=
  match s.srm.setup with
  | none => none
  | some u =>
    match u.pair with
    | none => none
    | some (i, v) =>
      if c.states.get i = .valid ∧ c.states.get v = .valid then
        match c.magnitude i, c.magnitude v with
        | some a, some b => some (a * b / 1000)
        | _, _ => none
      else none

/-- The platform power (R109). -/
def platformPower (s : State) (c : Completion) : Nat :=
  match pairPower s c with
  | some t => t
  | none => s.alc.sumDomains fun d => d.measured.getD d.held

/-- The credit after an interval (R109). -/
def creditAfter (l : LimitSet) (credit power dtMs : Nat) : Nat :=
  min l.bucket ((credit : Int) + (((l.sustained : Int) - power) * dtMs).tdiv 1000).toNat

/-- The burst update (R109, R110). -/
def updateBurst (c : Completion) (dtMs : Nat) (s : State) : State :=
  let l := s.active
  let credit := creditAfter l s.alc.budget.credit (platformPower s c) dtMs
  let armed := weighArmed l s.alc.budget.armed credit
  let t := s.withBudget fun b => { b with credit := credit, armed := armed }
  if armed = s.alc.budget.armed then t else recompute .burst t

/-- The Allocator's step at a completion (R145). -/
def allocatorCompletion (c : Completion) (dtMs : Nat) (s : State) : State :=
  updateBurst c dtMs <| closeIfDone <| six.foldl (fun t i => checkDomain c.timeMs i t) (measureDomains c s)

/-! ## RESTART (R107, R138, R156) -/

/-- The Allocator at RESTART: table, queue, round and budget cleared; the round's number and the fans' derate claims stay.
Log 16. -/
def restartAllocator (s : State) : State :=
  { s with alc := { budget := { Budget.reset with derates := tabulate fun n => (s.fnc.fans.get n).state.claim }
                    domains := Vector.replicate 6 none, queue := [], round := s.alc.round.closed } }

/-! ## The commands -/

/-- DOMAIN_DECLARE. -/
def execDomainDeclare (dt : Nat) (tag : Byte) (f : DomainFields) (s : State) : Host.Outcome State Fault Refusal :=
  request dt 0x30 tag (domainDeclare f) s

/-- DOMAIN_RETIRE. -/
def execDomainRetire (dt : Nat) (tag : Byte) (slot : Nat) (s : State) : Host.Outcome State Fault Refusal :=
  request dt 0x31 tag (domainRetire slot) s

/-- DOMAIN_REQUEST. -/
def execDomainRequest (dt : Nat) (tag : Byte) (slot value : Nat) (s : State) : Host.Outcome State Fault Refusal :=
  request dt 0x32 tag (domainRequest slot value) s

/-- DOMAIN_SETTLED. -/
def execDomainSettled (dt : Nat) (tag : Byte) (slot : Nat) (s : State) : Host.Outcome State Fault Refusal :=
  request dt 0x33 tag (domainSettled slot) s

/-- DOMAIN_PERMIT_OFF. -/
def execDomainPermitOff (dt : Nat) (tag : Byte) (slot : Nat) (s : State) : Host.Outcome State Fault Refusal :=
  request dt 0x34 tag (domainPermitOff slot) s

/-- DOMAIN_PERMIT_ON. -/
def execDomainPermitOn (dt : Nat) (tag : Byte) (slot : Nat) (s : State) : Host.Outcome State Fault Refusal :=
  request dt 0x34 tag (domainPermitOn slot) s

/-- READ_GRANTS. -/
def execReadGrants (dt : Nat) (tag : Byte) (first count : Nat) (s : State) : Host.Outcome State Fault Refusal :=
  request dt 0x35 tag (readGrants first count) s

/-- SYS_CAP. -/
def execSysCap (dt : Nat) (tag : Byte) (cap : Option Nat) (s : State) : Host.Outcome State Fault Refusal :=
  request dt 0x29 tag (sysCap cap) s

/-- DEADLINE_EXPIRY. -/
def execDeadlineExpiry (slot : Fin 6) (s : State) : Host.Outcome State Fault Refusal :=
  .next (atExpiry (s.deadlineOf slot) (expireDeadline slot) s)

end Sys2Proof.Machine
end

