-- ==== Sys2Proof/Machine/Fans.lean ====
section
/-! DEFINITION. The Fan Controller (chapter 9): targets, starting and stopping, tachometer, stall and retry, ramp, PWM and
the fan requests. -/

namespace Sys2Proof.Machine

/-- The Fan Controller's records changed. -/
def State.withFans (f : Vector Fan 2 → Vector Fan 2) (s : State) : State :=
  { s with fnc := { s.fnc with fans := f s.fnc.fans } }

/-- A FAN notice with the fan's fields as they stand (R165). -/
def Fan.notice (n : Fin 2) (f : Fan) : Notice := .fan n f.state f.duty f.speed f.attempts

/-- A fan's record is replaced; a change of state posts a FAN notice and a change of the derate claim is handed to the
Allocator (R165). -/
def setFan (n : Fin 2) (f : Fan) (s : State) : State :=
  let old := (s.fnc.fans.get n).state
  let stored := s.withFans (·.set n f)
  let told := if old.same f.state then stored else stored.post (f.notice n)
  if old.claim = f.state.claim then told else handDerate n f.state.claim told

/-! ## Target (R160) -/

/-- A zone is mapped to a fan (R160). -/
def Zone.maps (z : Zone) (n : Fin 2) : Bool := z.enabled && z.fanMap.contains n

/-- The zones mapped to a fan. -/
def State.mappedZones (s : State) (n : Fin 2) : List Zone := (six.map s.znm.zones.get).filter (·.maps n)

/-- The fan's ceiling is lifted while a mapped zone is HOT, CRITICAL or FAULTED (R160). -/
def State.lifted (s : State) (n : Fin 2) : Bool := (s.mappedZones n).any (·.state.severe)

/-- The demands handed over for a fan. -/
def State.demands (s : State) (n : Fin 2) : List Nat := (s.mappedZones n).filterMap (·.demand.get n)

/-- The highest demand handed over, absent when there is none. -/
def State.highestDemand (s : State) (n : Fin 2) : Option Nat :=
  match s.demands n with
  | [] => none
  | a :: l => some (l.foldl max a)

/-- The fan floor in force: 0 outside RUNNING. -/
def State.fanFloor (s : State) (n : Fin 2) : Nat :=
  if s.mdc.mode = .running then (s.active.fans.get n).floor else 0

/-- The guard duty of PREPARE and LOCKED. -/
def guardDuty : Nat := 60

/-- The target before its last step (R160). -/
def State.rawTarget (s : State) (n : Fin 2) : Nat :=
  if !s.managed then guardDuty
  else if s.lifted n then 100
  else match s.highestDemand n with
    | none => s.fanFloor n
    | some d => min (s.active.fans.get n).ceiling (max (s.fanFloor n) d)

/-- A target above 0 is not below the minimum running duty (R160). -/
def Fan.heldTarget (f : Fan) (t : Nat) : Nat := if t = 0 then 0 else max t f.minDuty

/-- A fan's target (R160). -/
def State.targetOf (s : State) (n : Fin 2) : Nat := (s.fnc.fans.get n).heldTarget (s.rawTarget n)

/-! ## Starting and stopping (R162) -/

/-- A kick begins: full duty for 500 ms. -/
def Fan.kick (k : SpinKind) (now : Nat) (f : Fan) : Fan :=
  { f with state := .spinup k .kick, duty := 100, stallTimer := none, phaseTimer := some (now + ms 500), retryTimer := none }

/-- A fan stops: duty 0 and every timer stopped; attempts and final flag stay (R162). -/
def Fan.stop (f : Fan) : Fan :=
  { f with state := .stopped, duty := 0, stallTimer := none, phaseTimer := none, retryTimer := none }

/-- A fan with a target, acted on by R162. -/
def Fan.follow (t now : Nat) (f : Fan) : Fan :=
  let g := { f with target := t }
  match f.state with
  | .off => g
  | .stopped => if 0 < t then g.kick .ordinary now else g
  | _ => if t = 0 then g.stop else g

/-- A fan's target is formed again and acts on its state (R160, R162); a disabled fan has none. -/
def applyTarget (n : Fin 2) (s : State) : State :=
  let f := s.fnc.fans.get n
  if f.enabled then setFan n (f.follow (s.targetOf n) s.now) s else s

/-- Both targets are formed again, F0's before F1's: R116 leaves open which of two derate claims that change in one step is
handed over first (the model's choice, log 44). -/
def applyTargets (s : State) : State := two.foldl (fun t n => applyTarget n t) s

/-! ## Tachometer (R159, R163, R164) -/

/-- The speed from a period in us (R159); a period of 0 us has none in the manual (log 8). -/
def speedOf (period ppr : Nat) : Nat :=
  if period = 0 then Config.speedOfZeroPeriod ppr else 60000000 / (period * ppr)

/-- The speed an edge gives: none when no period was being counted or it spans the gap of 1,000 ms (R159). -/
def Fan.speedAt (f : Fan) (now : Nat) : Option Nat :=
  match f.lastEdge with
  | none => none
  | some e => if f.periodOpen ∧ now - e ≤ sec 1 then some (speedOf (now - e) f.ppr) else none

/-- The capture at an edge (R159). -/
def Fan.capture (now : Nat) (f : Fan) : Fan :=
  { f with speed := f.speedAt now, lastEdge := some now, periodOpen := true }

/-- A fan turns while it is RUNNING or proving: attempts and final flag are cleared and the stall timer runs from the edge
(R163, R164). -/
def Fan.proven (now : Nat) (f : Fan) : Fan :=
  { f with state := .running, attempts := 0, finalFlag := false, phaseTimer := none, stallTimer := some (now + sec 1) }

/-- An edge acts on a fan (R159, R163, R164). -/
def Fan.edge (now : Nat) (f : Fan) : Fan :=
  match f.state with
  | .running => (f.capture now).proven now
  | .spinup .retry .proving => (f.capture now).proven now
  | _ => f.capture now

/-- TACH_EDGE. -/
def execTachEdge (dt : Nat) (n : Fin 2) (s : State) : Host.Outcome State Fault Refusal :=
  let t := s.elapse dt
  .next (setFan n ((t.fnc.fans.get n).edge t.now) t)

/-- When the speed times out: 1,000 ms after the edge a period is being counted from (R159). -/
def Fan.speedDue (f : Fan) : Option Nat := if f.periodOpen then f.lastEdge.map (· + sec 1) else none

/-- SPEED_TIMEOUT: the speed becomes absent and the edge time stays (R159). -/
def execSpeedTimeout (n : Fin 2) (s : State) : Host.Outcome State Fault Refusal :=
  .next (atExpiry (s.fnc.fans.get n).speedDue
    (State.withFans (modifyRow · n fun f => { f with speed := none, periodOpen := false })) s)

/-! ## Stall and retry (R162, R163, R164) -/

/-- A fan stalls (R163). -/
def Fan.stall (now : Nat) (f : Fan) : Fan :=
  { f with state := .stalled, duty := 0, stallTimer := none, retryTimer := if f.finalFlag then none else some (now + sec 5) }

/-- The stall timer expires (R163). -/
def stallFan (n : Fin 2) (s : State) : State :=
  detect .fanStall n (setFan n ((s.fnc.fans.get n).stall s.now) s)

/-- The stall timer of a RUNNING fan. -/
def Fan.stallDue (f : Fan) : Option Nat := if f.state = .running then f.stallTimer else none

/-- STALL_TIMER_EXPIRY (R163). -/
def execStallTimerExpiry (n : Fin 2) (s : State) : Host.Outcome State Fault Refusal :=
  .next (atExpiry (s.fnc.fans.get n).stallDue (stallFan n) s)

/-- The phase timer of a fan in a kind and phase of spin-up. -/
def Fan.phaseDue (k : SpinKind) (p : SpinPhase) (f : Fan) : Option Nat :=
  if f.state = .spinup k p then f.phaseTimer else none

/-- The end of an ordinary kick (R162). -/
def Fan.kickDone (now : Nat) (f : Fan) : Fan :=
  { f with state := .running, duty := f.minDuty, phaseTimer := none, stallTimer := some (now + sec 1) }

/-- KICK_END (R162). -/
def execKickEnd (n : Fin 2) (s : State) : Host.Outcome State Fault Refusal :=
  .next (atExpiry ((s.fnc.fans.get n).phaseDue .ordinary .kick)
    (fun t => setFan n ((t.fnc.fans.get n).kickDone t.now) t) s)

/-- The end of a retry's kick: PROVING for 1,000 ms (R164). -/
def Fan.startProving (now : Nat) (f : Fan) : Fan :=
  { f with state := .spinup .retry .proving, duty := f.minDuty, phaseTimer := some (now + sec 1) }

/-- RETRY_KICK_END (R164). -/
def execRetryKickEnd (n : Fin 2) (s : State) : Host.Outcome State Fault Refusal :=
  .next (atExpiry ((s.fnc.fans.get n).phaseDue .retry .kick)
    (fun t => setFan n ((t.fnc.fans.get n).startProving t.now) t) s)

/-- A failed attempt (R164). Attempts are at most 3 here (log 37). -/
def Fan.failAttempt (now : Nat) (f : Fan) : Fan :=
  { f with state := .stalled, duty := 0, phaseTimer := none
           retryTimer := if f.attempts < 3 then some (now + sec 5) else none, finalFlag := f.attempts == 3 || f.finalFlag }

/-- PROVING_EXPIRY (R164). -/
def execProvingExpiry (n : Fin 2) (s : State) : Host.Outcome State Fault Refusal :=
  .next (atExpiry ((s.fnc.fans.get n).phaseDue .retry .proving)
    (fun t => setFan n ((t.fnc.fans.get n).failAttempt t.now) t) s)

/-- The retry timer of a STALLED fan. -/
def Fan.retryDue (f : Fan) : Option Nat := if f.state = .stalled then f.retryTimer else none

/-- A retry begins with a number of attempts (R164). -/
def Fan.retry (attempts now : Nat) (f : Fan) : Fan := ({ f with attempts := attempts } : Fan).kick .retry now

/-- One attempt more, never above 3, the largest value R157 gives (log 37). -/
def nextAttempt (n : Nat) : Nat := min 3 (n + 1)

/-- RETRY_TIMER_EXPIRY (R164). -/
def execRetryTimerExpiry (n : Fin 2) (s : State) : Host.Outcome State Fault Refusal :=
  .next (atExpiry (s.fnc.fans.get n).retryDue
    (fun t => setFan n ((t.fnc.fans.get n).retry (nextAttempt (t.fnc.fans.get n).attempts) t.now) t) s)

/-! ## Ramp and PWM (R158, R161) -/

/-- A duty moves toward a target by at most 5 points (R161). -/
def rampDuty (duty target : Nat) : Nat := if duty ≤ target then min target (duty + 5) else max target (duty - 5)

/-- A fan at a ramp expiry: only a RUNNING one moves (R161). A duty that a FAN_SETUP has left below the minimum climbs by the
same steps (log 38). -/
def Fan.ramp (f : Fan) : Fan := if f.state = .running then { f with duty := rampDuty f.duty f.target } else f

/-- The ramp's next expiry. -/
def State.rampDue (s : State) : Nat := s.fnc.rampStart + ms 250

/-- RAMP_TIMER_EXPIRY (R161). -/
def execRampTimerExpiry (s : State) : Host.Outcome State Fault Refusal :=
  let t := s.reach s.rampDue
  .next { t with fnc := { t.fnc with fans := tabulate fun n => (t.fnc.fans.get n).ramp, rampStart := s.rampDue } }

/-- PWM_PERIOD_START: each output takes its fan's duty for the period that begins (R158). -/
def execPwmPeriodStart (s : State) : Host.Outcome State Fault Refusal :=
  let due := s.fnc.pwmStart + 40
  let t := s.reach due
  .next { t with fnc := { t.fnc with pwmStart := due, pwmDuty := tabulate fun n => (t.fnc.fans.get n).duty } }

/-! ## Requests (R166 to R168) -/

/-- A fan disabled: OFF, every timer stopped, attempts and final flag cleared; the speed stays (R166). -/
def Fan.disable (f : Fan) : Fan := { f.stop with state := .off, enabled := false, attempts := 0, finalFlag := false }

/-- A fan enabled: an OFF fan becomes STOPPED, another keeps its state (R166). -/
def Fan.enable (f : Fan) : Fan :=
  { f with enabled := true, state := match f.state with
      | .off => .stopped
      | st => st }

/-- FAN_SETUP (R166). Where both refusals apply the fan number is judged first (log 41). -/
def fanSetup (fan : Nat) (enabled : Bool) (ppr minDuty : Nat) (s : State) : State × Answer :=
  if s.managed then refuse .notReady s
  else match index? 2 fan with
    | none => refuse .noSuch s
    | some n =>
      if ppr < 1 ∨ 4 < ppr ∨ minDuty < 10 ∨ 60 < minDuty then refuse .badField s
      else
        let f := { s.fnc.fans.get n with ppr := ppr, minDuty := minDuty }
        if enabled then (applyTarget n (setFan n f.enable s), .only .ok) else (setFan n f.disable s, .only .ok)

/-- A fan under FAN_RETRY (R167). -/
def Fan.retryNow (now : Nat) (f : Fan) : Fan :=
  match f.state with
  | .stalled => ({ f with finalFlag := false } : Fan).retry 1 now
  | .spinup .retry _ => { f with attempts := 1 }
  | _ => f

/-- A fan's state and attempts as FAN_RETRY's reply gives them (R167). -/
def fanStateBody (n : Fin 2) (s : State) : ReplyBody := .fanState (s.fnc.fans.get n).state (s.fnc.fans.get n).attempts

/-- FAN_RETRY (R167). -/
def fanRetry (fan : Nat) (s : State) : State × Answer :=
  match index? 2 fan with
  | none => refuse .noSuch s
  | some n =>
    if (s.fnc.fans.get n).state = .off then refuse .conflict s
    else
      let t := setFan n ((s.fnc.fans.get n).retryNow s.now) s
      (t, { status := .ok, body := fanStateBody n t })

/-- One fan of READ_FANS (R168). The last edge time is in ms, rounded down (log 9). -/
def fanEntry (s : State) (n : Fin 2) : FanEntry :=
  let f := s.fnc.fans.get n
  { enabled := f.enabled, ppr := f.ppr, minDuty := f.minDuty, state := f.state, duty := f.duty, target := f.target
    speed := f.speed, lastEdge := f.lastEdge.map (· / 1000), stallRemaining := s.timerLeft f.stallTimer
    phaseRemaining := s.timerLeft f.phaseTimer, retryRemaining := s.timerLeft f.retryTimer, attempts := f.attempts
    finalFlag := f.finalFlag, derateClaim := f.state.claim, lifted := s.lifted n, highestDemand := s.highestDemand n }

/-- READ_FANS (R168). -/
def readFans (s : State) : State × Answer := (s, { status := .ok, body := .fans (two.map (fanEntry s)) })

/-- FAN_SETUP. -/
def execFanSetup (dt : Nat) (tag : Byte) (fan : Nat) (enabled : Bool) (ppr minDuty : Nat) (s : State) :
    Host.Outcome State Fault Refusal :=
  request dt 0x3C tag (fanSetup fan enabled ppr minDuty) s

/-- FAN_RETRY. -/
def execFanRetry (dt : Nat) (tag : Byte) (fan : Nat) (s : State) : Host.Outcome State Fault Refusal :=
  request dt 0x3D tag (fanRetry fan) s

/-- READ_FANS. -/
def execReadFans (dt : Nat) (tag : Byte) (s : State) : Host.Outcome State Fault Refusal :=
  request dt 0x3E tag readFans s

/-! ## RESTART (R157, R169) -/

/-- A fan at RESTART. -/
def Fan.restart (now : Nat) (f : Fan) : Fan :=
  let g := { f with target := guardDuty, attempts := 0, finalFlag := false, retryTimer := none }
  match f.state with
  | .stopped => g.kick .ordinary now
  | .stalled => g.retry 1 now
  | .spinup .retry _ => g.retry 1 now
  | _ => g

/-- The Fan Controller at RESTART (R169); the derate claims reach the Allocator's cleared record as it takes RESTART. -/
def restartFans (s : State) : State :=
  two.foldl (fun t n => setFan n ((t.fnc.fans.get n).restart t.now) t) s

end Sys2Proof.Machine
end

