-- ==== Sys2Proof/Machine/Evidence.lean ====
section
/-! DEFINITION. The Placement Unit's inputs (sections 4.1 to 4.4): the line filters, the evidence record, the candidate and
the start of its dwell. -/

namespace Sys2Proof.Machine

/-- The Placement Unit's record changed. -/
def State.withPlu (f : Plu → Plu) (s : State) : State := { s with plu := f s.plu }

/-! ## Line filters (R61) -/

/-- A sample that does not complete a change: an equal sample clears the run, a differing one extends it below 2 (R61). -/
def LineFilter.sample (level : Level) (time : Nat) (f : LineFilter) : LineFilter :=
  if level = f.accepted then { f with run := 0, sampledAt := time }
  else if f.run < 2 then { f with run := f.run + 1, sampledAt := time }
  else f

/-- The time of the next sample of a line. -/
def LineFilter.nextSample (f : LineFilter) : Nat := f.sampledAt + ms 1

/-- The other level. -/
def Level.flip : Level → Level
  | .low => .high
  | .high => .low

/-- The third consecutive differing sample: the new level is accepted (R61). -/
def LineFilter.accept (f : LineFilter) : LineFilter :=
  { accepted := Level.flip f.accepted, run := 0, sampledAt := f.nextSample }

/-- A line is sampled at a time unless it already was. -/
def LineFilter.sampleAt (time : Nat) (level : Level) (f : LineFilter) : LineFilter :=
  if f.sampledAt < time then f.sample level time else f

/-- LINE_FILTER_SAMPLE: the samples of one millisecond, but for a line whose third differing sample this is; that one is the
line's CHANGE event (R61, log 31). -/
def execLineFilterSample (lid motion adp : Level) (s : State) : Host.Outcome State Fault Refusal :=
  let time := s.plu.sampleClock + ms 1
  .next ((s.reach time).withPlu fun p =>
    { p with lid := p.lid.sampleAt time lid, motion := p.motion.sampleAt time motion, adp := p.adp.sampleAt time adp
             sampleClock := time })

/-- When a line's change is accepted: at the sample after two differing ones. -/
def LineFilter.changeDue (f : LineFilter) : Option Nat := if f.run = 2 then some f.nextSample else none

/-! ## The candidate (R67, R68) -/

/-- The placement the evidence points to; row 5 gives the present candidate (R67). -/
def Evidence.result (e : Evidence) (candidate : Option SetId) : Option SetId :=
  if e.lid = .closed ∧ 1 ≤ e.topNear ∧ 1 ≤ e.baseNear then some .bag
  else if e.motion = .moving ∨ (e.lid = .closed ∧ 1 ≤ e.edgeNear) then some .moving
  else if e.lid = .opened ∧ 2 ≤ e.baseContact then some .lap
  else if e.motion = .still ∧ e.baseContact = 0 ∧ e.topNear = 0 then some .desk
  else candidate

/-- A candidate that differs from the present one, against the placement (R68). -/
def newCandidate (p : SetId) (s : State) : State :=
  s.withPlu fun r =>
    { r with candidate := some p
             dwell := if r.placement = .settled p then .idle else .running (s.now + ms (s.entryDwell p)) }

/-- The candidate is evaluated from the whole evidence record (R66, R67, R68). -/
def evaluateCandidate (s : State) : State :=
  match s.plu.evidence.result s.plu.candidate with
  | none => s
  | some p => if s.plu.candidate = some p then s else newCandidate p s

/-- An evidence update: the fields the event concerns, then the evaluation (R66). -/
def updateEvidence (f : Evidence → Evidence) (s : State) : State :=
  evaluateCandidate (s.withPlu fun r => { r with evidence := f r.evidence })

/-! ## Evidence reports (R65) -/

/-- One electrode in an evidence report: its class, unless excluded (R45). -/
def reportedClass (shown : TouchClass) (excluded : Bool) : TouchClass := if excluded then .noTouch else shown

/-- How many of some electrodes a report shows with a class satisfying a test. -/
def countTouch (report : Vector TouchClass 8) (members : List (Fin 8)) (p : TouchClass → Bool) : Nat :=
  members.countP fun i => p (report.get i)

/-- NEAR or CONTACT. -/
def TouchClass.isNear : TouchClass → Bool
  | .noTouch => false
  | _ => true

/-- The four counts of a report; excluded electrodes stand in it as NONE (R65). -/
def Evidence.recount (report : Vector TouchClass 8) (e : Evidence) : Evidence :=
  { e with baseContact := countTouch report [0, 1, 2, 3] (· == .contact), baseNear := countTouch report [0, 1, 2, 3] (·.isNear)
           topNear := countTouch report [4, 5] (·.isNear), edgeNear := countTouch report [6, 7] (·.isNear) }

/-- An evidence report arrives (R65, R66). -/
def takeReport (report : Vector TouchClass 8) (s : State) : State := updateEvidence (·.recount report) s

/-! ## LID, MOTION and the still timer (R62, R63) -/

/-- The lid field for an accepted level (R62). -/
def Level.lid : Level → Lid
  | .high => .opened
  | .low => .closed

/-- The accepted LID level changes (R62). -/
def changeLid (s : State) : State :=
  let t := s.withPlu fun r => { r with lid := r.lid.accept }
  updateEvidence (fun e => { e with lid := Level.lid t.plu.lid.accepted }) t

/-- LID_CHANGE (R61, R62). -/
def execLidChange (s : State) : Host.Outcome State Fault Refusal := .next (atExpiry s.plu.lid.changeDue changeLid s)

/-- The accepted MOTION level changes (R63). -/
def changeMotion (s : State) : State :=
  let t := s.withPlu fun r => { r with motion := r.motion.accept }
  match t.plu.motion.accepted with
  | .high => updateEvidence (fun e => { e with motion := .moving }) (t.withPlu fun r => { r with stillTimer := none })
  | .low => updateEvidence id (t.withPlu fun r => { r with stillTimer := some (t.now + sec 2) })

/-- MOTION_CHANGE (R61, R63). -/
def execMotionChange (s : State) : Host.Outcome State Fault Refusal :=
  .next (atExpiry s.plu.motion.changeDue changeMotion s)

/-- The still timer expires (R63). -/
def becomeStill (s : State) : State :=
  updateEvidence (fun e => { e with motion := .still }) (s.withPlu fun r => { r with stillTimer := none })

/-- STILL_TIMER_EXPIRY (R63). -/
def execStillTimerExpiry (s : State) : Host.Outcome State Fault Refusal := .next (atExpiry s.plu.stillTimer becomeStill s)

end Sys2Proof.Machine
end

