-- ==== Sys2Proof/Machine/Measure.lean ====
section
/-! DEFINITION. The Measurement Unit but for the effects of a completion (chapter 2): forming a result, the channel requests,
the scan list, and the start of a measurement scan's conversions. -/

namespace Sys2Proof.Machine

/-- The Measurement Unit's records changed. -/
def State.withMsu (f : Msu → Msu) (s : State) : State := { s with msu := f s.msu }

/-- One channel's record replaced. -/
def State.setChannel (c : Fin 16) (r : Channel) (s : State) : State :=
  s.withMsu fun m => { m with channels := m.channels.set c r }

/-! ## Results (R21 to R23) -/

/-- The corrected count (R21). -/
def correctedCount (raw gain : Nat) (offset : Int) : Nat :=
  let v : Int := (raw * gain / 32768 : Nat) + offset
  if v < 0 then 0 else if 4095 < v then 4095 else v.toNat

/-- The engineering value of a corrected count (R21). A CURRENT or VOLTAGE channel always has a full scale, and a TEMP one a
curve (R18, R20; log 27). -/
def Channel.engineering (c : Channel) (count : Nat) : Int :=
  match c.kind with
  | .temp => curveAt (c.curve.getD .a) count
  | _ => ((count * c.fullScale.getD 0 / 4095 : Nat) : Int)

/-- The result of a conversion: a value within the window, or a fault result (R21). -/
def Channel.resultOf (c : Channel) (raw gain : Nat) (offset : Int) : Option Int :=
  if raw = 0 ∨ raw = 4095 then none
  else
    let v := c.engineering (correctedCount raw gain offset)
    if c.winLow ≤ v ∧ v ≤ c.winHigh then some v else none

/-- A result joins a history as newest (R23). -/
def joinHistory (depth : Nat) (l : List Int) (v : Int) : List Int :=
  if l.length < depth then l ++ [v] else l.drop (l.length + 1 - depth) ++ [v]

/-- A result acts on the channel record (R23). -/
def Channel.takeResult (r : Option Int) (c : Channel) : Channel :=
  match c.state, r with
  | .valid, some v =>
    if c.restartPending then { c with history := [v], restartPending := false }
    else { c with history := joinHistory c.depth c.history v }
  | .fault, some v => { c with state := .valid, history := [v], restartPending := false }
  | .valid, none => { c with history := [], state := .fault, restartPending := false }
  | _, _ => c

/-- A conversion's raw count acts on the channel (R21, R23). -/
def Channel.convert (raw gain : Nat) (offset : Int) (c : Channel) : Channel :=
  ({ c with lastRaw := some raw } : Channel).takeResult (c.resultOf raw gain offset)

/-- A conversion ends on a channel; its passage from VALID into FAULT is detected (R23). -/
def convertChannel (c : Fin 16) (raw gain : Nat) (offset : Int) (s : State) : State :=
  let old := s.msu.channels.get c
  let new := old.convert raw gain offset
  let t := s.setChannel c new
  if old.state = .valid ∧ new.state = .fault then detect .channel c t else t

/-! ## CHANNEL_SETUP (R19, R20) -/

/-- Step 2 of R19. -/
def channelFieldsOk (f : ChannelFields) (k : ChannelKind) : Bool :=
  [1, 2, 4, 8].contains f.depth && f.winLow ≤ f.winHigh &&
  (match k with
   | .temp => f.curve.isSome && -400 ≤ f.winLow && f.winLow ≤ 1500 && -400 ≤ f.winHigh && f.winHigh ≤ 1500
   | _ => 1 ≤ f.fullScale && f.fullScale ≤ 65535 && 0 ≤ f.winLow && f.winLow ≤ 65535 && 0 ≤ f.winHigh && f.winHigh ≤ 65535)

/-- The source setup names a channel. -/
def SourceSetup.names (u : SourceSetup) (c : Fin 16) : Bool :=
  u.batteryChannel == c || u.pair.any fun p => p.1 == c || p.2 == c

/-- An enabled CHANNELS zone names a channel. -/
def Zone.names (z : Zone) (c : Fin 16) : Bool := z.enabled && z.source == .channels && z.channels.contains c

/-- Another block has checked a channel's kind (step 4 of R19). -/
def State.kindHeld (s : State) (c : Fin 16) : Bool :=
  s.alc.anyDomain (·.names c) || s.srm.setup.any (·.names c) || six.any fun z => (s.znm.zones.get z).names c

/-- The record after an accepted setup (R20). -/
def Channel.setup (f : ChannelFields) (k : ChannelKind) (c : Channel) : Channel :=
  { c with enabled := f.enabled, kind := k, curve := if k = .temp then f.curve else none
           fullScale := if k = .temp then none else some f.fullScale, depth := f.depth, winLow := f.winLow
           winHigh := f.winHigh, restartPending := false, history := [], lastRaw := none
           state := if f.enabled then .valid else .off }

/-- A conversion of a channel in progress is marked for discarding (R20). -/
def MeasScan.discardIf (c : Fin 16) (m : MeasScan) : MeasScan :=
  { m with current := m.current.map fun v => if v.channel = c then { v with discard := true } else v }

/-- An accepted CHANNEL_SETUP (R20). -/
def setupChannel (c : Fin 16) (f : ChannelFields) (k : ChannelKind) (s : State) : State :=
  s.withMsu fun m =>
    { m with channels := modifyRow m.channels c (·.setup f k), scan := m.scan.map (·.discardIf c) }

/-- CHANNEL_SETUP (R19, R20). -/
def channelSetup (f : ChannelFields) (s : State) : State × Answer :=
  match index? 16 f.channel with
  | none => refuse .noSuch s
  | some c =>
    match f.kind with
    | none => refuse .badField s
    | some k =>
      if !channelFieldsOk f k then refuse .badField s
      else if s.msu.scanList.contains c then refuse .conflict s
      else if k ≠ (s.msu.channels.get c).kind ∧ s.kindHeld c then refuse .conflict s
      else (setupChannel c f k s, .only .ok)

/-! ## SCAN_LIST (R25) -/

/-- No number appears twice. -/
def distinct (l : List Nat) : Bool := firsts l == l

/-- SCAN_LIST (R25). -/
def scanListOwner (l : List Nat) (s : State) : State × Answer :=
  if 16 < l.length then refuse .badField s
  else if l.any (16 ≤ ·) then refuse .noSuch s
  else if !distinct l then refuse .badField s
  else
    let named := l.filterMap (index? 16)
    if named.all fun c => (s.msu.channels.get c).enabled then (s.withMsu fun m => { m with scanList := named }, .only .ok)
    else refuse .conflict s

/-! ## READ_CHANNELS (R35) -/

/-- One channel's entry (R35). -/
def channelEntry (s : State) (n : Fin 16) : ChannelEntry :=
  let c := s.msu.channels.get n
  { channel := n, enabled := c.enabled, listed := s.msu.scanList.contains n, kind := c.kind, curve := c.curve
    fullScale := c.fullScale, depth := c.depth, winLow := c.winLow, winHigh := c.winHigh, state := c.state
    value := c.value, results := c.history.length, lastRaw := c.lastRaw, gain := c.gain, offset := c.offset
    calSource := c.calSource, restartPending := c.restartPending }

/-- READ_CHANNELS (R35). Where both refusals apply it answers NO_SUCH (log 41). -/
def readChannels (first count : Nat) (s : State) : State × Answer :=
  if 16 ≤ first then refuse .noSuch s
  else if 4 < count ∨ 16 < first + count then refuse .badField s
  else if count = 0 then (s, { status := .ok, body := .scanList s.msu.last.number s.msu.scanList })
  else
    (s, { status := .ok, body := .channels s.msu.last.number ((rowsFrom sixteen first count).map (channelEntry s)) })

/-! ## CAL_OVERRIDE (R24) -/

/-- A working calibration written; an enabled channel starts its history afresh at its next in-window result (R24). -/
def Channel.calibrate (gain : Nat) (offset : Int) (source : CalSource) (c : Channel) : Channel :=
  { c with gain := gain, offset := offset, calSource := source, restartPending := c.enabled || c.restartPending }

/-- CAL_OVERRIDE with SET (R24). Where both refusals apply it answers NO_SUCH (log 41). -/
def calOverrideSet (channel gain : Nat) (offset : Int) (s : State) : State × Answer :=
  match index? 16 channel with
  | none => refuse .noSuch s
  | some c =>
    if gain < 16384 ∨ 65535 < gain ∨ offset < -512 ∨ 511 < offset then refuse .badField s
    else (s.setChannel c ((s.msu.channels.get c).calibrate gain offset .override), .only .ok)

/-- CAL_OVERRIDE with RESTORE (R24). -/
def calOverrideRestore (channel : Nat) (s : State) : State × Answer :=
  match index? 16 channel with
  | none => refuse .noSuch s
  | some c =>
    (s.setChannel c ((s.msu.channels.get c).calibrate (Config.factoryGain c) (Config.factoryOffset c) .factory), .only .ok)

/-- CAL_OVERRIDE with an action that is neither: the channel is judged first (R24; log 41). -/
def calOverrideOther (channel : Nat) (s : State) : State × Answer :=
  match index? 16 channel with
  | none => refuse .noSuch s
  | some _ => refuse .badField s

/-! ## The start of a scan's conversions (R26, R29, R31, R32) -/

/-- The time of a channel conversion in ms (R31). -/
def conversionTime : ChannelKind → Nat
  | .temp => 5
  | _ => 1

/-- The next conversion of a scan: disabled channels are passed over (R26); with none left, none is in progress. -/
def nextConversion (channels : Vector Channel 16) (now : Nat) : List (Fin 16) → MeasScan
  | [] => { todo := [], current := none }
  | c :: l =>
    let r := channels.get c
    if r.enabled then
      { todo := l
        current := some { channel := c, doneAt := now + ms (conversionTime r.kind), gain := r.gain, offset := r.offset
                          discard := false } }
    else nextConversion channels now l

/-- The scan goes on with its next conversion. -/
def advanceScan (s : State) : State :=
  s.withMsu fun m => { m with scan := m.scan.map fun c => nextConversion m.channels s.now c.todo }

/-- The arbiter gives the front end to the pending measurement scan (R32). -/
def beginMeasurement (s : State) : State :=
  advanceScan (s.withMsu fun m => { m with pendingMeas := false, frontEnd := .measuring })

/-- The front end comes free: a pending measurement scan takes it (R32, R34). -/
def freeFrontEnd (s : State) : State :=
  if s.msu.pendingMeas then beginMeasurement s else s.withMsu fun m => { m with frontEnd := .free }

/-- The conversion of the scan has all been done: it holds the front end with nothing in progress (R29, log 22). -/
def State.scanSpent (s : State) : Bool :=
  s.msu.frontEnd == .measuring && s.msu.scan.any (·.current.isNone)

/-! ## RESTART (R36) -/

/-- A channel at RESTART (R36). -/
def Channel.restart (c : Channel) : Channel :=
  { c with history := [], lastRaw := none, restartPending := false, state := if c.enabled then .valid else .off }

/-- The channel table at RESTART; the scan in flight, the list, the timer and the completion number go on (R36). -/
def restartChannels (s : State) : State :=
  s.withMsu fun m => { m with channels := tabulate fun n => (m.channels.get n).restart }

/-! ## The commands -/

/-- CHANNEL_SETUP. -/
def execChannelSetup (dt : Nat) (tag : Byte) (f : ChannelFields) (s : State) : Host.Outcome State Fault Refusal :=
  request dt 0x10 tag (channelSetup f) s

/-- SCAN_LIST. -/
def execScanList (dt : Nat) (tag : Byte) (channels : List Nat) (s : State) : Host.Outcome State Fault Refusal :=
  request dt 0x11 tag (scanListOwner channels) s

/-- READ_CHANNELS. -/
def execReadChannels (dt : Nat) (tag : Byte) (first count : Nat) (s : State) : Host.Outcome State Fault Refusal :=
  request dt 0x12 tag (readChannels first count) s

/-- CAL_OVERRIDE_SET. -/
def execCalOverrideSet (dt : Nat) (tag : Byte) (channel gain : Nat) (offset : Int) (s : State) :
    Host.Outcome State Fault Refusal :=
  request dt 0x13 tag (calOverrideSet channel gain offset) s

/-- CAL_OVERRIDE_RESTORE. -/
def execCalOverrideRestore (dt : Nat) (tag : Byte) (channel : Nat) (s : State) : Host.Outcome State Fault Refusal :=
  request dt 0x13 tag (calOverrideRestore channel) s

end Sys2Proof.Machine
end

