-- ==== Sys2Proof/Machine/Contact.lean ====
section
/-! DEFINITION. The Contact Sensing Unit (chapter 3): electrodes and groups, learning, classes and drift, the contact scan and
its sharing of the front end, rebase, group learning, and the electrode requests. -/

namespace Sys2Proof.Machine

/-- The Contact Sensing Unit's records changed. -/
def State.withCsu (f : Csu → Csu) (s : State) : State := { s with csu := f s.csu }

/-- One electrode's record replaced. -/
def State.setElectrode (i : Fin 8) (e : Electrode) (s : State) : State :=
  s.withCsu fun c => { c with electrodes := c.electrodes.set i e }

/-- The highest raw at a resolution (R38). -/
def Csu.fullScale (c : Csu) : Nat := 2 ^ c.resolution - 1

/-- The electrodes of a group, fixed by pin (section 3, R43). -/
def groupPins : Fin 3 → List (Fin 8)
  | 0 => [0, 1, 2, 3]
  | 1 => [4, 5]
  | 2 => [6, 7]

/-- The group of an electrode. -/
def groupOf (i : Fin 8) : Fin 3 := if i.val < 4 then 0 else if i.val < 6 then 1 else 2

/-! ## Classes (R48, R49, R50) -/

/-- The observed class from a delta and the confirmed class (R48). -/
def observe (near contact hyst : Nat) (confirmed : TouchClass) (delta : Int) : TouchClass :=
  let contactAt : Int := if confirmed = .contact then (contact : Int) - hyst else contact
  let nearAt : Int := if confirmed = .noTouch then (near : Int) else (near : Int) - hyst
  if contactAt ≤ delta then .contact else if nearAt ≤ delta then .near else .noTouch

/-- Confirmed class, pending class and confirm count. -/
structure ClassTrack where
  confirmed : TouchClass
  pending : Option TouchClass
  count : Nat
deriving DecidableEq, Repr

/-- An observed class weighed against the confirmed one (R49). -/
def ClassTrack.weigh (observed : TouchClass) (t : ClassTrack) : ClassTrack :=
  if observed = t.confirmed then { t with pending := none, count := 0 }
  else if t.pending = some observed then
    if t.count = 2 then { confirmed := observed, pending := none, count := 0 } else { t with count := t.count + 1 }
  else { t with pending := some observed, count := 1 }

/-- The drift of a baseline (R50): one sixteenth of the difference while the class is NONE and the delta below near. -/
def drifted (near raw baseline : Nat) (confirmed : TouchClass) (delta : Int) : Nat :=
  if confirmed = .noTouch ∧ delta < near then ((baseline : Int) + ((raw : Int) - baseline).tdiv 16).toNat else baseline

/-! ## One electrode's conversion (R46 to R50) -/

/-- The class fields of an electrode. -/
def Electrode.track (e : Electrode) : ClassTrack := { confirmed := e.confirmed, pending := e.pending, count := e.confirmCount }

/-- The passage into FAULT (R46). -/
def Electrode.fail (e : Electrode) : Electrode :=
  { e with state := .fault, confirmed := .noTouch, pending := none, confirmCount := 0, learnSum := 0, learnCount := 0
           delta := none }

/-- A saturating raw (R46): the third in a row makes the electrode FAULT; the count itself stays below 3. -/
def Electrode.saturate (e : Electrode) : Electrode :=
  if e.satCount = 2 then e.fail else { e with satCount := e.satCount + 1 }

/-- A raw taken while LEARNING (R47). -/
def Electrode.learn (raw : Nat) (e : Electrode) : Electrode :=
  if e.learnCount = 7 then
    { e with baseline := some ((e.learnSum + raw) / 8), state := .tracking, delta := some 0, confirmed := .noTouch
             pending := none, confirmCount := 0, learnSum := 0, learnCount := 0 }
  else { e with learnSum := e.learnSum + raw, learnCount := e.learnCount + 1 }

/-- A raw taken while TRACKING (R48, R49, R50). A TRACKING electrode always has a baseline (R47). -/
def Electrode.follow (raw : Nat) (e : Electrode) : Electrode :=
  let base := e.baseline.getD 0
  let delta : Int := (raw : Int) - base
  let t := e.track.weigh (observe e.near e.contact e.hyst e.confirmed delta)
  { e with delta := some delta, confirmed := t.confirmed, pending := t.pending, confirmCount := t.count
           baseline := some (drifted e.near raw base t.confirmed delta) }

/-- A raw acts on an electrode according to its state (R44, R46 to R50). -/
def Electrode.convert (raw fullScale : Nat) (e : Electrode) : Electrode :=
  let r := { e with raw := some raw }
  match e.state with
  | .off => r
  | .fault => r
  | .learning => if raw = fullScale then r.saturate else ({ r with satCount := 0 } : Electrode).learn raw
  | .tracking => if raw = fullScale then r.saturate else ({ r with satCount := 0 } : Electrode).follow raw

/-- An electrode's conversion ends; its passage into FAULT is detected (R46). -/
def convertElectrode (i : Fin 8) (raw : Nat) (s : State) : State :=
  let old := s.csu.electrodes.get i
  let new := old.convert (min raw s.csu.fullScale) s.csu.fullScale
  let t := s.setElectrode i new
  if old.state ≠ .fault ∧ new.state = .fault then detect .electrode i t else t

/-! ## Groups (R51, R52) -/

/-- One group's record replaced. -/
def State.setGroup (g : Fin 3) (r : Group) (s : State) : State :=
  s.withCsu fun c => { c with groups := c.groups.set g r }

/-- The sum of a threshold over a group's members (R51). -/
def Csu.memberSum (c : Csu) (g : Group) (f : Electrode → Nat) : Nat :=
  (g.members.map fun i => f (c.electrodes.get i)).sum

/-- A class applied to some electrodes (R51, R52). -/
def applyClass (members : List (Fin 8)) (k : TouchClass) (v : Vector Electrode 8) : Vector Electrode 8 :=
  tabulate fun i => if members.contains i then { v.get i with confirmed := k } else v.get i

/-- Group learning is running. -/
def GroupLearning.active : GroupLearning → Bool
  | .idle => false
  | .learning _ _ => true

/-- A group raw outside learning: delta, class and drift by the sums of the members' thresholds (R51). Without a baseline no
delta can be formed (log 20). -/
def Csu.followGroup (c : Csu) (raw : Nat) (g : Group) : Group :=
  match g.baseline with
  | none => { g with raw := some raw, delta := none }
  | some base =>
    let near := c.memberSum g (·.near)
    let delta : Int := (raw : Int) - base
    let old : ClassTrack := { confirmed := g.confirmed, pending := g.pending, count := g.confirmCount }
    let t := old.weigh (observe near (c.memberSum g (·.contact)) (c.memberSum g (·.hyst)) g.confirmed delta)
    { g with raw := some raw, delta := some delta, confirmed := t.confirmed, pending := t.pending, confirmCount := t.count
             baseline := some (drifted near raw base t.confirmed delta) }

/-- A group's conversion acts on its record (R51, R52); a changed class goes to the members. It does so too where a setup has
given the group other members, or none, since the conversion began (the model's choice, log 45). -/
def Csu.convertGroup (g : Fin 3) (raw : Nat) (c : Csu) : Csu :=
  let old := c.groups.get g
  if c.learning.active then { c with groups := c.groups.set g { old with raw := some raw } }
  else
    let new := c.followGroup raw old
    { c with groups := c.groups.set g new
             electrodes := if new.confirmed = old.confirmed then c.electrodes
               else applyClass old.members new.confirmed c.electrodes }

/-- The electrodes that group learning takes: enabled and not FAULT (R52). -/
def Csu.eligible (c : Csu) (i : Fin 8) : Bool :=
  let e := c.electrodes.get i
  e.enabled && e.state != .fault

/-- A member's share of the carried delta (R52). -/
def Electrode.carried (e : Electrode) : Int := if e.state = .tracking then e.delta.getD 0 else 0

/-- A group as group learning begins: members fixed, carried delta recorded, learn sum 0 (R52). -/
def Csu.groupAtStart (c : Csu) (g : Fin 3) : Group :=
  let old := c.groups.get g
  let members := (groupPins g).filter c.eligible
  { old with members := members, learnSum := 0
             carried := if members.isEmpty then old.carried else (members.map fun i => (c.electrodes.get i).carried).sum }

/-- Group learning begins (R52, R53). -/
def Csu.beginLearning (origin : LearnOrigin) (c : Csu) : Csu :=
  { c with groups := tabulate c.groupAtStart, learning := .learning origin 0 }

/-- Group learning is ended before its eighth completion: the sums are discarded (R53). -/
def Csu.dropLearning (c : Csu) : Csu :=
  { c with groups := tabulate fun g => { c.groups.get g with learnSum := 0 }, learning := .idle }

/-- No group has a member. -/
def Csu.noMembers (c : Csu) : Bool := three.all fun g => (c.groups.get g).members.isEmpty

/-- The rank of a class in the order NONE, NEAR, CONTACT (R52). -/
def TouchClass.rank : TouchClass → Nat
  | .noTouch => 0
  | .near => 1
  | .contact => 2

/-- The higher of two classes. -/
def TouchClass.max (a b : TouchClass) : TouchClass := if TouchClass.rank a < TouchClass.rank b then b else a

/-- The highest confirmed class among some electrodes (R52). -/
def Csu.highestClass (c : Csu) (members : List (Fin 8)) : TouchClass :=
  members.foldl (fun k i => TouchClass.max k (c.electrodes.get i).confirmed) .noTouch

/-- The raw a group measured in a completed scan, added to its learn sum (R52). -/
def Group.addLearn (measured : Bool) (g : Group) : Group :=
  if measured then { g with learnSum := g.learnSum + g.raw.getD 0 } else g

/-- A group takes its baseline and class at the eighth completion, and its pending class becomes absent (R52). One with no
members keeps its baseline; that it keeps its confirmed class too is the model's choice, and so are the confirm count of 0
that goes with an absent pending class and the learn sum of 0, which R52 does not state for a group (log 42). -/
def Csu.groupLearned (c : Csu) (g : Fin 3) : Group :=
  let r := { c.groups.get g with pending := none, confirmCount := 0, learnSum := 0 }
  if r.members.isEmpty then r
  else
    { r with baseline := some (min c.fullScale ((((c.groups.get g).learnSum / 8 : Nat) : Int) - r.carried).toNat)
             confirmed := c.highestClass r.members }

/-- The eighth completion of a group learning (R52). -/
def Csu.finishLearning (c : Csu) : Csu :=
  let groups := tabulate c.groupLearned
  { c with groups := groups, learning := .idle
           electrodes := three.foldl (fun v g => applyClass (groups.get g).members (groups.get g).confirmed v) c.electrodes }

/-! ## Evidence reports (R45, R51) -/

/-- An electrode is excluded from reports: OFF or FAULT (R45). -/
def Electrode.excluded (e : Electrode) : Bool := e.state == .off || e.state == .fault

/-- The report of a sequential scan (R45). -/
def Csu.report (c : Csu) : Vector TouchClass 8 :=
  tabulate fun i => reportedClass (c.electrodes.get i).confirmed (c.electrodes.get i).excluded

/-- The report of a grouped scan: a member carries its group's class (R51). -/
def Csu.groupReport (c : Csu) : Vector TouchClass 8 :=
  tabulate fun i =>
    let g := c.groups.get (groupOf i)
    reportedClass (if g.members.contains i then g.confirmed else (c.electrodes.get i).confirmed) (c.electrodes.get i).excluded

/-! ## Rebase (R56, R57) -/

/-- Some enabled electrode is LEARNING. -/
def Csu.anyLearning (c : Csu) : Bool :=
  eight.any fun i => (c.electrodes.get i).enabled && (c.electrodes.get i).state == .learning

/-- A rebase ends with its DONE notice (R57). -/
def endRebase (st : Status) (s : State) : State := (s.withCsu fun c => { c with rebase := .noRebase }).post (.done st)

/-- Group learning of a rebase begins; with no member in any group it ends at once (R57). -/
def learnGroups (s : State) : State :=
  let t := s.withCsu (·.beginLearning .rebase)
  if t.csu.noMembers then endRebase .ok (t.withCsu (·.dropLearning)) else t

/-- The GROUPS phase begins (R57). -/
def startGroups (s : State) : State := learnGroups (s.withCsu fun c => { c with rebase := .groups })

/-- The ELECTRODES phase ends once no enabled electrode is LEARNING (R57). -/
def leaveElectrodes (s : State) : State :=
  if s.csu.rebase = .electrodes ∧ !s.csu.anyLearning then startGroups s else s

/-! ## The completion of a contact scan (R45, R51, R52, R57) -/

/-- A completion of group learning (R52, R53, R57). -/
def learnCompletion (origin : LearnOrigin) (count : Nat) (measured : List (Fin 3)) (s : State) : State :=
  let t := s.withCsu fun c => { c with groups := tabulate fun g => (c.groups.get g).addLearn (measured.contains g) }
  if count = 7 then
    let u := t.withCsu (·.finishLearning)
    if origin = .rebase then endRebase .ok u else u
  else t.withCsu fun c => { c with learning := .learning origin (count + 1) }

/-- What a completed contact scan does, its kind given: learning, or an evidence report. -/
def reportScan (grouped : Bool) (measured : List (Fin 3)) (s : State) : State :=
  if grouped then
    match s.csu.learning with
    | .learning origin count => learnCompletion origin count measured s
    | .idle => takeReport s.csu.groupReport s
  else takeReport s.csu.report s

/-- A contact scan completion, after which a rebase may move on (R57). -/
def completeContact (grouped : Bool) (measured : List (Fin 3)) (s : State) : State :=
  leaveElectrodes (reportScan grouped measured s)

/-! ## The contact scan on the front end (R31 to R34, R43, R44) -/

/-- The time of an electrode or group conversion in us (R31). -/
def Csu.conversionTime (c : Csu) : Nat := 250 * 2 ^ (c.resolution - 9)

/-- What a scan still has to measure from an index on (R43, R44). -/
def Csu.nextTarget (c : Csu) (grouped : Bool) (start : Nat) : Option (Nat × ContactTarget) :=
  if grouped then
    (three.find? fun g => start ≤ g.val && !(c.groups.get g).members.isEmpty).map fun g => (g.val, .group g)
  else
    (eight.find? fun i => start ≤ i.val && (c.electrodes.get i).enabled).map fun i => (i.val, .electrode i)

/-- The arbiter's claim replaced. -/
def State.setClaim (k : Claim) (s : State) : State := s.withMsu fun m => { m with claim := k }

/-- The contact scan ends (R44): its claim is dropped, its completion acts, and the front end is handed on (R32, R33). -/
def endContact (grouped : Bool) (measured : List (Fin 3)) (s : State) : State :=
  freeFrontEnd <| completeContact grouped measured <| State.setClaim .unclaimed <| s.withCsu fun c => { c with scan := none }

/-- The contact scan, holding the claim, goes on with its next conversion, or ends when nothing is left (R44). -/
def continueContact (s : State) : State :=
  match s.csu.scan with
  | none => s
  | some sc =>
    match s.csu.nextTarget sc.grouped sc.next with
    | none => endContact sc.grouped sc.measured s
    | some (i, target) =>
      (s.withCsu fun c => { c with scan := some { sc with
          next := i + 1, current := some { target := target, doneAt := s.now + c.conversionTime, discard := false } } }).withMsu
        fun m => { m with frontEnd := .sensing, claim := .running }

/-- After a conversion of the contact scan: a pending measurement scan pauses it between two conversions (R32, R33). -/
def afterContactConversion (s : State) : State :=
  match s.csu.scan with
  | none => s
  | some sc =>
    if s.msu.pendingMeas ∧ (s.csu.nextTarget sc.grouped sc.next).isSome then beginMeasurement (s.setClaim .paused)
    else continueContact s

/-- A contact scan in flight is stopped and its claim dropped (R34, R54). -/
def stopContact (s : State) : State :=
  if s.msu.claim = .unclaimed then s
  else
    let t := (s.withCsu fun c => { c with scan := none }).setClaim .unclaimed
    if s.msu.frontEnd = .sensing then freeFrontEnd t else t

/-- At a measurement completion the front end is handed on by the claim (R32). -/
def handOnFrontEnd (s : State) : State :=
  let t := s.withMsu fun m => { m with frontEnd := .free }
  if s.msu.claim = .paused ∨ s.msu.claim = .waiting then continueContact (t.setClaim .running) else t

/-- The kind of scan a trigger chooses (R43). -/
def State.scanGrouped (s : State) : Bool := s.mdc.mode == .dozing || s.csu.rebase == .groups

/-- A contact scan in flight that has measured nothing yet. -/
def ContactScan.fresh (grouped : Bool) : ContactScan := { grouped := grouped, next := 0, current := none, measured := [] }

/-- A contact trigger reaches the arbiter, which skips it, makes it wait or takes it (R33). Taken with nothing to measure it
completes at once, and the claim stays NONE (R43); one that waits completes when its turn comes (log 35). -/
def contactTrigger (s : State) : State :=
  if s.msu.claim ≠ .unclaimed then s
  else
    let grouped := s.scanGrouped
    let t := s.withCsu fun c => { c with scan := some (.fresh grouped) }
    if s.msu.frontEnd ≠ .free then t.setClaim .waiting
    else if (s.csu.nextTarget grouped 0).isNone then completeContact grouped [] s
    else continueContact (t.setClaim .running)

/-- The contact timer returns to 0 at a match and loads the mode's period (R42). -/
def reloadContactTimer (due : Nat) (s : State) : State :=
  s.withCsu fun c => { c with contactStart := due, contactPeriod := s.mdc.mode.contactPeriod }

/-- CONTACT_TIMER_MATCH (R42, R43). -/
def execContactTimerMatch (s : State) : Host.Outcome State Fault Refusal :=
  let due := s.csu.contactStart + ms s.csu.contactPeriod
  .next (contactTrigger (reloadContactTimer due (s.reach due)))

/-! ## Mode changes (R54, R55) -/

/-- Every electrode's pending class, confirm count and saturation count cleared (R55). -/
def Csu.clearPending (c : Csu) : Csu :=
  { c with electrodes := tabulate fun i =>
      { c.electrodes.get i with pending := none, confirmCount := 0, satCount := 0 } }

/-- A rebase in flight is abandoned at DOZE (R57). -/
def abandonRebase (s : State) : State :=
  if s.csu.rebase = .noRebase then s else endRebase .abandoned (s.withCsu (·.dropLearning))

/-- Entry to DOZING at the Contact Sensing Unit (R55). -/
def dozeContact (s : State) : State := (abandonRebase s).withCsu fun c => (c.clearPending).beginLearning .doze

/-- Group pending classes become absent (R55). The confirm count of 0 that goes with it, which R55 does not state of a group, is
the model's choice (log 42). -/
def Csu.clearGroupPending (c : Csu) : Csu :=
  { c with groups := tabulate fun g => { c.groups.get g with pending := none, confirmCount := 0 } }

/-- A DOZE learning still running ends as R53 states. -/
def Csu.dropDozeLearning (c : Csu) : Csu :=
  match c.learning with
  | .learning .doze _ => c.dropLearning
  | _ => c

/-- Leaving DOZING at the Contact Sensing Unit (R55). That a group's other fields stay is the model's choice (log 47). -/
def wakeContact (s : State) : State := s.withCsu fun c => c.dropDozeLearning.clearGroupPending

/-- RESTART at the Contact Sensing Unit (R57, R60): a rebase ends without DONE; from DOZING it leaves DOZING. R38 and R60 say of a
group that its baseline is kept; that members, carried delta, raw, delta and classes are kept too is the model's choice (log
47). -/
def restartContact (wasDozing : Bool) (s : State) : State :=
  let t := stopContact s
  let u := if t.csu.rebase = .noRebase then t else t.withCsu fun c => { c.dropLearning with rebase := .noRebase }
  if wasDozing then wakeContact u else u

/-! ## ELECTRODE_SETUP (R39 to R41, R58) -/

/-- A record started afresh (R40). -/
def Electrode.afresh (e : Electrode) : Electrode :=
  { e with state := if e.enabled then .learning else .off, raw := none, baseline := none, delta := none
           confirmed := .noTouch, pending := none, confirmCount := 0, satCount := 0, learnSum := 0, learnCount := 0 }

/-- A conversion of an electrode in progress is marked for discarding (R40). A group's conversion in progress is not, and a
grouped scan in flight goes on (the model's choice, log 45). -/
def ContactScan.discardIf (i : Fin 8) (m : ContactScan) : ContactScan :=
  { m with current := m.current.map fun v => if v.target = .electrode i then { v with discard := true } else v }

/-- A setup in the GROUPS phase of a rebase that changes what is to be measured (R58): members and carried deltas are fixed
anew in every case; with an enabled electrode LEARNING the phase then goes back to ELECTRODES and group learning to IDLE.
Log 20. -/
def resumeRebase (s : State) : State :=
  if s.csu.rebase ≠ .groups then s
  else if s.csu.anyLearning then s.withCsu fun c => { (c.beginLearning .rebase).dropLearning with rebase := .electrodes }
  else learnGroups s

/-- An accepted ELECTRODE_SETUP for an electrode (R40, R58). -/
def setupElectrode (i : Fin 8) (enabled : Bool) (f : ElectrodeFields) (s : State) : State :=
  let old := s.csu.electrodes.get i
  let new := ({ old with enabled := enabled, near := f.near, contact := f.contact, hyst := f.hyst } : Electrode).afresh
  let t := (s.setElectrode i new).withCsu fun c => { c with scan := c.scan.map (·.discardIf i) }
  if old.enabled = enabled then t else resumeRebase t

/-- The ranges and orderings of an electrode's thresholds (R37, R39). -/
def electrodeFieldsOk (f : ElectrodeFields) : Bool :=
  1 ≤ f.near && f.near ≤ 65534 && f.near < f.contact && f.contact ≤ 65535 && f.hyst < f.near

/-- ELECTRODE_SETUP for an electrode (R39, R40). -/
def electrodeSetup (f : ElectrodeFields) (s : State) : State × Answer :=
  if s.managed then refuse .notReady s
  else match index? 8 f.target with
    | none => refuse .noSuch s
    | some i =>
      match f.enabled with
      | none => refuse .badField s
      | some e => if electrodeFieldsOk f then (setupElectrode i e f s, .only .ok) else refuse .badField s

/-- The records at a new resolution (R41). -/
def Csu.rescale (resolution : Nat) (c : Csu) : Csu :=
  { c with resolution := resolution
           groups := tabulate fun g => { c.groups.get g with baseline := none }
           electrodes := tabulate fun i =>
             let e := c.electrodes.get i
             if e.enabled then e.afresh else e }

/-- An accepted ELECTRODE_SETUP for the unit record with a resolution that differs (R41, R58). -/
def changeResolution (resolution : Nat) (s : State) : State :=
  resumeRebase ((stopContact s).withCsu (·.rescale resolution))

/-! ## REBASE and READ_ELECTRODES (R56, R59) -/

/-- An electrode sent back to learning by REBASE (R56). -/
def Electrode.relearn (e : Electrode) : Electrode :=
  if e.enabled then
    { e with state := .learning, delta := none, learnSum := 0, learnCount := 0, satCount := 0, pending := none
             confirmCount := 0 }
  else e

/-- REBASE (R56, R57). -/
def rebaseOwner (s : State) : State × Answer :=
  if s.mdc.mode = .dozing then refuse .notReady s
  else if s.csu.rebase ≠ .noRebase then refuse .busy s
  else
    (leaveElectrodes (s.withCsu fun c =>
      { c with rebase := .electrodes, electrodes := tabulate fun i => (c.electrodes.get i).relearn }), .only .accepted)

/-- One group's record (R59). -/
def groupEntry (s : State) (g : Fin 3) : GroupEntry :=
  let r := s.csu.groups.get g
  { members := r.members, baseline := r.baseline, carried := r.carried, raw := r.raw, delta := r.delta
    confirmed := r.confirmed, pending := r.pending, confirmCount := r.confirmCount }

/-- One electrode's entry (R59). -/
def electrodeEntry (s : State) (i : Fin 8) : ElectrodeEntry :=
  let e := s.csu.electrodes.get i
  { electrode := i, group := groupOf i, enabled := e.enabled, near := e.near, contact := e.contact, hyst := e.hyst
    state := e.state, raw := e.raw, baseline := e.baseline, delta := e.delta, confirmed := e.confirmed
    pending := e.pending, confirmCount := e.confirmCount, satCount := e.satCount, learnCount := e.learnCount }

/-- READ_ELECTRODES (R59). Where both refusals apply it answers NO_SUCH (log 41). -/
def readElectrodes (first count : Nat) (s : State) : State × Answer :=
  if 8 ≤ first then refuse .noSuch s
  else if 3 < count ∨ 8 < first + count then refuse .badField s
  else if count = 0 then
    (s, { status := .ok
          body := .unit s.csu.resolution s.csu.fullScale s.csu.rebase s.csu.learning (three.map (groupEntry s)) })
  else (s, { status := .ok, body := .electrodes ((rowsFrom eight first count).map (electrodeEntry s)) })

/-! ## The commands that need no completion of a measurement scan -/

/-- ELECTRODE_SETUP. -/
def execElectrodeSetup (dt : Nat) (tag : Byte) (f : ElectrodeFields) (s : State) : Host.Outcome State Fault Refusal :=
  request dt 0x18 tag (electrodeSetup f) s

/-- READ_ELECTRODES. -/
def execReadElectrodes (dt : Nat) (tag : Byte) (first count : Nat) (s : State) : Host.Outcome State Fault Refusal :=
  request dt 0x19 tag (readElectrodes first count) s

/-- REBASE. -/
def execRebase (dt : Nat) (tag : Byte) (s : State) : Host.Outcome State Fault Refusal :=
  request dt 0x1A tag rebaseOwner s

end Sys2Proof.Machine
end

