-- ==== Sys2Proof/Machine/Zones.lean ====
section
/-! DEFINITION. The Zone Monitor (chapter 5): temperatures, fan demands, the changes between RUNNING and DOZING, zone
evaluation with its effects, step timers, and the zone requests without an evaluation. -/

namespace Sys2Proof.Machine

/-- The Zone Monitor's records changed. -/
def State.withZnm (f : Znm → Znm) (s : State) : State := { s with znm := f s.znm }

/-- One zone's record replaced. -/
def State.setZone (z : Fin 6) (r : Zone) (s : State) : State := s.withZnm fun m => { m with zones := m.zones.set z r }

/-- Every zone's record changed. -/
def State.mapZones (f : Fin 6 → Zone → Zone) (s : State) : State :=
  s.withZnm fun m => { m with zones := tabulate fun z => f z (m.zones.get z) }

/-! ## Temperature (R83) -/

/-- The highest of some values. -/
def highest : List Int → Option Int
  | [] => none
  | a :: l => some (l.foldl max a)

/-- The values of a zone's channels that are VALID with a value in a completion (R83), as tenths of a degree. A value that was
formed while the channel was of another kind is taken by its number (the model's choice, log 43). -/
def Zone.readings (z : Zone) (c : Completion) : List Int :=
  z.channels.filterMap fun ch => if c.states.get ch = .valid then c.values.get ch else none

/-- A CHANNELS zone's temperature from a completion (R83). -/
def Zone.derive (c : Completion) (z : Zone) : Zone :=
  if z.enabled ∧ z.source = .channels then { z with temperature := highest (z.readings c) } else z

/-- The temperatures of every CHANNELS zone derived from a completion, in every mode (R83). -/
def deriveZones (c : Completion) (s : State) : State := s.mapZones fun _ z => z.derive c

/-! ## Fan demands (R93) -/

/-- The demand for a temperature, from soft and hard threshold, ceiling and floor (R93). -/
def demandFor (t : Thresholds) (c f : Nat) : Option Int → Nat
  | none => 100
  | some v =>
    let low := t.soft - 80
    if v ≤ low then f
    else if t.hard ≤ v then c
    else f + ((c : Int) - f) * (v - low) / (t.hard - low) |>.toNat

/-- A zone's demand for a fan as it is formed now (R93). -/
def State.demandOf (s : State) (z : Fin 6) (n : Fin 2) : Nat :=
  demandFor (s.active.zones.get z) (s.active.fans.get n).ceiling (s.fanFloor n) (s.znm.zones.get z).temperature

/-- The demands of a zone for its fans, formed anew; none for a fan outside its fan map. -/
def State.demandsOf (s : State) (z : Fin 6) : Vector (Option Nat) 2 :=
  tabulate fun n => if (s.znm.zones.get z).maps n then some (s.demandOf z n) else none

/-- A demand that differs from the one last handed over is handed over, and the fan's target formed (R93, R160). -/
def handDemand (z : Fin 6) (n : Fin 2) (s : State) : State :=
  let r := s.znm.zones.get z
  let d := s.demandOf z n
  if r.maps n = false ∨ r.demand.get n = some d then s
  else applyTarget n (s.setZone z { r with demand := r.demand.set n (some d) })

/-- A zone's demands handed over, one fan after the other. -/
def handDemands (z : Fin 6) (s : State) : State := two.foldl (fun t n => handDemand z n t) s

/-- Every demand formed anew at once, at RUN and at the changes between RUNNING and DOZING; then the targets (R97, R169).
Log 28. -/
def reformDemands (s : State) : State :=
  applyTargets (s.mapZones fun z r => { r with demand := s.demandsOf z })

/-! ## Changes between RUNNING and DOZING (R54, R55, R97, R169, R181) -/

/-- The mode replaced. -/
def State.setMode (m : Mode) (s : State) : State := { s with mdc := { s.mdc with mode := m } }

/-- DOZING to RUNNING, by WAKE or by auto-wake (R184). -/
def wakeUp (s : State) : State := reformDemands (wakeContact (stopContact (s.setMode .running)))

/-- RUNNING to DOZING (R184): the woke flags are cleared too. -/
def goDozing (s : State) : State :=
  reformDemands ((dozeContact (stopContact (s.setMode .dozing))).mapZones fun _ r => { r with woke := false })

/-! ## Evaluation (R87, R88, R91, R92, R94) -/

/-- The entry threshold of a level (R87). -/
def Thresholds.entry (t : Thresholds) : Nat → Int
  | 1 => t.soft
  | 2 => t.hard
  | _ => t.critical

/-- The highest level whose entry threshold a temperature reaches (R87). -/
def targetLevel (t : Thresholds) (v : Int) : Nat :=
  if t.critical ≤ v then 3 else if t.hard ≤ v then 2 else if t.soft ≤ v then 1 else 0

/-- The state an evaluation gives (R87). OFF does not occur where zones are evaluated. -/
def judge (t : Thresholds) (hysteresis : Nat) (old : ZoneState) : Option Int → ZoneState
  | none => .faulted
  | some v =>
    let target := targetLevel t v
    match old with
    | .faulted => .ofLevel target
    | .off => .ofLevel target
    | _ =>
      let level := old.level
      if level < target then .ofLevel target
      else if 0 < level ∧ v ≤ Thresholds.entry t level - hysteresis then .ofLevel (level - 1)
      else old

/-- An entry to WARM, HOT or CRITICAL from below or from FAULTED (R94). -/
def entersWarm (old new : ZoneState) : Bool := 0 < new.level && (old == .faulted || old.level < new.level)

/-- The ZONE notice of a zone as it stands (R88). -/
def postZone (z : Fin 6) (s : State) : State :=
  let r := s.znm.zones.get z
  s.post (.zone z r.state r.temperature r.r r.woke)

/-- Some zone is CRITICAL. -/
def State.anyCritical (s : State) : Bool := six.any fun z => (s.znm.zones.get z).state == .critical

/-- The thermal claim follows the zones (R92). -/
def updateThermalClaim (s : State) : State :=
  if s.anyCritical = s.znm.thermalClaim then s
  else if s.anyCritical then addCauseTo six .thermal (s.withZnm fun m => { m with thermalClaim := true })
  else withdrawCauseFrom six .thermal (s.withZnm fun m => { m with thermalClaim := false })

/-- A zone's severity change is handed to the Allocator and, as a lift, to its fans (R91, R160). -/
def handSevere (z : Fin 6) (old : ZoneState) (s : State) : State :=
  let new := (s.znm.zones.get z).state
  if new.severe = old.severe then updateThermalClaim s
  else
    let t := updateThermalClaim (handSeverity z new.severe s)
    two.foldl (fun u n => if (s.znm.zones.get z).maps n then applyTarget n u else u) t

/-- A changed state's notice, wake and severity (R88, R91, R94). Log 32. -/
def zoneChanged (z : Fin 6) (old : ZoneState) (wakes : Bool) (s : State) : State :=
  handSevere z old (if wakes then wakeUp (postZone z s) else postZone z s)

/-- A zone is evaluated (R86, R87): in RUNNING and DOZING, when it is enabled. -/
def evaluateZone (z : Fin 6) (s : State) : State :=
  let r := s.znm.zones.get z
  if !s.managed || !r.enabled then s
  else
    let new := judge (s.active.zones.get z) s.active.hysteresis r.state r.temperature
    let wakes := s.mdc.mode == .dozing && entersWarm r.state new
    if new = r.state then handDemands z s
    else handDemands z (zoneChanged z r.state wakes (s.setZone z { r with state := new, woke := r.woke || wakes }))

/-! ## Steps (R89, R90) -/

/-- The largest reduction of a zone. -/
def maxReduction : Nat := 250000

/-- The reduction after a step (R90). -/
def Zone.stepped (step : Nat) (z : Zone) : Nat :=
  match z.state with
  | .warm =>
    match z.lastStepTemp, z.temperature with
    | none, _ => min maxReduction (z.r + step)
    | some _, none => z.r
    | some l, some v => if l ≤ v then min maxReduction (z.r + step) else z.r
  | .normal => z.r - step
  | _ => z.r

/-- A step timer expires (R89, R90, R91). -/
def stepZone (z : Fin 6) (s : State) : State :=
  let r := s.znm.zones.get z
  let new := r.stepped s.active.thermalStep
  let t := s.setZone z
    { r with r := new, lastStepTemp := r.temperature, stepTimer := some (s.now + ms s.active.stepInterval) }
  if new = r.r then t else handReduction z new t

/-- STEP_TIMER_EXPIRY (R90). -/
def execStepTimerExpiry (z : Fin 6) (s : State) : Host.Outcome State Fault Refusal :=
  .next (atExpiry (s.znm.zones.get z).stepTimer (stepZone z) s)

/-! ## RUN and RESTART (R97, R98) -/

/-- A zone at RUN (R97). -/
def Zone.atRun (timer : Nat) (z : Zone) : Zone :=
  if z.enabled then { z with state := .normal, r := 0, lastStepTemp := none, stepTimer := some timer, woke := false }
  else z

/-- The zones at RUN, with their notices; the demands follow with the fan targets (R97). -/
def zonesRun (s : State) : State :=
  let t := s.mapZones fun _ r => r.atRun (s.now + ms s.active.stepInterval)
  six.foldl (fun u z => if (u.znm.zones.get z).enabled then postZone z u else u) t

/-- A zone at RESTART (R98). -/
def Zone.restart (z : Zone) : Zone :=
  { z with state := .off, r := 0, stepTimer := none, lastStepTemp := none, woke := false, temperature := none
           lastFeed := none, feedTimer := none, demand := Vector.replicate 2 none }

/-- The Zone Monitor at RESTART (R98). -/
def restartZones (s : State) : State :=
  (s.mapZones fun _ r => r.restart).withZnm fun m => { m with thermalClaim := false }

/-! ## ZONE_SETUP and READ_ZONES (R81, R82, R96) -/

/-- The channel count a source asks for (step 3 of R81). -/
def countFits (k : ZoneSource) (n : Nat) : Bool :=
  match k with
  | .channels => n == 1 || n == 2
  | .fed => n == 0

/-- The record after an accepted setup (R82). A disabled CHANNELS zone has no temperature (log 18). Between RESTART and the
next completion a CHANNELS zone takes the values of the completion before RESTART (the model's choice between R82 and R98, log
46), and a value of a channel that was of another kind then is taken by its number (log 43). -/
def Zone.setup (f : ZoneFields) (k : ZoneSource) (c : Completion) (z : Zone) : Zone :=
  let fresh : Zone :=
    { z with enabled := f.enabled, source := k, channels := f.channels.filterMap (index? 16)
             fanMap := two.filter fun n => f.fanMap.getLsbD n, temperature := none, lastFeed := none, feedTimer := none }
  fresh.derive c

/-- ZONE_SETUP (R81, R82). -/
def zoneSetup (f : ZoneFields) (s : State) : State × Answer :=
  if s.managed then refuse .notReady s
  else match index? 6 f.zone with
    | none => refuse .noSuch s
    | some z =>
      match f.source with
      | none => refuse .badField s
      | some k =>
        if !countFits k f.channels.length || 4 ≤ f.fanMap.toNat then refuse .badField s
        else if f.channels.any (16 ≤ ·) then refuse .noSuch s
        else if !distinct f.channels then refuse .badField s
        else if f.enabled && k == .channels && !(f.channels.filterMap (index? 16)).all (s.kindIs · .temp) then
          refuse .conflict s
        else (s.setZone z ((s.znm.zones.get z).setup f k s.msu.last), .only .ok)

/-- One zone's entry (R96). The feed age is in ms, rounded down (log 9). -/
def zoneEntry (s : State) (z : Fin 6) : ZoneEntry :=
  let r := s.znm.zones.get z
  { zone := z, enabled := r.enabled, source := r.source, channels := r.channels, fanMap := r.fanMap
    temperature := r.temperature, state := r.state, r := r.r, stepRemaining := s.timerLeft r.stepTimer
    lastStepTemp := r.lastStepTemp, feedAge := r.lastFeed.map fun t => (s.now - t) / 1000
    feedRemaining := s.timerLeft r.feedTimer, woke := r.woke }

/-- READ_ZONES (R96). Where both refusals apply it answers NO_SUCH (log 41). -/
def readZones (first count : Nat) (s : State) : State × Answer :=
  if 6 ≤ first then refuse .noSuch s
  else if 2 < count ∨ 6 < first + count then refuse .badField s
  else if count = 0 then
    (s, { status := .ok
          body := .zoneSummary s.znm.thermalClaim (sumSix fun z => (s.znm.zones.get z).r)
            (six.map fun z => (s.znm.zones.get z).state) })
  else (s, { status := .ok, body := .zones ((rowsFrom six first count).map (zoneEntry s)) })

/-- ZONE_SETUP. -/
def execZoneSetup (dt : Nat) (tag : Byte) (f : ZoneFields) (s : State) : Host.Outcome State Fault Refusal :=
  request dt 0x20 tag (zoneSetup f) s

/-- READ_ZONES. -/
def execReadZones (dt : Nat) (tag : Byte) (first count : Nat) (s : State) : Host.Outcome State Fault Refusal :=
  request dt 0x22 tag (readZones first count) s

end Sys2Proof.Machine
end

