-- ==== Sys2Proof/Machine/Source.lean ====
section
/-! DEFINITION. The Source Monitor (sections 6.1 to 6.5): the source limit, adapter presence, the battery, and SOURCE_SETUP. -/

namespace Sys2Proof.Machine

/-- The source record changed. -/
def State.withSrm (f : Srm → Srm) (s : State) : State := { s with srm := f s.srm }

/-- The chassis system reserve, 0 before the lock. -/
def State.reserveOf (s : State) : Nat :=
  match s.lst.chassis with
  | none => 0
  | some c => c.systemReserve

/-- The source limit (R102). -/
def Srm.limit (reserve : Nat) (r : Srm) : Option Nat :=
  r.setup.map fun u =>
    if r.adapterPresent then u.rating - reserve
    else if r.battery = .normal then u.discharge else u.lowLimit

/-- The source severity (R99, R105). -/
def Srm.severe (managed : Bool) (r : Srm) : Bool := managed && r.battery == .critical && !r.adapterPresent

/-- The source limit is formed anew (R102). -/
def formLimit (s : State) : State := s.withSrm fun r => { r with sourceLimit := r.limit s.reserveOf }

/-- The severity and the SOURCE claim follow battery and adapter (R105). -/
def updateSeverity (s : State) : State :=
  let v := s.srm.severe s.managed
  if v = s.srm.severity then s
  else
    let t := s.withSrm fun r => { r with severity := v }
    if v then addCauseTo six .source t else withdrawCauseFrom six .source t

/-- A SOURCE notice as the record stands (R106). -/
def postSource (s : State) : State := s.post (.source s.srm.adapterPresent s.srm.battery s.srm.sourceLimit)

/-- A change of adapter presence or battery state: limit, severity, notice, hand-over (R103, R104, R106). -/
def sourceChanged (s : State) : State := handSource (postSource (updateSeverity (formLimit s)))

/-- The Placement Unit delivers adapter presence (R62, R103). -/
def deliverAdapter (here : Bool) (s : State) : State :=
  if here = s.srm.adapterPresent then s else sourceChanged (s.withSrm fun r => { r with adapterPresent := here })

/-- The accepted ADP level changes (R62). -/
def changeAdp (s : State) : State :=
  let t := s.withPlu fun r => { r with adp := r.adp.accept }
  deliverAdapter (t.plu.adp.accepted == .high) t

/-- ADP_CHANGE (R61, R62, R103). -/
def execAdpChange (s : State) : Host.Outcome State Fault Refusal := .next (atExpiry s.plu.adp.changeDue changeAdp s)

/-! ## The battery (R104) -/

/-- One transition of the battery state, or none (R104). -/
def batteryStep (u : SourceSetup) (v : Nat) : Battery → Battery
  | .normal => if v ≤ u.lowThreshold then .low else .normal
  | .low =>
    if u.lowThreshold + u.hysteresis ≤ v then .normal else if v ≤ u.criticalThreshold then .critical else .low
  | .critical => if u.criticalThreshold + u.hysteresis ≤ v then .low else .critical

/-- The battery state after an evaluation: the transitions in turn, at most two steps (R104). -/
def batteryAfter (u : SourceSetup) (v : Nat) (b : Battery) : Battery := batteryStep u v (batteryStep u v b)

/-- The battery evaluated from a completion (R104). -/
def Srm.evaluated (c : Completion) (r : Srm) : Battery :=
  match r.setup with
  | none => r.battery
  | some u =>
    match c.magnitude u.batteryChannel with
    | none => r.battery
    | some v => batteryAfter u v r.battery

/-- The battery evaluation of a completion, in RUNNING and DOZING (R104, R105, R106). -/
def sourceCompletion (c : Completion) (s : State) : State :=
  let b := s.srm.evaluated c
  if !s.managed || b = s.srm.battery then s else sourceChanged (s.withSrm fun r => { r with battery := b })

/-- The evaluation at RUN (R117): the hand-over to the Allocator follows with its own entry. -/
def sourceRun (s : State) : State :=
  let b := s.srm.evaluated s.msu.last
  if b = s.srm.battery then updateSeverity (formLimit s)
  else postSource (updateSeverity (formLimit (s.withSrm fun r => { r with battery := b })))

/-- The source record at RESTART, before the adapter presence is delivered again (R99, R117). -/
def restartSource (s : State) : State :=
  formLimit (s.withSrm fun r => { r with battery := .normal, severity := false })

/-! ## SOURCE_SETUP (R100, R101) -/

/-- Step 2 of R100. -/
def sourceFieldsOk (f : SourceFields) : Bool :=
  f.rating ≤ 250000 && f.discharge ≤ 250000 && f.lowLimit ≤ 250000 && f.lowLimit ≤ f.discharge && 1 ≤ f.lowThreshold &&
  f.lowThreshold ≤ 65535 && f.criticalThreshold < f.lowThreshold && 50 ≤ f.hysteresis && f.hysteresis ≤ 400

/-- Step 3 of R100: the channels named exist. -/
def sourceChannels (f : SourceFields) : Option (Fin 16 × Option (Fin 16 × Fin 16)) :=
  match index? 16 f.batteryChannel, f.pair with
  | none, _ => none
  | some b, none => some (b, none)
  | some b, some (i, v) =>
    match index? 16 i, index? 16 v with
    | some ci, some cv => some (b, some (ci, cv))
    | _, _ => none

/-- Step 4 of R100: the kinds fit. -/
def sourceKindsOk (s : State) (b : Fin 16) (pair : Option (Fin 16 × Fin 16)) : Bool :=
  s.kindIs b .voltage && pair.all fun p => s.kindIs p.1 .current && s.kindIs p.2 .voltage

/-- An accepted SOURCE_SETUP (R101): the limit is formed anew and a change handed over. -/
def storeSource (u : SourceSetup) (s : State) : State :=
  handSource (formLimit (s.withSrm fun r => { r with setup := some u }))

/-- SOURCE_SETUP (R100, R101). -/
def sourceSetup (f : SourceFields) (s : State) : State × Answer :=
  if s.lst.chassis.isNone then refuse .notReady s
  else if !sourceFieldsOk f then refuse .badField s
  else match sourceChannels f with
    | none => refuse .noSuch s
    | some (b, pair) =>
      if !sourceKindsOk s b pair then refuse .conflict s
      else
        let t := storeSource
          { rating := f.rating, discharge := f.discharge, lowLimit := f.lowLimit, batteryChannel := b
            lowThreshold := f.lowThreshold, criticalThreshold := f.criticalThreshold, hysteresis := f.hysteresis
            pair := pair } s
        (t, { status := .ok, body := .sourceLimit t.srm.sourceLimit })

/-- SOURCE_SETUP. -/
def execSourceSetup (dt : Nat) (tag : Byte) (f : SourceFields) (s : State) : Host.Outcome State Fault Refusal :=
  request dt 0x28 tag (sourceSetup f) s

end Sys2Proof.Machine
end

