-- ==== Sys2Proof/Machine/Completion.lean ====
section
/-! DEFINITION. The measurement completion and its consumers (R30), the hand-over of a new active set (R12, R13), the guard
(R182), and the commands that may end in either: timer matches, conversion ends, feeds. -/

namespace Sys2Proof.Machine

/-! ## A new active set (R12, R13, R14) -/

/-- The consumers of a new active set: 0 the Allocator, 1 to 6 the zones Z0 to Z5, 7 the Fan Controller. A zone or fan that
acts before the Allocator already recomputes with the new set's caps (log 34). -/
def setConsumer (cause : RoundCause) : Nat → State → State
  | 0, s => takeNewSet cause s
  | n + 1, s =>
    match index? 6 n with
    | some z => evaluateZone z s
    | none => applyTargets s

/-- In RUNNING and DOZING the active set is handed to its consumers, in a free order (R12, R13, R14). Log 3. -/
def handSet (cause : RoundCause) (s : State) : State :=
  if s.managed then inFreeOrder 8 (setConsumer cause) s else s

/-! ## The guard (R182) -/

/-- The values the guard looks at: of the enabled TEMP channels, those present in the completion. -/
def guardValues (c : Completion) (s : State) : List Int :=
  sixteen.filterMap fun n =>
    let r := s.msu.channels.get n
    if r.enabled ∧ r.kind = .temp then c.values.get n else none

/-- The guard claim replaced. -/
def State.setGuard (v : Bool) (s : State) : State := { s with mdc := { s.mdc with guardClaim := v } }

/-- The guard judged against its temperature (R182). -/
def judgeGuard (c : Completion) (s : State) : State :=
  match s.lst.chassis with
  | none => s
  | some l =>
    let values := guardValues c s
    if s.mdc.guardClaim then
      if values.all (· < l.guardTemp - 50) then withdrawCauseFrom six .guard (s.setGuard false) else s
    else if values.any (l.guardTemp ≤ ·) then addCauseTo six .guard (s.setGuard true)
    else s

/-! ## The completion (R30) -/

/-- What a completion carries at this moment (R30). -/
def State.completionNow (s : State) : Completion :=
  { number := (s.msu.last.number + 1) % 65536, timeMs := s.nowMs
    values := tabulate fun n => (s.msu.channels.get n).value, states := tabulate fun n => (s.msu.channels.get n).state }

/-- The consumers of a completion in RUNNING and DOZING: 0 to 5 the zones, 6 the Source Monitor, 7 the Allocator. -/
def completionConsumer (c : Completion) (dtMs : Nat) : Nat → State → State
  | 6, s => sourceCompletion c s
  | 7, s => allocatorCompletion c dtMs s
  | n, s =>
    match index? 6 n with
    | some z => evaluateZone z s
    | none => s

/-- The consumers act on a completion by the mode, in a free order (R30, R145). Log 3. -/
def consume (c : Completion) (dtMs : Nat) (s : State) : State :=
  match s.mdc.mode with
  | .prepare => s
  | .locked => judgeGuard c s
  | _ => inFreeOrder 8 (completionConsumer c dtMs) s

/-- The measurement completion (R29, R30): the scan is no longer in flight, the number advances, temperatures are derived and
the consumers act. -/
def completeMeasurement (s : State) : State :=
  let c := s.completionNow
  consume c (c.timeMs - s.msu.last.timeMs) (deriveZones c (s.withMsu fun m => { m with scan := none, last := c }))

/-- A scan that has nothing left to convert completes, and the front end is handed on (R29, R32). Log 22. -/
def finishScan (s : State) : State := if s.scanSpent then handOnFrontEnd (completeMeasurement s) else s

/-- The same after a step from `s` to `t`: a scan that the step has left with nothing to convert completes in it. -/
def finishNew (s t : State) : State := if s.scanSpent then t else finishScan t

/-- An owner whose step may leave a scan with nothing to convert. -/
def finishing (owner : State → State × Answer) (s : State) : State × Answer := (finishNew s (owner s).1, (owner s).2)

/-! ## SEQUENCE_TIMER_MATCH (R26 to R29) -/

/-- The sequence timer returns to 0 at a match and loads the mode's period (R27). -/
def reloadSequenceTimer (due : Nat) (s : State) : State :=
  s.withMsu fun m => { m with seqStart := due, seqPeriod := s.mdc.mode.scanPeriod }

/-- The channels that left the list since the previous copy lose history and last raw (R26). -/
def dropLeft (s : State) : State :=
  s.withMsu fun m =>
    { m with prevCopy := m.scanList
             channels := tabulate fun n =>
               if m.prevCopy.contains n && !m.scanList.contains n then
                 { m.channels.get n with history := [], lastRaw := none }
               else m.channels.get n }

/-- A trigger is taken (R26, R28, R29, R32). -/
def takeTrigger (s : State) : State :=
  let t := dropLeft s
  if t.msu.scanList = [] then completeMeasurement t
  else
    let u := t.withMsu fun m =>
      { m with scan := some { todo := m.scanList, current := none }, pendingMeas := true }
    if u.msu.frontEnd = .free then finishScan (beginMeasurement u) else u

/-- SEQUENCE_TIMER_MATCH (R27, R28). -/
def execSequenceTimerMatch (s : State) : Host.Outcome State Fault Refusal :=
  let due := s.msu.seqStart + ms s.msu.seqPeriod
  let t := reloadSequenceTimer due (s.reach due)
  .next (if t.msu.scan.isSome then detect .scanOverrun 0 t else takeTrigger t)

/-! ## CHANNEL_CONVERSION_END (R21, R23, R29) -/

/-- The channel conversion in progress. -/
def State.converting (s : State) : Option ChannelConversion := s.msu.scan.bind (·.current)

/-- A conversion's end: its result, unless it is discarded, and the next conversion (R20, R23, R24). -/
def endChannelConversion (raw : Nat) (v : ChannelConversion) (s : State) : State :=
  finishScan (advanceScan (if v.discard then s else convertChannel v.channel raw v.gain v.offset s))

/-- CHANNEL_CONVERSION_END (R23). -/
def execChannelConversionEnd (raw : BitVec 12) (s : State) : Host.Outcome State Fault Refusal :=
  match s.converting with
  | none => .next s
  | some v => .next (endChannelConversion raw.toNat v (s.reach v.doneAt))

/-! ## ELECTRODE_CONVERSION_END and GROUP_CONVERSION_END (R44, R51) -/

/-- The contact conversion in progress. -/
def State.sensing (s : State) : Option ContactConversion := s.csu.scan.bind (·.current)

/-- No conversion is in progress any more; a measured group is noted for its learning. -/
def noteMeasured (g : Option (Fin 3)) (s : State) : State :=
  s.withCsu fun c =>
    { c with scan := c.scan.map fun m => { m with current := none, measured := m.measured ++ g.toList } }

/-- The end of an electrode's conversion (R44). -/
def endElectrodeConversion (i : Fin 8) (raw : Nat) (v : ContactConversion) (s : State) : State :=
  let t := noteMeasured none s
  finishScan (afterContactConversion (if v.discard then t else convertElectrode i raw t))

/-- ELECTRODE_CONVERSION_END (R44). -/
def execElectrodeConversionEnd (raw : BitVec 16) (s : State) : Host.Outcome State Fault Refusal :=
  match s.sensing with
  | none => .next s
  | some v =>
    match v.target with
    | .electrode i => .next (endElectrodeConversion i raw.toNat v (s.reach v.doneAt))
    | .group _ => .next s

/-- The end of a group's conversion (R51). -/
def endGroupConversion (g : Fin 3) (raw : Nat) (s : State) : State :=
  let t := noteMeasured (some g) s
  finishScan (afterContactConversion (t.withCsu fun c => c.convertGroup g (min raw c.fullScale)))

/-- GROUP_CONVERSION_END (R51). -/
def execGroupConversionEnd (raw : BitVec 16) (s : State) : Host.Outcome State Fault Refusal :=
  match s.sensing with
  | none => .next s
  | some v =>
    match v.target with
    | .group g => .next (endGroupConversion g raw.toNat (s.reach v.doneAt))
    | .electrode _ => .next s

/-! ## ELECTRODE_SETUP for the unit record (R39, R41) -/

/-- ELECTRODE_SETUP with target 8 (R39, R41). -/
def electrodeSetupResolution (resolution : Nat) (s : State) : State × Answer :=
  if s.managed then refuse .notReady s
  else if resolution < 9 ∨ 16 < resolution then refuse .badField s
  else if resolution = s.csu.resolution then (s, .only .ok)
  else (changeResolution resolution s, .only .ok)

/-- ELECTRODE_SETUP_RESOLUTION. -/
def execElectrodeSetupResolution (dt : Nat) (tag : Byte) (resolution : Nat) (s : State) :
    Host.Outcome State Fault Refusal :=
  request dt 0x18 tag (finishing (electrodeSetupResolution resolution)) s

/-! ## ZONE_FEED and FEED_TIMER_EXPIRY (R84, R85) -/

/-- A zone after an accepted feed (R84). -/
def Zone.feed (v : Option Int) (now : Nat) (z : Zone) : Zone :=
  { z with temperature := v, lastFeed := some now, feedTimer := if v.isSome then some (now + sec 2) else none }

/-- ZONE_FEED (R84). Of several refusals that apply the first in the text answers (log 41). -/
def zoneFeed (zone : Nat) (v : Option Int) (s : State) : State × Answer :=
  match index? 6 zone with
  | none => refuse .noSuch s
  | some z =>
    let r := s.znm.zones.get z
    if !r.enabled || r.source == .channels then refuse .conflict s
    else if v.any fun x => x < -400 || 1500 < x then refuse .badField s
    else (evaluateZone z (s.setZone z (r.feed v s.now)), .only .ok)

/-- ZONE_FEED. -/
def execZoneFeed (dt : Nat) (tag : Byte) (zone : Nat) (v : Option Int) (s : State) : Host.Outcome State Fault Refusal :=
  request dt 0x21 tag (finishing (zoneFeed zone v)) s

/-- A feed timer expires (R85). -/
def staleZone (z : Fin 6) (s : State) : State :=
  let r := s.znm.zones.get z
  finishNew s <| evaluateZone z <| detect .zoneStale z <| s.setZone z { r with temperature := none, feedTimer := none }

/-- FEED_TIMER_EXPIRY (R85). -/
def execFeedTimerExpiry (z : Fin 6) (s : State) : Host.Outcome State Fault Refusal :=
  .next (atExpiry (s.znm.zones.get z).feedTimer (staleZone z) s)

end Sys2Proof.Machine
end

