-- ==== Sys2Proof/Machine/Placement.lean ====
section
/-! DEFINITION. The Placement Unit's decisions (sections 4.5 to 4.8): dwell expiry, placement changes, pins and RESTART. -/

namespace Sys2Proof.Machine

/-- The PLACEMENT notice of the record as it stands, with the placement before the event (R71). -/
def postPlacement (previous : Placement) (s : State) : State :=
  s.post (.placement s.plu.placement previous s.plu.pin.isSome s.plu.evidence)

/-- A placement that differs from the previous one is reported to the Limit Store (R13, R70). -/
def reportPlacement (previous : Placement) (s : State) : State :=
  if s.plu.placement = previous then s else handSet .placement s

/-- The report and then the notice of an event that may have changed the placement (R70, R71). -/
def tellPlacement (previous : Placement) (s : State) : State := postPlacement previous (reportPlacement previous s)

/-! ## DWELL_EXPIRY (R69) -/

/-- The dwell's expiry: the candidate becomes the placement, or waits for the end of a pin (R69). -/
def expireDwell (s : State) : State :=
  match s.plu.pin, s.plu.candidate with
  | some _, _ => s.withPlu fun r => { r with dwell := .elapsed }
  | none, none => s.withPlu fun r => { r with dwell := .idle }
  | none, some p =>
    finishNew s <| tellPlacement s.plu.placement <| s.withPlu fun r =>
      { r with placement := .settled p, dwell := .idle }

/-- The expiry of a RUNNING dwell. -/
def Dwell.due : Dwell → Option Nat
  | .running t => some t
  | _ => none

/-- DWELL_EXPIRY (R69). -/
def execDwellExpiry (s : State) : Host.Outcome State Fault Refusal := .next (atExpiry s.plu.dwell.due expireDwell s)

/-! ## Pins (R72 to R77) -/

/-- A dwell's state in a report (R72). -/
def Dwell.state : Dwell → DwellState
  | .idle => .idle
  | .running _ => .running
  | .elapsed => .elapsed

/-- The placement report (R72). -/
def State.placementReport (s : State) : PlacementReport :=
  { placement := s.plu.placement, pinned := s.plu.pin.isSome, pinRemaining := s.timerLeft (s.plu.pin.bind (·.expiry))
    candidate := s.plu.candidate, dwell := s.plu.dwell.state, dwellRemaining := s.timerLeft s.plu.dwell.due
    evidence := s.plu.evidence }

/-- The reply with a placement report. -/
def placementAnswer (s : State) : Answer := { status := .ok, body := .placement s.placementReport }

/-- The dwell brought into line with a pinned placement (R74, R75). -/
def alignDwell (p : SetId) (candidate : Option SetId) (fresh : Nat) (d : Dwell) : Dwell :=
  match candidate with
  | none => .idle
  | some c =>
    if c = p then .idle
    else match d with
      | .idle => .running fresh
      | other => other

/-- The expiry a fresh dwell of the present candidate would have (R15, R74). -/
def State.freshDwell (s : State) : Nat :=
  match s.plu.candidate with
  | none => s.now
  | some c => s.now + ms (s.entryDwell c)

/-- A pin is created or replaced (R74, R75). -/
def pinPlacement (p : SetId) (timeout : Option Nat) (s : State) : State :=
  tellPlacement s.plu.placement <| s.withPlu fun r =>
    { r with pin := some { placement := p, expiry := timeout.map fun t => s.now + sec t }, placement := .settled p
             dwell := alignDwell p r.candidate s.freshDwell r.dwell }

/-- The placement a pin's code names (R73). -/
def pinCode : Nat → Option SetId
  | 1 => some .desk
  | 2 => some .lap
  | 3 => some .bag
  | 4 => some .moving
  | _ => none

/-- PLACEMENT_PIN (R73 to R75). -/
def placementPin (code : Nat) (timeout : Option Nat) (s : State) : State × Answer :=
  match pinCode code with
  | none => refuse .badField s
  | some p =>
    if timeout.any fun t => t < 1 || 3600 < t then refuse .badField s
    else
      let t := pinPlacement p timeout s
      (t, placementAnswer t)

/-- The record at the end of a pin (R76). -/
def Plu.unpin (r : Plu) : Plu :=
  match r.dwell, r.candidate with
  | .elapsed, some c => { r with pin := none, placement := .settled c, dwell := .idle }
  | _, _ => { r with pin := none }

/-- A pin ends (R76). -/
def endPin (s : State) : State := tellPlacement s.plu.placement (s.withPlu (·.unpin))

/-- PLACEMENT_UNPIN (R77). -/
def placementUnpin (s : State) : State × Answer :=
  if s.plu.pin.isSome then
    let t := endPin s
    (t, placementAnswer t)
  else (s, placementAnswer s)

/-- PLACEMENT_PIN. -/
def execPlacementPin (dt : Nat) (tag : Byte) (code : Nat) (timeout : Option Nat) (s : State) :
    Host.Outcome State Fault Refusal :=
  request dt 0x38 tag (finishing (placementPin code timeout)) s

/-- PLACEMENT_UNPIN. -/
def execPlacementUnpin (dt : Nat) (tag : Byte) (s : State) : Host.Outcome State Fault Refusal :=
  request dt 0x39 tag (finishing placementUnpin) s

/-- PIN_EXPIRY (R76). -/
def execPinExpiry (s : State) : Host.Outcome State Fault Refusal :=
  .next (atExpiry (s.plu.pin.bind (·.expiry)) (fun t => finishNew t (endPin t)) s)

/-! ## RESTART (R62, R79) -/

/-- The Placement Unit at RESTART (R79). -/
def restartPlacement (s : State) : State :=
  s.withPlu fun r => { r with placement := .unsettled, pin := none, candidate := none, dwell := .idle }

/-- The accepted ADP level delivered once more (R62). -/
def redeliverAdapter (s : State) : State := deliverAdapter (s.plu.adp.accepted == .high) s

end Sys2Proof.Machine
end

