-- ==== Sys2Proof/Machine/Limits.lean ====
section
/-! DEFINITION. The Limit Store's requests (chapter 1): CHASSIS_LIMITS, LOAD_SET and READ_SET. -/

namespace Sys2Proof.Machine

/-- The Limit Store changed. -/
def State.withLst (f : Lst → Lst) (s : State) : State := { s with lst := f s.lst }

/-- The number of the first field whose check fails, counting from `n`. -/
def firstFailing : Nat → List Bool → Option Nat
  | _, [] => none
  | n, b :: l => if b then firstFailing (n + 1) l else some n

/-- A power within bounds that is a multiple of the grant step. -/
def stepIn (lo hi n : Nat) : Bool := lo ≤ n && n ≤ hi && isStep n

/-- A number within bounds. -/
def within (lo hi n : Nat) : Bool := lo ≤ n && n ≤ hi

/-- A temperature within bounds. -/
def withinT (lo hi v : Int) : Bool := lo ≤ v && v ≤ hi

/-- The checks of the fourteen chassis fields in field-number order (R1, R2). -/
def chassisChecks (f : ChassisLimits) : List Bool :=
  [stepIn 250 250000 f.maxSustained, stepIn 250 250000 f.maxBurst && f.maxSustained ≤ f.maxBurst,
    stepIn 0 250000 f.minBudget && f.minBudget ≤ f.maxSustained] ++
  six.map (fun z => withinT (-400) 1500 (f.zoneCeiling.get z)) ++
  [within 5 200 f.sourceDeadline, withinT 0 1500 f.guardTemp, stepIn 0 250000 (f.stallDerate.get 0),
    stepIn 0 250000 (f.stallDerate.get 1), within 0 250000 f.systemReserve]

/-- The check of a zone field: range and strict order (R6, R8). -/
def thresholdsOk (t : Thresholds) : Bool :=
  withinT (-400) 1500 t.soft && withinT (-400) 1500 t.hard && withinT (-400) 1500 t.critical && t.soft < t.hard &&
  t.hard < t.critical

/-- The check of a fan field (R6, R8). -/
def fanLimitsOk (f : FanLimits) : Bool := f.floor ≤ 100 && f.ceiling ≤ 100 && f.floor ≤ f.ceiling

/-- Stage 2: the checks of the nineteen fields in field-number order (R6, R8). -/
def setChecks (f : LimitSet) : List Bool :=
  [stepIn 0 250000 f.sustained, stepIn 0 250000 f.burst && f.sustained ≤ f.burst,
    within 0 2000000 f.bucket && (f.bucket != 0 || f.burst == f.sustained), within 10 100 f.rearm,
    within 5 100 f.hysteresis, stepIn 250 8000 f.thermalStep, within 250 5000 f.stepInterval,
    stepIn 0 250000 f.chargeCap, within 10 5000 f.compliance, within 0 5000 f.tolerance, within 500 30000 f.entryDwell] ++
  six.map (fun z => thresholdsOk (f.zones.get z)) ++ two.map fun n => fanLimitsOk (f.fans.get n)

/-- Stage 4: the same nineteen places, where only fields 1, 2 and 12 to 17 have a chassis bound (R9). -/
def boundChecks (c : ChassisLimits) (f : LimitSet) : List Bool :=
  [c.minBudget ≤ f.sustained && f.sustained ≤ c.maxSustained, decide (f.burst ≤ c.maxBurst), true, true, true, true, true,
    true, true, true, true] ++
  six.map fun z => decide ((f.zones.get z).critical ≤ c.zoneCeiling.get z)

/-! ## CHASSIS_LIMITS (R2, R3) -/

/-- PREPARE to LOCKED, a change of mode (R3, R54, R169). -/
def enterLocked (s : State) : State :=
  if s.mdc.mode = .prepare then applyTargets (stopContact (s.setMode .locked)) else s

/-- CHASSIS_LIMITS (R2, R3). -/
def chassisLimits (f : ChassisLimits) (s : State) : State × Answer :=
  if s.lst.chassis.isSome then refuse .locked s
  else match firstFailing 1 (chassisChecks f) with
    | some n => (s, { status := .badField, body := .field n })
    | none => (enterLocked (s.withLst fun l => { l with chassis := some f }), .only .ok)

/-- CHASSIS_LIMITS. -/
def execChassisLimits (dt : Nat) (tag : Byte) (f : ChassisLimits) (s : State) : Host.Outcome State Fault Refusal :=
  request dt 0x08 tag (finishing (chassisLimits f)) s

/-! ## LOAD_SET (R7 to R10, R14) -/

/-- A set becomes VALID with new values (R10). -/
def storeSet (p : SetId) (f : LimitSet) (s : State) : State :=
  s.withLst fun l => { l with sets := l.sets.set p.index (some f) }

/-- An accepted LOAD_SET: stored, and handed over when it names the active set in RUNNING or DOZING (R10, R14). -/
def acceptSet (p : SetId) (f : LimitSet) (s : State) : State :=
  if p = s.activeId then handSet .setLoad (storeSet p f s) else storeSet p f s

/-- LOAD_SET (R7). -/
def loadSet (number : Nat) (f : LimitSet) (s : State) : State × Answer :=
  match setOfNumber number with
  | none => refuse .noSuch s
  | some p =>
    match firstFailing 1 (setChecks f) with
    | some n => (s, { status := .badField, body := .field n })
    | none =>
      match s.lst.chassis with
      | none => refuse .notReady s
      | some c =>
        match firstFailing 1 (boundChecks c f) with
        | some n => (s, { status := .outOfLimits, body := .field n })
        | none => (acceptSet p f s, .only .ok)

/-- LOAD_SET. -/
def execLoadSet (dt : Nat) (tag : Byte) (number : Nat) (f : LimitSet) (s : State) : Host.Outcome State Fault Refusal :=
  request dt 0x09 tag (finishing (loadSet number f)) s

/-! ## READ_SET (R16, R17) -/

/-- READ_SET with selector 4 (R17). -/
def readChassis (s : State) : State × Answer := (s, { status := .ok, body := .chassis s.lst.chassis })

/-- READ_SET (R16, R17). -/
def readSet (selector : Nat) (s : State) : State × Answer :=
  if selector = 4 then readChassis s
  else match setOfNumber selector with
    | none => refuse .noSuch s
    | some p => (s, { status := .ok, body := .set p (p == s.activeId) (s.lst.get p) })

/-- READ_SET. -/
def execReadSet (dt : Nat) (tag : Byte) (selector : Nat) (s : State) : Host.Outcome State Fault Refusal :=
  request dt 0x0A tag (readSet selector) s

/-- READ_SET_CHASSIS. -/
def execReadSetChassis (dt : Nat) (tag : Byte) (s : State) : Host.Outcome State Fault Refusal :=
  request dt 0x0A tag readChassis s

end Sys2Proof.Machine
end

