-- ==== Sys2Proof/Machine/Modes.lean ====
section
/-! DEFINITION. The Mode Controller (chapter 11): power-on reset, IDENTIFY, STATUS, RUN, DOZE, WAKE, RESTART and its taking
effect, and FAULTS. -/

namespace Sys2Proof.Machine

/-! ## POWER_ON_RESET -/

/-- POWER_ON_RESET: every block takes its power-on values; the model's own queue and choices stand. -/
def execPowerOnReset (s : State) : Host.Outcome State Fault Refusal :=
  .next { State.reset with choices := s.choices, pending := s.pending }

/-! ## IDENTIFY and STATUS (R186) -/

/-- IDENTIFY (R186). -/
def identifyOwner (s : State) : State × Answer := (s, { status := .ok, body := .identity "IF" "L36" 2 })

/-- The fields of STATUS as they stand (R186, section 10.8). -/
def State.statusReport (s : State) : StatusReport :=
  { mode := s.mdc.mode, placement := s.plu.placement, pinned := s.plu.pin.isSome, candidate := s.plu.candidate
    roundOpen := s.alc.round.opened, armed := s.alc.budget.armed, adapterPresent := s.srm.adapterPresent
    dropped := s.slk.dropped, effective := s.effective, spare := s.spare, reservation := s.alc.round.reservation
    sumGrants := s.alc.grantSum, floorSum := s.alc.floorSum, roundNumber := s.alc.round.number
    credit := s.alc.budget.credit, battery := s.srm.battery, detected := s.mdc.faults.toList.map (·.detected) }

/-- STATUS: the reply, and the notices-dropped flag cleared (R176, R186). -/
def statusOwner (s : State) : State × Answer :=
  ({ s with slk := { s.slk with dropped := false } }, { status := .ok, body := .status s.statusReport })

/-- IDENTIFY. -/
def execIdentify (dt : Nat) (tag : Byte) (s : State) : Host.Outcome State Fault Refusal :=
  request dt 0x01 tag identifyOwner s

/-- STATUS. -/
def execStatus (dt : Nat) (tag : Byte) (s : State) : Host.Outcome State Fault Refusal :=
  request dt 0x02 tag statusOwner s

/-! ## RUN (R183) -/

/-- The EMPTY sets. -/
def Lst.emptySets (l : Lst) : List SetId := allSets.filter fun p => (l.get p).isNone

/-- The prerequisites of RUN (R183). -/
def State.canRun (s : State) : Bool := s.mdc.mode == .locked && s.lst.emptySets.isEmpty && s.srm.setup.isSome

/-- GUARD withdrawn and its claim cleared (R182). -/
def dropGuard (s : State) : State := withdrawCauseFrom six .guard (s.setGuard false)

/-- The RUN entry of every block (R183). Log 33. -/
def enterRunning (s : State) : State :=
  reformDemands <| allocatorRun <| sourceRun <| zonesRun <| dropGuard <| stopContact <| s.setMode .running

/-- RUN (R183). -/
def runOwner (s : State) : State × Answer :=
  if s.canRun then (enterRunning s, .only .ok)
  else (s, { status := .notReady, body := .runRefused s.mdc.mode s.lst.emptySets s.srm.setup.isSome })

/-- RUN. -/
def execRun (dt : Nat) (tag : Byte) (s : State) : Host.Outcome State Fault Refusal :=
  request dt 0x04 tag (finishing runOwner) s

/-! ## DOZE and WAKE (R184) -/

/-- The reply to an accepted DOZE or WAKE. -/
def modeAnswer (s : State) : Answer := { status := .ok, body := .mode s.mdc.mode }

/-- The reply to a refused DOZE or WAKE: it carries the mode as well (R184). -/
def modeRefusal (s : State) : State × Answer := (s, { status := .notReady, body := .mode s.mdc.mode })

/-- DOZE (R184). -/
def dozeOwner (s : State) : State × Answer :=
  match s.mdc.mode with
  | .running =>
    let t := goDozing s
    (t, modeAnswer t)
  | .dozing => (s, modeAnswer s)
  | _ => modeRefusal s

/-- WAKE (R184). -/
def wakeOwner (s : State) : State × Answer :=
  match s.mdc.mode with
  | .dozing =>
    let t := wakeUp s
    (t, modeAnswer t)
  | .running => (s, modeAnswer s)
  | _ => modeRefusal s

/-- DOZE. -/
def execDoze (dt : Nat) (tag : Byte) (s : State) : Host.Outcome State Fault Refusal :=
  request dt 0x05 tag (finishing dozeOwner) s

/-- WAKE. -/
def execWake (dt : Nat) (tag : Byte) (s : State) : Host.Outcome State Fault Refusal :=
  request dt 0x06 tag (finishing wakeOwner) s

/-! ## RESTART (R179, R185) -/

/-- RESTART: OK, and restart awaited becomes yes (R185). -/
def restartOwner (s : State) : State × Answer :=
  ({ s with mdc := { s.mdc with restartAwaited := true } }, .only .ok)

/-- RESTART. -/
def execRestart (dt : Nat) (tag : Byte) (s : State) : Host.Outcome State Fault Refusal :=
  request dt 0x03 tag restartOwner s

/-- A slot still holds the RESTART reply. -/
def RequestSlot.holdsRestart (r : RequestSlot) : Bool := r.kind == 0x03 && r.reply.isSome

/-- RESTART takes effect now: it is awaited, its reply has been sent or discarded, and no frame cut by a break is still at
its last byte (R179, R185). -/
def State.restartDue (s : State) : Bool :=
  s.mdc.restartAwaited && !s.slk.slots.any (·.holdsRestart) && s.slk.cut.isNone

/-- The System Link at RESTART: the notice queue is emptied, the flag cleared, and the held requests discarded (R179). -/
def restartLink (s : State) : State :=
  { s with slk := { s.slk with notices := [], dropped := false, slots := s.slk.slots.filter (·.reply.isSome) } }

/-- The Mode Controller and the Fault Record at RESTART (R185, R187). -/
def restartMode (s : State) : State :=
  { s with mdc :=
      { mode := if s.lst.chassis.isSome then .locked else .prepare, guardClaim := false, restartAwaited := false
        faults := tabulate fun k => { s.mdc.faults.get k with detected := false, subject := none } } }

/-- RESTART takes effect on every block (R185). -/
def takeRestart (s : State) : State :=
  finishNew s <| restartFans <| redeliverAdapter <| restartSource <| restartPlacement <| restartZones <|
    restartContact (s.mdc.mode == .dozing) <| restartChannels <| restartAllocator <| restartLines <| restartMode <|
    restartLink s

/-- RESTART_TAKES_EFFECT (R185). -/
def execRestartTakesEffect (s : State) : Host.Outcome State Fault Refusal :=
  .next (if s.restartDue then takeRestart s else s)

/-! ## FAULTS (R188) -/

/-- A mask names a kind outside the nine (R188). -/
def maskBad (m : Word) : Bool := 512 ≤ m.toNat

/-- An entry of the Fault Record after a FAULTS request (R188). -/
def FaultEntry.clear (clears : Bool) (report : Option Bool) (e : FaultEntry) : FaultEntry :=
  { detected := e.detected && !clears, report := report.getD e.report, subject := if clears then none else e.subject }

/-- FAULTS (R188). -/
def faultsOwner (clear : Word) (report : Option Word) (s : State) : State × Answer :=
  if maskBad clear || report.any maskBad then refuse .badField s
  else
    ({ s with mdc := { s.mdc with faults := tabulate fun k =>
        (s.mdc.faults.get k).clear (clear.getLsbD k) (report.map (·.getLsbD k)) } },
      { status := .ok, body := .faults s.mdc.faults.toList })

/-- FAULTS. -/
def execFaults (dt : Nat) (tag : Byte) (clear : Word) (report : Option Word) (s : State) :
    Host.Outcome State Fault Refusal :=
  request dt 0x3F tag (faultsOwner clear report) s

end Sys2Proof.Machine
end

