-- ==== Sys2Proof/Machine/Link.lean ====
section
/-! DEFINITION. The System Link (chapter 10): start bits, bytes, frame assembly, checking and acceptance, gap, framing error
and break, and the transmitter. -/

namespace Sys2Proof.Machine

/-- The System Link's records changed. -/
def State.withSlk (f : Slk → Slk) (s : State) : State := { s with slk := f s.slk }

/-! ## Frames (R172, R173) -/

/-- The owner of a request kind, given its body; the body has the length its kind requires (R173, R180). -/
def frameOwner (kind : Byte) (b : List Byte) : State → State × Answer :=
  match kind.toNat with
  | 0x01 => identifyOwner
  | 0x02 => statusOwner
  | 0x03 => restartOwner
  | 0x04 => finishing runOwner
  | 0x05 => finishing dozeOwner
  | 0x06 => finishing wakeOwner
  | 0x08 => finishing (chassisLimits (chassisFields b))
  | 0x09 => finishing (loadSet (u8 b 0) (setFields b))
  | 0x0A => readSet (u8 b 0)
  | 0x10 => channelSetup (channelFields b)
  | 0x11 => scanListOwner (numbersAt b 1 (u8 b 0))
  | 0x12 => readChannels (u8 b 0) (u8 b 1)
  | 0x13 =>
    match Config.calActionOf (byteAt b 1) with
    | some .set => calOverrideSet (u8 b 0) (u16 b 2) (s16 b 4)
    | some .restore => calOverrideRestore (u8 b 0)
    | none => calOverrideOther (u8 b 0)
  | 0x18 => if u8 b 0 = 8 then finishing (electrodeSetupResolution (u8 b 1)) else electrodeSetup (electrodeFields b)
  | 0x19 => readElectrodes (u8 b 0) (u8 b 1)
  | 0x1A => rebaseOwner
  | 0x20 => zoneSetup (zoneFields b)
  | 0x21 => finishing (zoneFeed (u8 b 0) (present (flagAt b 1) (s16 b 2)))
  | 0x22 => readZones (u8 b 0) (u8 b 1)
  | 0x28 => sourceSetup (sourceFields b)
  | 0x29 => sysCap (present (flagAt b 0) (u24 b 1))
  | 0x2A => clampForce (byteAt b 0) (Config.clampActionOf (byteAt b 1))
  | 0x2B => lineSetup (lineFields b)
  | 0x30 => domainDeclare (domainFields b)
  | 0x31 => domainRetire (u8 b 0)
  | 0x32 => domainRequest (u8 b 0) (u24 b 1)
  | 0x33 => domainSettled (u8 b 0)
  | 0x34 =>
    match Config.permitOf (byteAt b 1) with
    | some .off => domainPermitOff (u8 b 0)
    | some .on => domainPermitOn (u8 b 0)
    | none => domainPermitOther (u8 b 0)
  | 0x35 => readGrants (u8 b 0) (u8 b 1)
  | 0x38 => finishing (placementPin (u8 b 0) (present (flagAt b 1) (u16 b 2)))
  | 0x39 => finishing placementUnpin
  | 0x3C => fanSetup (u8 b 0) (flagAt b 1) (u8 b 2) (u8 b 3)
  | 0x3D => fanRetry (u8 b 0)
  | 0x3E => readFans
  | _ => faultsOwner (wordAt b 0) (present (flagAt b 2) (wordAt b 3))

/-- What answers an accepted frame: the link itself for an unknown kind or a wrong length, else the owner (R173). -/
def frameAnswerer (kind : Byte) (b : List Byte) : State → State × Answer :=
  match requiredLength kind b with
  | none => refuse .unknownKind
  | some n => if b.length = n then frameOwner kind b else refuse .badLength

/-- A complete frame is checked and, when its check byte is right, accepted (R172). `stored` is kind, tag and body. -/
def takeFrame (length : Nat) (stored : List Byte) (check : Byte) (s : State) : State :=
  if crc8 (leBytes 1 length ++ stored) = check then
    acceptRequest (stored.getD 0 0) (stored.getD 1 0) (frameAnswerer (stored.getD 0 0) (stored.drop 2)) s
  else detect .linkCheck 0 s

/-! ## Receiver (R170, R171) -/

/-- The receiver's state and its gap timer replaced. -/
def setReceiver (r : Receiver) (gap : Option Nat) (s : State) : State :=
  s.withSlk fun k => { k with rx := r, gapTimer := gap }

/-- A byte is being received: a start bit has fallen, and no break is in force. -/
def State.receiving (s : State) : Bool := s.slk.startBit.isSome && !s.slk.breakActive

/-- A filter whose line is known to stand at a level. -/
def LineFilter.settle (level : Level) (f : LineFilter) : LineFilter :=
  if f.accepted = level then f else { f with accepted := level, run := 0 }

/-- A byte has ended: the line stands high and no start bit is pending (R170). -/
def endByte (s : State) : State :=
  s.withSlk fun k => { k with startBit := none, heard := [], rxd := k.rxd.settle .high }

/-- When a break is detected: 2 ms after the fall of a start bit whose line stays low (R170). -/
def State.breakDue (s : State) : Option Nat := s.slk.startBit.map (· + ms 2)

/-- The check byte has ended. At the very moment at which a break is due, the line's low remains, so that the break may be
taken after the completion (R178). -/
def endCheckByte (s : State) : State := if s.breakDue.any (· ≤ s.now) then s else endByte s

/-- The gap timer's expiry: 5 ms after the end of the stop bit (R171). -/
def gapAfter (stopEnd : Nat) : Option Nat := some (stopEnd + ms 5)

/-- A received byte, whose stop bit ends at a time, moves frame assembly (R171); the check byte completes the frame. -/
def assemble (b : Byte) (stopEnd : Nat) (s : State) : State :=
  match s.slk.rx with
  | .hunt => if b = 0xC3 then setReceiver .length (gapAfter stopEnd) s else s
  | .length =>
    if 2 ≤ b.toNat ∧ b.toNat ≤ 62 then setReceiver (.body b.toNat [] b.toNat) (gapAfter stopEnd) s
    else setReceiver .hunt none s
  | .body length stored count =>
    if count ≤ 1 then setReceiver (.check length (stored ++ [b])) (gapAfter stopEnd) s
    else setReceiver (.body length (stored ++ [b]) (count - 1)) (gapAfter stopEnd) s
  | .check length stored => takeFrame length stored b (setReceiver .hunt none s)

/-- A byte has been received (R170, R171). -/
def takeByte (b : Byte) (stopEnd : Nat) (s : State) : State :=
  match s.slk.rx with
  | .check .. => assemble b stopEnd (endCheckByte s)
  | _ => assemble b stopEnd (endByte s)

/-- RECEIVED_BYTE (R170, R171). The row stands at the end of its stop bit (log 39). -/
def execReceivedByte (dt : Nat) (b : Byte) (s : State) : Host.Outcome State Fault Refusal :=
  let t := s.elapse dt
  .next (if t.receiving then takeByte b t.now t else t)

/-- A start bit falls: it stops the gap timer, and bit timing begins (R170, R171). -/
def startByte (s : State) : State :=
  s.withSlk fun k => { k with startBit := some s.now, heard := [.low], gapTimer := none, rxd := k.rxd.settle .low }

/-- START_BIT (R170, R171). -/
def execStartBit (dt : Nat) (s : State) : Host.Outcome State Fault Refusal :=
  let t := s.elapse dt
  .next (if t.slk.startBit.isSome || t.slk.breakActive then t else startByte t)

/-- The check byte of a frame arrives (R171, R172). -/
def completeFrame (check : Byte) (s : State) : State :=
  match s.slk.rx with
  | .check .. => takeByte check s.now s
  | _ => s

/-- FRAME_COMPLETE (R172). -/
def execFrameComplete (dt : Nat) (check : Byte) (s : State) : Host.Outcome State Fault Refusal :=
  let t := s.elapse dt
  .next (if t.receiving then completeFrame check t else t)

/-- A byte with a bad stop bit whose line returns high (R170). -/
def frameError (s : State) : State :=
  match s.slk.rx with
  | .hunt => s
  | _ => detect .linkCheck 0 (setReceiver .hunt none s)

/-- FRAMING_ERROR (R170). -/
def execFramingError (dt : Nat) (s : State) : Host.Outcome State Fault Refusal :=
  let t := s.elapse dt
  .next (if t.receiving then frameError (endByte t) else t)

/-- GAP_TIMER_EXPIRY: the frame is abandoned and LINK_GAP detected (R171). -/
def execGapTimerExpiry (s : State) : Host.Outcome State Fault Refusal :=
  .next (atExpiry s.slk.gapTimer (fun t => detect .linkGap 0 (setReceiver .hunt none t)) s)

/-! ## Break (R178) -/

/-- A break is detected (R178): the frame under assembly and every reply not yet begun are discarded, and a frame being sent
is cut: it stops after its present byte (log 10). -/
def takeBreak (s : State) : State :=
  s.withSlk fun k =>
    { k with startBit := none, heard := [], rx := .hunt, gapTimer := none, breakActive := true
             cut := if k.tx = .idle then none else some s.now
             slots := k.slots.filter fun r => r.reply.isNone || r.sending }

/-- BREAK (R178). -/
def execBreak (s : State) : Host.Outcome State Fault Refusal := .next (atExpiry s.breakDue takeBreak s)

/-- A break ends (R178). -/
def Slk.endBreak (k : Slk) : Slk := if k.breakActive then { k with breakActive := false, rxd := k.rxd.settle .high } else k

/-- BREAK_END (R178). -/
def execBreakEnd (dt : Nat) (s : State) : Host.Outcome State Fault Refusal := .next ((s.elapse dt).withSlk (·.endBreak))

/-! ## Samples of RXD (R170; log 24 and 39) -/

/-- When the `k`-th sample of RXD is taken, in us: 16 samples in each bit time at 115,200 bit/s. -/
def sampleTime (k : Nat) : Nat := k * 625 / 1152

/-- A sample reaches a line filter; the third consecutive differing one is accepted (R61, R170). -/
def LineFilter.take (level : Level) (time : Nat) (f : LineFilter) : LineFilter :=
  if level ≠ f.accepted ∧ 2 ≤ f.run then { accepted := level, run := 0, sampledAt := time } else f.sample level time

/-- The sample at the middle of the `k`-th bit time after the fall, the start bit's being the 0th (log 39). -/
def middleOf (k : Nat) : Nat := 16 * k + 8

/-- When the stop bit ends whose middle is the sample taken now: half a bit time, 8 samples, later (R171). -/
def State.stopBitEnd (s : State) : Nat := max s.now (sampleTime (s.slk.rxdTaken + 8))

/-- A data bit as it was heard at its middle. -/
def bitHeard (heard : List Level) (k : Nat) : Bool := heard[middleOf (k + 1)]? == some .high

/-- The byte heard: eight data bits, least significant bit first (R170). -/
def byteHeard (heard : List Level) : Byte := BitVec.ofNat 8 (bitsOf ((List.range 8).map (bitHeard heard)))

/-- The accepted level at a sample inside a byte (R170). Up to the middle of the stop bit it is heard. A high stop bit gives
a received byte. After a low one the line is watched: it returns high, a framing error, or is low 2 ms after the fall, a
break. -/
def hearSample (level : Level) (s : State) : State :=
  if s.slk.heard.length ≤ middleOf 9 then
    let t := s.withSlk fun k => { k with heard := k.heard ++ [level] }
    if s.slk.heard.length = middleOf 9 ∧ level = .high then takeByte (byteHeard s.slk.heard) s.stopBitEnd t else t
  else if level = .high then frameError (endByte s)
  else if s.breakDue.any (· ≤ s.now) then takeBreak s
  else s

/-- What the receiver does at a sample, by the accepted level before it and after it (R170, R178). -/
def receiveSample (before after : Level) (s : State) : State :=
  if s.slk.breakActive then (if after = .high then s.withSlk (·.endBreak) else s)
  else if s.slk.startBit.isSome then hearSample after s
  else if before = .high ∧ after = .low then startByte s
  else s

/-- One sample of RXD is taken at its time. -/
def sampleRxd (level : Level) (s : State) : State :=
  let time := sampleTime (s.slk.rxdTaken + 1)
  let t := (s.reach time).withSlk fun k => { k with rxdTaken := k.rxdTaken + 1, rxd := k.rxd.take level time }
  receiveSample s.slk.rxd.accepted t.slk.rxd.accepted t

/-- The next waiting sample of RXD is taken, if there is one. -/
def takeSample (s : State) : State :=
  match s.slk.rxdWaiting with
  | [] => s
  | level :: rest => sampleRxd level (s.withSlk fun k => { k with rxdWaiting := rest })

/-! ## Transmitter (R174, R175, R177) -/

/-- The oldest waiting reply begins to be sent; `none` when no reply waits. -/
def startOldest : List RequestSlot → Option (List RequestSlot)
  | [] => none
  | r :: l =>
    if r.reply.isSome && !r.sending then some ({ r with sending := true } :: l)
    else (startOldest l).map (r :: ·)

/-- The transmitter may begin a frame: idle, HRDY asserted, no break (R175, R178). -/
def Slk.mayBegin (k : Slk) : Bool := k.tx == .idle && k.hrdy && !k.breakActive

/-- The oldest waiting reply begins at a time (R175). -/
def Slk.beginReply (now : Nat) (k : Slk) : Slk :=
  if k.mayBegin then
    match startOldest k.slots with
    | none => k
    | some l => { k with slots := l, tx := .sendingReply, txStart := some now }
  else k

/-- The head notice begins at a time when no reply waits; it leaves the queue (R175, R177). -/
def Slk.beginNotice (now : Nat) (k : Slk) : Slk :=
  if k.mayBegin && (startOldest k.slots).isNone then
    match k.notices with
    | [] => k
    | n :: l => { k with notices := l, tx := .sendingNotice n, txStart := some now }
  else k

/-- The frame being sent ends, or stops where a break has cut it; a reply frees its slot (R174, R178). -/
def Slk.endFrame (k : Slk) : Slk :=
  match k.tx with
  | .idle => k
  | .sendingReply => { k with tx := .idle, txStart := none, cut := none, slots := k.slots.filter (!·.sending) }
  | .sendingNotice _ => { k with tx := .idle, txStart := none, cut := none }

/-- HRDY as the transmitter sees it. -/
def Slk.seeHrdy (hrdy : Bool) (k : Slk) : Slk := { k with hrdy := hrdy }

/-- REPLY_TRANSMIT_START (R175). -/
def execReplyTransmitStart (dt : Nat) (hrdy : Bool) (s : State) : Host.Outcome State Fault Refusal :=
  .next ((s.elapse dt).withSlk fun k => (k.seeHrdy hrdy).beginReply (s.now + dt))

/-- NOTICE_TRANSMIT_START (R177). -/
def execNoticeTransmitStart (dt : Nat) (hrdy : Bool) (s : State) : Host.Outcome State Fault Refusal :=
  .next ((s.elapse dt).withSlk fun k => (k.seeHrdy hrdy).beginNotice (s.now + dt))

/-- FRAME_TRANSMIT_END: the last byte of the frame has been sent, or of what a break has left of it (R174, R175, R178). -/
def execFrameTransmitEnd (dt : Nat) (s : State) : Host.Outcome State Fault Refusal :=
  .next ((s.elapse dt).withSlk (·.endFrame))

end Sys2Proof.Machine
end

