-- ==== Sys2Proof/Machine/Dispatch.lean ====
section
/-! DEFINITION. One command's effect on everything but the queue: one arm per command, each a call of its meaning. -/

namespace Sys2Proof.Machine

/-- The meaning of a command. -/
def exec (i : Instr) (s : State) : Host.Outcome State Fault Refusal :=
  match i with
  | .powerOnReset => Sys2Proof.Machine.execPowerOnReset s
  | .identify dt tag => Sys2Proof.Machine.execIdentify dt tag s
  | .status dt tag => Sys2Proof.Machine.execStatus dt tag s
  | .restart dt tag => Sys2Proof.Machine.execRestart dt tag s
  | .restartTakesEffect => Sys2Proof.Machine.execRestartTakesEffect s
  | .run dt tag => Sys2Proof.Machine.execRun dt tag s
  | .doze dt tag => Sys2Proof.Machine.execDoze dt tag s
  | .wake dt tag => Sys2Proof.Machine.execWake dt tag s
  | .chassisLimits dt tag f => Sys2Proof.Machine.execChassisLimits dt tag f s
  | .loadSet dt tag number f => Sys2Proof.Machine.execLoadSet dt tag number f s
  | .readSet dt tag selector => Sys2Proof.Machine.execReadSet dt tag selector s
  | .readSetChassis dt tag => Sys2Proof.Machine.execReadSetChassis dt tag s
  | .channelSetup dt tag f => Sys2Proof.Machine.execChannelSetup dt tag f s
  | .scanList dt tag channels => Sys2Proof.Machine.execScanList dt tag channels s
  | .readChannels dt tag a n => Sys2Proof.Machine.execReadChannels dt tag a n s
  | .calOverrideSet dt tag channel gain offset => Sys2Proof.Machine.execCalOverrideSet dt tag channel gain offset s
  | .calOverrideRestore dt tag channel => Sys2Proof.Machine.execCalOverrideRestore dt tag channel s
  | .electrodeSetup dt tag f => Sys2Proof.Machine.execElectrodeSetup dt tag f s
  | .electrodeSetupResolution dt tag resolution => Sys2Proof.Machine.execElectrodeSetupResolution dt tag resolution s
  | .readElectrodes dt tag a n => Sys2Proof.Machine.execReadElectrodes dt tag a n s
  | .rebase dt tag => Sys2Proof.Machine.execRebase dt tag s
  | .zoneSetup dt tag f => Sys2Proof.Machine.execZoneSetup dt tag f s
  | .zoneFeed dt tag zone temperature => Sys2Proof.Machine.execZoneFeed dt tag zone temperature s
  | .readZones dt tag a n => Sys2Proof.Machine.execReadZones dt tag a n s
  | .sourceSetup dt tag f => Sys2Proof.Machine.execSourceSetup dt tag f s
  | .sysCap dt tag cap => Sys2Proof.Machine.execSysCap dt tag cap s
  | .clampForceSet dt tag mask => Sys2Proof.Machine.execClampForceSet dt tag mask s
  | .clampForceClear dt tag mask => Sys2Proof.Machine.execClampForceClear dt tag mask s
  | .lineSetup dt tag f => Sys2Proof.Machine.execLineSetup dt tag f s
  | .domainDeclare dt tag f => Sys2Proof.Machine.execDomainDeclare dt tag f s
  | .domainRetire dt tag slot => Sys2Proof.Machine.execDomainRetire dt tag slot s
  | .domainRequest dt tag slot value => Sys2Proof.Machine.execDomainRequest dt tag slot value s
  | .domainSettled dt tag slot => Sys2Proof.Machine.execDomainSettled dt tag slot s
  | .domainPermitOff dt tag slot => Sys2Proof.Machine.execDomainPermitOff dt tag slot s
  | .domainPermitOn dt tag slot => Sys2Proof.Machine.execDomainPermitOn dt tag slot s
  | .readGrants dt tag a n => Sys2Proof.Machine.execReadGrants dt tag a n s
  | .placementPin dt tag code timeout => Sys2Proof.Machine.execPlacementPin dt tag code timeout s
  | .placementUnpin dt tag => Sys2Proof.Machine.execPlacementUnpin dt tag s
  | .fanSetup dt tag fan enabled ppr minDuty => Sys2Proof.Machine.execFanSetup dt tag fan enabled ppr minDuty s
  | .fanRetry dt tag fan => Sys2Proof.Machine.execFanRetry dt tag fan s
  | .readFans dt tag => Sys2Proof.Machine.execReadFans dt tag s
  | .faults dt tag clear report => Sys2Proof.Machine.execFaults dt tag clear report s
  | .lidChange => Sys2Proof.Machine.execLidChange s
  | .motionChange => Sys2Proof.Machine.execMotionChange s
  | .adpChange => Sys2Proof.Machine.execAdpChange s
  | .stillTimerExpiry => Sys2Proof.Machine.execStillTimerExpiry s
  | .dwellExpiry => Sys2Proof.Machine.execDwellExpiry s
  | .pinExpiry => Sys2Proof.Machine.execPinExpiry s
  | .sequenceTimerMatch => Sys2Proof.Machine.execSequenceTimerMatch s
  | .channelConversionEnd raw => Sys2Proof.Machine.execChannelConversionEnd raw s
  | .contactTimerMatch => Sys2Proof.Machine.execContactTimerMatch s
  | .electrodeConversionEnd raw => Sys2Proof.Machine.execElectrodeConversionEnd raw s
  | .groupConversionEnd raw => Sys2Proof.Machine.execGroupConversionEnd raw s
  | .feedTimerExpiry zone => Sys2Proof.Machine.execFeedTimerExpiry zone s
  | .stepTimerExpiry zone => Sys2Proof.Machine.execStepTimerExpiry zone s
  | .deadlineExpiry slot => Sys2Proof.Machine.execDeadlineExpiry slot s
  | .tachEdge dt fan => Sys2Proof.Machine.execTachEdge dt fan s
  | .speedTimeout fan => Sys2Proof.Machine.execSpeedTimeout fan s
  | .stallTimerExpiry fan => Sys2Proof.Machine.execStallTimerExpiry fan s
  | .kickEnd fan => Sys2Proof.Machine.execKickEnd fan s
  | .retryKickEnd fan => Sys2Proof.Machine.execRetryKickEnd fan s
  | .provingExpiry fan => Sys2Proof.Machine.execProvingExpiry fan s
  | .retryTimerExpiry fan => Sys2Proof.Machine.execRetryTimerExpiry fan s
  | .rampTimerExpiry => Sys2Proof.Machine.execRampTimerExpiry s
  | .frameComplete dt check => Sys2Proof.Machine.execFrameComplete dt check s
  | .framingError dt => Sys2Proof.Machine.execFramingError dt s
  | .gapTimerExpiry => Sys2Proof.Machine.execGapTimerExpiry s
  | .lineBreak => Sys2Proof.Machine.execBreak s
  | .breakEnd dt => Sys2Proof.Machine.execBreakEnd dt s
  | .replyTransmitStart dt hrdy => Sys2Proof.Machine.execReplyTransmitStart dt hrdy s
  | .noticeTransmitStart dt hrdy => Sys2Proof.Machine.execNoticeTransmitStart dt hrdy s
  | .frameTransmitEnd dt => Sys2Proof.Machine.execFrameTransmitEnd dt s
  | .receivedByte dt byte => Sys2Proof.Machine.execReceivedByte dt byte s
  | .startBit dt => Sys2Proof.Machine.execStartBit dt s
  | .lineFilterSample lid motion adp => Sys2Proof.Machine.execLineFilterSample lid motion adp s
  | .pwmPeriodStart => Sys2Proof.Machine.execPwmPeriodStart s

end Sys2Proof.Machine
end

