-- ==== Sys2Proof/Machine/Step.lean ====
section
/-! DEFINITION. One step: the command at the front of the queue is taken. -/

namespace Sys2Proof.Machine

/-- The state with another queue. -/
def State.withPending (q : List Instr) (s : State) : State := { s with pending := q }

/-- The command at the front of the queue is run on the state with the queue's rest; with no command waiting the next sample
of RXD is taken, and with no sample waiting the part idles (log 1 and 24). -/
def step (s : State) : Host.Outcome State Fault Refusal :=
  match s.pending with
  | [] => .next (takeSample s)
  | c :: rest => exec c (s.withPending rest)

/-- The command a table word spells, put at the front of the queue. -/
def State.withFetchWord (s : State) (nbits w : Nat) : State :=
  match decodeTableWord nbits w with
  | none => s
  | some c => s.withPending (c :: s.pending)

end Sys2Proof.Machine
end

