-- ==== Sys2Proof/Safety.lean ====
section
/-! DEFINITION. The predicates that claims about the part are stated with: when the link takes a request, what a taken request
leaves behind, what taking up a limit set means, and the invariants of the notice queue, the link, the Limit Store, the modes,
the grants, the round, the raise queue and the zones. -/

namespace Sys2Proof.Machine

/-! ## Requests -/

/-- The delta time, kind and tag of a request row; none for a row that is no request (R180). -/
def request? : Instr → Option (Nat × Byte × Byte)
  | .identify dt tag => some (dt, 0x01, tag)
  | .status dt tag => some (dt, 0x02, tag)
  | .restart dt tag => some (dt, 0x03, tag)
  | .run dt tag => some (dt, 0x04, tag)
  | .doze dt tag => some (dt, 0x05, tag)
  | .wake dt tag => some (dt, 0x06, tag)
  | .chassisLimits dt tag _ => some (dt, 0x08, tag)
  | .loadSet dt tag _ _ => some (dt, 0x09, tag)
  | .readSet dt tag _ => some (dt, 0x0A, tag)
  | .readSetChassis dt tag => some (dt, 0x0A, tag)
  | .channelSetup dt tag _ => some (dt, 0x10, tag)
  | .scanList dt tag _ => some (dt, 0x11, tag)
  | .readChannels dt tag _ _ => some (dt, 0x12, tag)
  | .calOverrideSet dt tag _ _ _ => some (dt, 0x13, tag)
  | .calOverrideRestore dt tag _ => some (dt, 0x13, tag)
  | .electrodeSetup dt tag _ => some (dt, 0x18, tag)
  | .electrodeSetupResolution dt tag _ => some (dt, 0x18, tag)
  | .readElectrodes dt tag _ _ => some (dt, 0x19, tag)
  | .rebase dt tag => some (dt, 0x1A, tag)
  | .zoneSetup dt tag _ => some (dt, 0x20, tag)
  | .zoneFeed dt tag _ _ => some (dt, 0x21, tag)
  | .readZones dt tag _ _ => some (dt, 0x22, tag)
  | .sourceSetup dt tag _ => some (dt, 0x28, tag)
  | .sysCap dt tag _ => some (dt, 0x29, tag)
  | .clampForceSet dt tag _ => some (dt, 0x2A, tag)
  | .clampForceClear dt tag _ => some (dt, 0x2A, tag)
  | .lineSetup dt tag _ => some (dt, 0x2B, tag)
  | .domainDeclare dt tag _ => some (dt, 0x30, tag)
  | .domainRetire dt tag _ => some (dt, 0x31, tag)
  | .domainRequest dt tag _ _ => some (dt, 0x32, tag)
  | .domainSettled dt tag _ => some (dt, 0x33, tag)
  | .domainPermitOff dt tag _ => some (dt, 0x34, tag)
  | .domainPermitOn dt tag _ => some (dt, 0x34, tag)
  | .readGrants dt tag _ _ => some (dt, 0x35, tag)
  | .placementPin dt tag _ _ => some (dt, 0x38, tag)
  | .placementUnpin dt tag => some (dt, 0x39, tag)
  | .fanSetup dt tag _ _ _ _ => some (dt, 0x3C, tag)
  | .fanRetry dt tag _ => some (dt, 0x3D, tag)
  | .readFans dt tag => some (dt, 0x3E, tag)
  | .faults dt tag _ _ => some (dt, 0x3F, tag)
  | _ => none

/-- The link takes a request now: no break, a free slot, no RESTART awaited (R172, R178, R179). -/
abbrev State.takes (s : State) : Prop :=
  s.slk.breakActive = false ∧ s.slk.slots.length < 2 ∧ s.mdc.restartAwaited = false

/-- The slot of a taken request: its reply has its kind plus 80h, its tag, and the owner's answer (R173). -/
def answeredSlot (kind tag : Byte) (a : Answer) : RequestSlot :=
  { kind := kind, tag := tag, reply := some { kind := replyKind kind, tag := tag, answer := a }, sending := false }

/-- A request has been taken and answered: its slot stands behind those occupied before it (R173, R174). -/
def State.answered (kind tag : Byte) (a : Answer) (s : State) : State := s.occupy (answeredSlot kind tag a)

/-- The answer formed last. -/
def State.lastAnswer (s : State) : Option Answer := (s.slk.slots.getLast?.bind (·.reply)).map (·.answer)

/-- The request row that a frame's kind, tag and body spell, taken at once (section 10.8); none where a code byte names no
value. -/
def requestRow? (kind tag : Byte) (b : List Byte) : Option Instr :=
  match kind.toNat with
  | 0x01 => some (.identify 0 tag)
  | 0x02 => some (.status 0 tag)
  | 0x03 => some (.restart 0 tag)
  | 0x04 => some (.run 0 tag)
  | 0x05 => some (.doze 0 tag)
  | 0x06 => some (.wake 0 tag)
  | 0x08 => some (.chassisLimits 0 tag (chassisFields b))
  | 0x09 => some (.loadSet 0 tag (u8 b 0) (setFields b))
  | 0x0A => some (if u8 b 0 = 4 then .readSetChassis 0 tag else .readSet 0 tag (u8 b 0))
  | 0x10 => some (.channelSetup 0 tag (channelFields b))
  | 0x11 => some (.scanList 0 tag (numbersAt b 1 (u8 b 0)))
  | 0x12 => some (.readChannels 0 tag (u8 b 0) (u8 b 1))
  | 0x13 => (Config.calActionOf (byteAt b 1)).map fun a => match a with
    | .set => .calOverrideSet 0 tag (u8 b 0) (u16 b 2) (s16 b 4)
    | .restore => .calOverrideRestore 0 tag (u8 b 0)
  | 0x18 => some (if u8 b 0 = 8 then .electrodeSetupResolution 0 tag (u8 b 1) else .electrodeSetup 0 tag (electrodeFields b))
  | 0x19 => some (.readElectrodes 0 tag (u8 b 0) (u8 b 1))
  | 0x1A => some (.rebase 0 tag)
  | 0x20 => some (.zoneSetup 0 tag (zoneFields b))
  | 0x21 => some (.zoneFeed 0 tag (u8 b 0) (present (flagAt b 1) (s16 b 2)))
  | 0x22 => some (.readZones 0 tag (u8 b 0) (u8 b 1))
  | 0x28 => some (.sourceSetup 0 tag (sourceFields b))
  | 0x29 => some (.sysCap 0 tag (present (flagAt b 0) (u24 b 1)))
  | 0x2A => (Config.clampActionOf (byteAt b 1)).map fun a => match a with
    | .set => .clampForceSet 0 tag (byteAt b 0)
    | .clear => .clampForceClear 0 tag (byteAt b 0)
  | 0x2B => some (.lineSetup 0 tag (lineFields b))
  | 0x30 => some (.domainDeclare 0 tag (domainFields b))
  | 0x31 => some (.domainRetire 0 tag (u8 b 0))
  | 0x32 => some (.domainRequest 0 tag (u8 b 0) (u24 b 1))
  | 0x33 => some (.domainSettled 0 tag (u8 b 0))
  | 0x34 => (Config.permitOf (byteAt b 1)).map fun p => match p with
    | .off => .domainPermitOff 0 tag (u8 b 0)
    | .on => .domainPermitOn 0 tag (u8 b 0)
  | 0x35 => some (.readGrants 0 tag (u8 b 0) (u8 b 1))
  | 0x38 => some (.placementPin 0 tag (u8 b 0) (present (flagAt b 1) (u16 b 2)))
  | 0x39 => some (.placementUnpin 0 tag)
  | 0x3C => some (.fanSetup 0 tag (u8 b 0) (flagAt b 1) (u8 b 2) (u8 b 3))
  | 0x3D => some (.fanRetry 0 tag (u8 b 0))
  | 0x3E => some (.readFans 0 tag)
  | 0x3F => some (.faults 0 tag (wordAt b 0) (present (flagAt b 2) (wordAt b 3)))
  | _ => none

/-! ## Frames of statements -/

/-- `t` differs from `s` only in the Allocator, the clamp lines and the notice queue. -/
abbrev State.grantsOnly (s t : State) : Prop :=
  t = { s with alc := t.alc, clu := t.clu, slk := { s.slk with notices := t.slk.notices, dropped := t.slk.dropped } }

/-- `t` differs from `s` only in the clamp lines and the notice queue. -/
abbrev State.linesOnly (s t : State) : Prop :=
  t = { s with clu := t.clu, slk := { s.slk with notices := t.slk.notices, dropped := t.slk.dropped } }

/-- `t` differs from `s` only in the notice queue. -/
abbrev State.noticesOnly (s t : State) : Prop :=
  t = { s with slk := { s.slk with notices := t.slk.notices, dropped := t.slk.dropped } }

/-- The fields of a domain that no allocation changes: its setup, permit and request (R118). -/
def Domain.core (d : Domain) : Domain :=
  { d with effCeiling := none, grant := none, state := .unmanaged, deadline := none, holdStart := none, measured := none
           revocations := 0, clamps := 0, overdueSince := none }

/-- The core of a slot's domain. -/
def Alc.coreOf (a : Alc) (i : Fin 6) : Option Domain := (a.domains.get i).map Domain.core

/-! ## What statements spell out once -/

/-- The GRANT notice of a domain as it stands (R135). -/
def State.grantNotice (s : State) (i : Fin 6) (d : Domain) (reason : GrantReason) (causes : List RoundCause) : Notice :=
  .grant i (d.grant.getD 0) d.state (d.effCeiling.getD 0) reason causes
    (if d.state = .revoking then d.deadline.map fun e => (e - s.now) / 1000 else none)

/-- The raise queue with an entry for a domain: the one it has, or one made at the present time (R130). -/
def State.queueWith (s : State) (i : Fin 6) (d : Domain) : List QueueEntry :=
  if s.alc.queue.any (·.slot == i) then s.alc.queue
  else enqueue { slot := i, priority := d.priority, time := s.now / 1000 } s.alc.queue

/-- The Measurement Unit as a measurement scan takes the front end with a conversion of channel `c`, `l` being left (R31,
R32). -/
def Msu.measures (m : Msu) (now : Nat) (c : Fin 16) (l : List (Fin 16)) : Msu :=
  let r := m.channels.get c
  { m with
    pendingMeas := false, frontEnd := .measuring
    scan := some
      { todo := l
        current := some
          { channel := c, doneAt := now + (if r.kind = .temp then 5000 else 1000), gain := r.gain, offset := r.offset
            discard := false } } }

/-! ## The completion of a contact scan -/

/-- The electrodes that group learning takes into a group as it begins: enabled and not FAULT (R52). -/
def Csu.membersNow (c : Csu) (g : Fin 3) : List (Fin 8) :=
  (if g = 0 then [0, 1, 2, 3] else if g = 1 then [4, 5] else [6, 7] : List (Fin 8)).filter
    fun i => (c.electrodes.get i).enabled && (c.electrodes.get i).state != .fault

/-- The groups as group learning begins: members fixed, carried deltas recorded, sums 0 (R52). -/
def Csu.groupsBegun (c : Csu) : Vector Group 3 :=
  let carried := fun i : Fin 8 => if (c.electrodes.get i).state = .tracking then (c.electrodes.get i).delta.getD 0 else 0
  tabulate fun g => { c.groups.get g with
    members := c.membersNow g, learnSum := 0
    carried := if c.membersNow g = [] then (c.groups.get g).carried else ((c.membersNow g).map carried).sum }

/-- The GROUPS phase of a rebase begins: group learning starts, or ends the rebase where no group has a member (R57). -/
def State.beginsGroups (s : State) : State :=
  let c := s.csu
  if ∀ g, c.membersNow g = [] then
    State.post (.done .ok) { s with csu := { c with groups := c.groupsBegun, rebase := .noRebase, learning := .idle } }
  else { s with csu := { c with groups := c.groupsBegun, rebase := .groups, learning := .learning .rebase 0 } }

/-- The groups after a completion of group learning, some of them measured in its scan (R52). -/
def Csu.summed (c : Csu) (measured : List (Fin 3)) : Vector Group 3 :=
  tabulate fun g => { c.groups.get g with
    learnSum := (c.groups.get g).learnSum + (if g ∈ measured then (c.groups.get g).raw.getD 0 else 0) }

/-- The records after the eighth completion of group learning: baselines, and the members' highest class for group and
members (R52). A group with no members keeps baseline and class. That class, the confirm count of 0 and the learn sum of 0 are
the model's choice (log 42). An electrode takes the class of the group it is a member of; in a state where it is a member of
two, which no run reaches, that of the later one. -/
def Csu.learned (c : Csu) : Csu :=
  let highest := fun l : List (Fin 8) =>
    if l.any fun i => (c.electrodes.get i).confirmed == .contact then TouchClass.contact
    else if l.any fun i => (c.electrodes.get i).confirmed == .near then .near else .noTouch
  { c with
    learning := .idle
    groups := tabulate fun g =>
      let r := { c.groups.get g with pending := none, confirmCount := 0, learnSum := 0 }
      if r.members = [] then r else { r with
        baseline := some (min (2 ^ c.resolution - 1) ((((c.groups.get g).learnSum / 8 : Nat) : Int) - r.carried).toNat)
        confirmed := highest r.members }
    electrodes := tabulate fun i =>
      match ([2, 1, 0] : List (Fin 3)).find? fun g => decide (i ∈ (c.groups.get g).members) with
      | none => c.electrodes.get i
      | some g => { c.electrodes.get i with confirmed := highest (c.groups.get g).members } }

/-- What a completed contact scan hands on. A sequential one, and a grouped one outside learning, gives its evidence report
(R45, R51). A grouped one in learning counts; the eighth sets baselines and classes, and ends a rebase with DONE OK (R52,
R57; with the model's choices of log 42). -/
def State.contactActed (grouped : Bool) (measured : List (Fin 3)) (s : State) : State :=
  let reported := fun r : Vector TouchClass 8 =>
    evaluateCandidate { s with plu := { s.plu with evidence := s.plu.evidence.recount r } }
  let summed : Csu := { s.csu with groups := s.csu.summed measured }
  if grouped = false then reported s.csu.report
  else match s.csu.learning with
    | .idle => reported s.csu.groupReport
    | .learning origin count =>
      if count ≠ 7 then { s with csu := { summed with learning := .learning origin (count + 1) } }
      else if origin = .doze then { s with csu := summed.learned }
      else State.post (.done .ok) { s with csu := { summed.learned with rebase := .noRebase } }

/-- The ELECTRODES phase of a rebase gives way to GROUPS where no enabled electrode is LEARNING (R57). -/
def State.rebaseGoesOn (s : State) : State :=
  if s.csu.rebase ≠ .electrodes then s
  else if ∃ i : Fin 8, (s.csu.electrodes.get i).enabled = true ∧ (s.csu.electrodes.get i).state = .learning then s
  else s.beginsGroups

/-- A contact scan has been completed: it acts, and then a rebase may go on to its next phase. -/
def State.contactCompleted (grouped : Bool) (measured : List (Fin 3)) (s : State) : State :=
  (s.contactActed grouped measured).rebaseGoesOn

/-! ## A set taken up -/

/-- Between `s` and `t` the set `f` has become the active one or a new content of it: the credit stays within its bucket and
the armed flag is weighed (R14, R108), B and the effective ceilings are formed with it (R13, R120), every enabled zone is
judged by it with reduction and step timer kept (R86), and every enabled fan has the target it gives (R160). -/
def State.takesSet (s t : State) (f : LimitSet) : Prop :=
  let credit := min s.alc.budget.credit f.bucket
  t.alc.budget.credit = credit ∧
  (t.alc.budget.armed = true ↔
    if s.alc.budget.armed then 0 < credit ∧ 0 < f.bucket else 0 < f.bucket ∧ f.bucket * f.rearm ≤ credit * 100) ∧
  t.active = f ∧ t.alc.budget.effective = some t.formB ∧
  (∀ i d, t.alc.domains.get i = some d → d.effCeiling = some (
    if d.permit = .off then d.floor
    else if d.kind = .charger then (if s.alc.budget.adapterPresent then min d.ceiling f.chargeCap else 0)
    else d.ceiling)) ∧
  (∀ z,
    let old := s.znm.zones.get z
    let new := t.znm.zones.get z
    (old.enabled = true → new.state = judge (f.zones.get z) f.hysteresis old.state old.temperature) ∧
    new.r = old.r ∧ new.stepTimer = old.stepTimer ∧ new.temperature = old.temperature) ∧
  ∀ m, (s.fnc.fans.get m).enabled = true → (t.fnc.fans.get m).target = t.targetOf m

/-! ## Lowering -/

/-- Between `s` and `t` grants have only been lowered, none below its floor; a domain that keeps its grant keeps its record,
and a lowered one is REVOKING with a deadline, counted and listed once, and queued for what it wants back (R141). `listed`
says which domains the open round listed before. -/
def State.lowersDomains (s t : State) (listed : Fin 6 → Bool) : Prop :=
  ∀ i, (s.alc.domains.get i = none → t.alc.domains.get i = none) ∧
    ∀ d, s.alc.domains.get i = some d →
      ∃ e, t.alc.domains.get i = some e ∧ d.floor ≤ e.held ∧ e.held ≤ d.held ∧ (e.held = d.held → e = d) ∧
        (e.held < d.held →
          e = { d with
            grant := some e.held, state := .revoking, deadline := e.deadline, holdStart := none, overdueSince := none
            revocations := if listed i then d.revocations else min 65535 (d.revocations + 1) } ∧
          e.deadline ≠ none ∧
          (∃ a ∈ t.alc.round.affected, a.slot = i ∧ (listed i = false → a.oldGrant = d.held)) ∧
          (e.permit = .on → e.held < e.wanted → ∃ q ∈ t.alc.queue, q.slot = i))

/-- A domain taken below its bound has every domain that is taken from before it at its floor: the higher priority number
goes first, and in it the higher slot (R133, R140). `who` says from which domains power is taken. -/
def State.takesInOrder (s t : State) (bound : Fin 6 → Nat) (who : Domain → Prop) : Prop :=
  ∀ i j d e, s.alc.domains.get i = some d → s.alc.domains.get j = some e → who d → t.alc.grants.get j < bound j →
    (e.priority < d.priority ∨ (e.priority = d.priority ∧ j < i)) → t.alc.grants.get i = d.floor

/-! ## Invariants -/

/-- The key of a notice (R176). -/
def Notice.key (n : Notice) : Nat × Nat := (n.kind, n.subject)

/-- The notice queue holds at most 16 entries, no two with the same key (R176). -/
abbrev NoticesOk (l : List Notice) : Prop := l.length ≤ 16 ∧ (l.map Notice.key).Nodup

/-- The link's slots and transmitter agree (R174, R175, R178): at most two slots; one is being sent while the transmitter
sends a reply, and none otherwise; a slot being sent has a reply; a beginning is noted of a frame being sent and of no other,
and only such a frame is cut by a break. -/
abbrev LinkOk (k : Slk) : Prop :=
  k.slots.length ≤ 2 ∧ k.slots.countP (·.sending) = (if k.tx = .sendingReply then 1 else 0) ∧
  k.slots.all (fun r => !r.sending || r.reply.isSome) = true ∧ (k.cut ≠ none → k.tx ≠ .idle) ∧
  (k.txStart = none ↔ k.tx = .idle)

/-- A limit set passes every check and lies within the chassis limits (R8, R9). -/
def setFits (c : ChassisLimits) (f : LimitSet) : Bool := (setChecks f).all id && (boundChecks c f).all id

/-- No set is VALID before the lock; the chassis limits pass their checks, and every VALID set lies within them (R1, R3,
R5). -/
abbrev LimitsOk (l : Lst) : Prop :=
  match l.chassis with
  | none => l.sets.toList.all Option.isNone = true
  | some c => (chassisChecks c).all id = true ∧ l.sets.toList.all (·.all (setFits c)) = true

/-- The mode, the lock and the prerequisites of RUN agree (R1, R5, R182, R183). -/
abbrev ModeOk (s : State) : Prop :=
  (s.mdc.mode = .prepare ↔ s.lst.chassis = none) ∧
  (s.managed = true → s.lst.emptySets = [] ∧ s.srm.setup.isSome = true) ∧
  (s.mdc.guardClaim = true → s.mdc.mode = .locked)

/-- A declared domain as declarations leave it (R118, R122): priority 0 to 3, a floor of whole grant steps that is not above
the ceiling, and 0 for a CHARGER. -/
def Domain.sound (d : Domain) : Bool :=
  d.priority ≤ 3 && isStep d.floor && d.floor ≤ d.ceiling && (d.kind != .charger || d.floor == 0)

/-- A managed domain holds at least its floor, and its effective ceiling is not below its floor (R120, R137). -/
def Domain.holdsFloor (d : Domain) : Bool := d.grant.any (d.floor ≤ ·) && d.effCeiling.any (d.floor ≤ ·)

/-- Every declared domain satisfies a test. -/
def Alc.allDomains (a : Alc) (p : Domain → Bool) : Bool :=
  six.all fun i => match a.domains.get i with
    | some d => p d
    | none => true

/-- The round record agrees with the domains (R139, R141, R149): a round is open exactly while a domain is REVOKING; every
REVOKING domain is listed, each listed one is declared and listed once; while no round is open the record is clear but for
its number; a reservation has a beneficiary, whose entry waits and whose shortfall it does not exceed. -/
abbrev RoundOk (a : Alc) : Prop :=
  (a.round.opened = true ↔ ∃ i, a.revoking i = true) ∧ (∀ i, a.revoking i = true → a.round.lists i = true) ∧
  (a.round.affected.map (·.slot)).Nodup ∧ (∀ e ∈ a.round.affected, (a.domains.get e.slot).isSome = true) ∧
  (a.round.opened = false → a.round = a.round.closed) ∧
  (a.round.reservation ≠ 0 → a.round.beneficiary ≠ none) ∧
  ∀ i, a.round.beneficiary = some i →
    (∃ e ∈ a.queue, e.slot = i) ∧ a.round.reservation ≤ (a.domains.get i).elim 0 Domain.shortfall

/-- A domain that waits for a raise: permitted, with less than it wants (R130). -/
def Domain.waits (d : Domain) : Bool := d.permit == .on && d.held < d.wanted

/-- The raise queue (R130): in order of priority, time and slot, at most one entry a domain, each with its domain's priority;
in RUNNING and DOZING exactly the domains that wait have one, and outside them it is empty. -/
abbrev QueueOk (s : State) : Prop :=
  s.alc.queue.Pairwise (fun a b => a.before b = true) ∧ (s.alc.queue.map (·.slot)).Nodup ∧
  (∀ e ∈ s.alc.queue, (s.alc.domains.get e.slot).map (·.priority) = some e.priority) ∧
  (s.managed = true → ∀ i, (∃ e ∈ s.alc.queue, e.slot = i) ↔ (s.alc.domains.get i).any Domain.waits = true) ∧
  (s.managed = false → s.alc.queue = [])

/-- The thermal claim is set exactly while a zone is CRITICAL (R92), and outside RUNNING and DOZING every zone is OFF
(R97). -/
abbrev ZonesOk (s : State) : Prop :=
  (s.znm.thermalClaim = true ↔ ∃ z, (s.znm.zones.get z).state = .critical) ∧
  (s.managed = false → ∀ z, (s.znm.zones.get z).state = .off)

/-- The bound of the grants (R113) with what it rests on: in RUNNING and DOZING, B is formed from its inputs, every domain
holds its floor, and grants and reservation stay within B; outside them every domain is UNMANAGED with no grant and nothing
is reserved. -/
abbrev GrantsOk (s : State) : Prop :=
  s.alc.allDomains Domain.sound = true ∧
  (s.managed = true →
    s.alc.budget.effective = some s.formB ∧ s.alc.allDomains Domain.holdsFloor = true ∧ s.alc.taken ≤ s.formB) ∧
  (s.managed = false →
    s.alc.allDomains (fun d => d.grant.isNone && d.state == .unmanaged) = true ∧ s.alc.round.reservation = 0)

end Sys2Proof.Machine
end

