-- ==== Sys2Proof/Certificates/Slice0/Obligations.lean ====
section
/-! DEFINITION. What is claimed of the part: one definition per statement, in the order of OBLIGATIONS.json. -/

open Sys2Proof Sys2Proof.Machine

/-! ## The queue of commands -/

/-- A step takes the command at the front of the queue and runs its meaning on the state with the queue's rest. With no
command and no sample of RXD waiting the part idles (the model's own choice, log 1 and 24). -/
def Obligations.StepRunsTheFrontCommand : Prop :=
  (∀ (c : Instr) (rest : List Instr) (s : State), s.pending = c :: rest → step s = exec c (s.withPending rest)) ∧
  ∀ s : State, s.pending = [] → s.slk.rxdWaiting = [] → step s = .next s

/-! ## Power-on reset -/

/-- POWER_ON_RESET completes in every state with every record at its reset value. The model's own queue of commands and its
choices stand (log 1 and 3). State.reset holds values of the model's own: the fans' first notices and PWM period (log 11),
HRDY (log 29), and what stands for a completion before the first (log 40). -/
def Obligations.PowerOnResetTakesResetState : Prop :=
  ∀ s : State, exec .powerOnReset s = .next { State.reset with choices := s.choices, pending := s.pending }

/-- What the manual gives each record at power-on reset. No value that the model chose is named here. -/
def Obligations.ResetValuesOfTheRecords : Prop :=
  let r := State.reset
  r.mdc.mode = .prepare ∧ r.mdc.guardClaim = false ∧ r.mdc.restartAwaited = false ∧
  (∀ k, r.mdc.faults.get k = { detected := false, report := true, subject := none }) ∧
  r.lst.chassis = none ∧ (∀ p, r.lst.get p = none) ∧
  (∀ n, let c := r.msu.channels.get n
    c.enabled = false ∧ c.kind = .temp ∧ c.curve = some .a ∧ c.fullScale = none ∧ c.depth = 1 ∧ c.winLow = -400 ∧
    c.winHigh = 1500 ∧ c.calSource = .factory ∧ c.restartPending = false ∧ c.history = [] ∧ c.lastRaw = none ∧
    c.state = .off) ∧
  r.msu.scanList = [] ∧ r.msu.frontEnd = .free ∧ r.msu.claim = .unclaimed ∧ r.msu.last.number = 0 ∧
  (∀ i, let e := r.csu.electrodes.get i
    e.enabled = false ∧ e.near = 100 ∧ e.contact = 300 ∧ e.hyst = 20 ∧ e.state = .off ∧ e.raw = none ∧ e.baseline = none ∧
    e.delta = none ∧ e.confirmed = .noTouch) ∧
  r.csu.resolution = 12 ∧ r.csu.rebase = .noRebase ∧ r.csu.learning = .idle ∧
  r.plu.evidence = { lid := .closed, motion := .moving, baseContact := 0, baseNear := 0, topNear := 0, edgeNear := 0 } ∧
  r.plu.placement = .unsettled ∧ r.plu.candidate = none ∧ r.plu.dwell = .idle ∧ r.plu.pin = none ∧
  r.plu.stillTimer = some (ms 2000) ∧
  (∀ z, let y := r.znm.zones.get z
    y.enabled = false ∧ y.source = .fed ∧ y.temperature = none ∧ y.state = .off ∧ y.r = 0 ∧ y.stepTimer = none) ∧
  r.znm.thermalClaim = false ∧ r.srm.setup = none ∧ r.srm.adapterPresent = false ∧ r.srm.battery = .normal ∧
  r.srm.sourceLimit = none ∧ r.alc.budget.systemCap = none ∧ r.alc.budget.credit = 0 ∧ r.alc.budget.armed = false ∧
  r.alc.budget.effective = none ∧ (∀ i, r.alc.domains.get i = none) ∧ r.alc.queue = [] ∧ r.alc.round.number = 0 ∧
  r.alc.round.opened = false ∧
  (∀ n, r.clu.get n = { enabled := true, polarity := .activeLow, drive := .openDrain, causes := [], assigned := none }) ∧
  (∀ n, let f := r.fnc.fans.get n
    f.enabled = true ∧ f.ppr = 2 ∧ f.minDuty = 20 ∧ f.target = 60 ∧ f.speed = none ∧ f.attempts = 0 ∧ f.finalFlag = false) ∧
  r.slk.slots = [] ∧ r.slk.tx = .idle ∧ r.slk.rx = .hunt ∧ r.slk.dropped = false ∧ r.rdy = true

/-! ## Requests at the link (chapter 10) -/

/-- A request that finds both slots occupied is lost, and LINK_OVERRUN is detected. While a RESTART is awaited a request
that finds a free slot occupies it with no reply formed, and reaches no owner. In a break no request is taken (the model's
reading of its request rows, log 4). -/
def Obligations.RequestsThatReachNoOwner : Prop :=
  ∀ (c : Instr) (dt : Nat) (kind tag : Byte) (s : State), request? c = some (dt, kind, tag) →
    (s.slk.breakActive = false → 2 ≤ s.slk.slots.length → exec c s = .next (detect .linkOverrun 0 (s.elapse dt))) ∧
    (s.slk.breakActive = false → s.slk.slots.length < 2 → s.mdc.restartAwaited = true →
      exec c s = .next ((s.elapse dt).occupy { kind := kind, tag := tag, reply := none, sending := false })) ∧
    (s.slk.breakActive = true → exec c s = .next (s.elapse dt))

/-- Every request that is taken is answered at once: its slot, with its kind plus 80h and its tag, stands behind the slots
occupied before it. -/
def Obligations.EveryTakenRequestIsAnswered : Prop :=
  ∀ (c : Instr) (dt : Nat) (kind tag : Byte) (s : State), request? c = some (dt, kind, tag) → s.takes →
    ∃ t a, exec c s = .next t ∧ t.slk.slots = s.slk.slots ++ [answeredSlot kind tag a] ∧ t.pending = s.pending ∧
      t.slk.tx = s.slk.tx ∧ t.slk.rx = s.slk.rx

/-- IDENTIFY and STATUS complete in every mode: IDENTIFY replies the part's codes, STATUS the records as they stand, and
STATUS clears the notices-dropped flag. A reply is held as its fields (log 30). -/
def Obligations.IdentifyAndStatusReply : Prop :=
  ∀ (dt : Nat) (tag : Byte) (s : State), s.takes →
    exec (.identify dt tag) s = .next ((s.elapse dt).answered 0x01 tag { status := .ok, body := .identity "IF" "L36" 2 }) ∧
    exec (.status dt tag) s =
      .next (({ s.elapse dt with slk := { s.slk with dropped := false } } : State).answered 0x02 tag
        { status := .ok
          body := .status
            { mode := s.mdc.mode, placement := s.plu.placement, pinned := s.plu.pin.isSome, candidate := s.plu.candidate
              roundOpen := s.alc.round.opened, armed := s.alc.budget.armed, adapterPresent := s.srm.adapterPresent
              dropped := s.slk.dropped, effective := if s.managed then s.alc.budget.effective else none
              spare := if s.managed then some (s.alc.budget.effective.getD 0 - (s.alc.grantSum + s.alc.round.reservation))
                else none
              reservation := s.alc.round.reservation, sumGrants := s.alc.grantSum, floorSum := s.alc.floorSum
              roundNumber := s.alc.round.number, credit := s.alc.budget.credit, battery := s.srm.battery
              detected := s.mdc.faults.toList.map (·.detected) } })

/-- The check byte decides on a frame: it is right when it is the CRC-8 of length, kind, tag and body (the IDENTIFY frame
with tag 05h ends with F3h). Another discards the frame with LINK_CHECK. With a right one and both slots occupied the frame
is lost with LINK_OVERRUN; while a RESTART is awaited it occupies a slot with no reply; else a frame of an unassigned kind or
a wrong body length is answered by the link, and any other is handed to its kind's owner and acts as the request row that its
body spells. A start bit whose line has stayed low for 2 ms stays, so that a break at the same moment may follow. -/
def Obligations.CheckByteDecidesOnAFrame : Prop :=
  frameBytes 0x01 0x05 [] = [0xC3, 0x02, 0x01, 0x05, 0xF3] ∧
  ∀ (dt t0 length : Nat) (stored : List Byte) (check : Byte) (s : State), s.slk.startBit = some t0 →
    s.slk.breakActive = false → s.slk.rx = .check length stored →
    let high : LineFilter := if s.slk.rxd.accepted = .high then s.slk.rxd else { s.slk.rxd with accepted := .high, run := 0 }
    let ended : State := { s.elapse dt with
      slk := if t0 + 2000 ≤ s.now + dt then { s.slk with rx := .hunt, gapTimer := none }
        else { s.slk with startBit := none, heard := [], rx := .hunt, gapTimer := none, rxd := high } }
    let kind := stored.getD 0 0
    let tag := stored.getD 1 0
    let body := stored.drop 2
    let right : Prop := check = crc8 (leBytes 1 length ++ stored)
    let completes := fun t : State => exec (.frameComplete dt check) s = .next t
    (¬right → completes (detect .linkCheck 0 ended)) ∧
    (right → 2 ≤ s.slk.slots.length → completes (detect .linkOverrun 0 ended)) ∧
    (right → s.slk.slots.length < 2 → s.mdc.restartAwaited = true →
      completes (ended.occupy { kind := kind, tag := tag, reply := none, sending := false })) ∧
    (right → s.takes →
      (requiredLength kind body = none → completes (ended.answered kind tag { status := .unknownKind, body := .empty })) ∧
      (∀ n, requiredLength kind body = some n → body.length ≠ n →
        completes (ended.answered kind tag { status := .badLength, body := .empty })) ∧
      (requiredLength kind body = some body.length →
        completes ((frameOwner kind body ended).1.answered kind tag (frameOwner kind body ended).2))) ∧
    ∀ c, right → requiredLength kind body = some body.length → requestRow? kind tag body = some c →
      exec (.frameComplete dt check) s = exec c ended

/-- A frame of an unassigned kind is answered UNKNOWN_KIND, and one whose body has not the length its kind requires
BAD_LENGTH; neither has another effect than its slot. The lengths are those of section 10.8. -/
def Obligations.UnknownKindsAndWrongLengthsAreRefused : Prop :=
  ∀ (kind tag : Byte) (body : List Byte) (s : State), s.takes →
    let frame := fun st : State => takeFrame (body.length + 2) (kind :: tag :: body)
      (crc8 (leBytes 1 (body.length + 2) ++ kind :: tag :: body)) st
    let first := (body.headD 0).toNat
    let fifth := (body.getD 4 0).toNat
    (requiredLength kind body = none → frame s = s.answered kind tag { status := .unknownKind, body := .empty }) ∧
    (∀ n, requiredLength kind body = some n → body.length ≠ n →
      frame s = s.answered kind tag { status := .badLength, body := .empty }) ∧
    (requiredLength kind body = none ↔ kind.toNat ∉
      [0x01, 0x02, 0x03, 0x04, 0x05, 0x06, 0x08, 0x09, 0x0A, 0x10, 0x11, 0x12, 0x13, 0x18, 0x19, 0x1A, 0x20, 0x21, 0x22, 0x28,
        0x29, 0x2A, 0x2B, 0x30, 0x31, 0x32, 0x33, 0x34, 0x35, 0x38, 0x39, 0x3C, 0x3D, 0x3E, 0x3F]) ∧
    (∀ p ∈ ([(0x01, 0), (0x02, 0), (0x03, 0), (0x04, 0), (0x05, 0), (0x06, 0), (0x08, 33), (0x09, 56), (0x0A, 1), (0x10, 11),
        (0x11, 1 + first), (0x12, 2), (0x13, 6), (0x18, 8), (0x19, 2), (0x1A, 0), (0x20, 5 + fifth), (0x21, 4), (0x22, 2),
        (0x28, 19), (0x29, 4), (0x2A, 2), (0x2B, 4), (0x30, 24), (0x31, 1), (0x32, 4), (0x33, 1), (0x34, 2), (0x35, 2),
        (0x38, 4), (0x39, 0), (0x3C, 4), (0x3D, 1), (0x3E, 0), (0x3F, 5)] : List (Nat × Nat)),
      kind.toNat = p.1 → requiredLength kind body = some p.2)

/-- START_BIT and RECEIVED_BYTE move frame assembly by the table of the receiver, and the gap timer runs from the end of each
stop bit inside a frame and is stopped by each start bit. With no command waiting a step takes the next sample of RXD through
its filter, the third differing one changing the accepted level: a fall is a START_BIT, the eight middles of the data bits,
least significant first, with a high stop bit are a received byte, whose stop bit ends 8 samples later, and a low stop bit
leads to a FRAMING_ERROR or, 2 ms after the fall, a BREAK, which a high level ends. Sample times and the middles, 16 k + 8
samples after the fall, are the model's choice (log 24 and 39). -/
def Obligations.ReceiverAssemblesFrames : Prop :=
  let settled := fun (level : Level) (f : LineFilter) =>
    if f.accepted = level then f else { f with accepted := level, run := 0 }
  let assembles := fun (b : Byte) (stopEnd : Nat) (u : State) (o : Host.Outcome State Fault Refusal) =>
    let gap := some (stopEnd + ms 5)
    let after := fun (r : Receiver) (g : Option Nat) => Host.Outcome.next (φ := Fault) (ρ := Refusal) { u with
      slk := { u.slk with startBit := none, heard := [], rx := r, gapTimer := g, rxd := settled .high u.slk.rxd } }
    (u.slk.rx = .hunt → b = 0xC3 → o = after .length gap) ∧
    (u.slk.rx = .hunt → b ≠ 0xC3 → o = after .hunt u.slk.gapTimer) ∧
    (u.slk.rx = .length → 2 ≤ b.toNat → b.toNat ≤ 62 → o = after (.body b.toNat [] b.toNat) gap) ∧
    (u.slk.rx = .length → (b.toNat < 2 ∨ 62 < b.toNat) → o = after .hunt none) ∧
    (∀ length stored count, u.slk.rx = .body length stored count →
      o = after (if count ≤ 1 then .check length (stored ++ [b]) else .body length (stored ++ [b]) (count - 1)) gap)
  (∀ (dt t0 : Nat) (b : Byte) (s : State), s.slk.breakActive = false →
    (s.slk.startBit = none → exec (.startBit dt) s = .next { s.elapse dt with
      slk := { s.slk with
        startBit := some (s.now + dt), heard := [.low], gapTimer := none, rxd := settled .low s.slk.rxd } }) ∧
    (s.slk.startBit = some t0 → assembles b (s.now + dt) (s.elapse dt) (exec (.receivedByte dt b) s))) ∧
  ∀ (level : Level) (rest : List Level) (s : State), s.pending = [] → s.slk.rxdWaiting = level :: rest →
    let time := (s.slk.rxdTaken + 1) * 625 / 1152
    let f := s.slk.rxd
    let filtered : LineFilter :=
      if level = f.accepted then { f with run := 0, sampledAt := time }
      else if f.run < 2 then { f with run := f.run + 1, sampledAt := time }
      else { accepted := level, run := 0, sampledAt := time }
    let seen := filtered.accepted
    let t : State := { s.reach time with
      slk := { s.slk with rxdWaiting := rest, rxdTaken := s.slk.rxdTaken + 1, rxd := filtered } }
    let heard : State := { t with slk := { t.slk with heard := s.slk.heard ++ [seen] } }
    let n := s.slk.heard.length
    (s.slk.breakActive = true → step s = if seen = .high then exec (.breakEnd 0) t else .next t) ∧
    (s.slk.breakActive = false → s.slk.startBit = none →
      step s = if f.accepted = .high ∧ seen = .low then exec (.startBit 0) t else .next t) ∧
    ∀ t0, s.slk.breakActive = false → s.slk.startBit = some t0 →
      (n < 152 ∨ (n = 152 ∧ seen = .low) → step s = .next heard) ∧
      (n = 152 → seen = .high → ∃ b : Byte,
        (∀ k : Nat, k < 8 → (b.getLsbD k = true ↔ s.slk.heard[16 * (k + 1) + 8]? = some .high)) ∧
        assembles b (max heard.now ((s.slk.rxdTaken + 9) * 625 / 1152)) heard (step s) ∧
        ∀ length stored, s.slk.rx = .check length stored → step s = exec (.frameComplete 0 b) heard) ∧
      (152 < n → seen = .high → step s = exec (.framingError 0) t) ∧
      (152 < n → seen = .low → step s = if t0 + 2000 ≤ max s.now time then exec .lineBreak t else .next t)

/-- A byte with a bad stop bit inside a frame, and the expiry of the gap timer, abandon the frame: the receiver goes to
HUNT, and LINK_CHECK or LINK_GAP is detected. A break discards the frame and every reply not being sent, frees their slots,
leaves the notice queue and cuts a frame being sent, which goes on to the end of its present byte (its FRAME_TRANSMIT_END,
log 10); its end lets the link go on. -/
def Obligations.BrokenFramesAndBreaks : Prop :=
  ∀ (dt t0 : Nat) (s : State),
    let high : LineFilter := if s.slk.rxd.accepted = .high then s.slk.rxd else { s.slk.rxd with accepted := .high, run := 0 }
    let ended := fun (r : Receiver) (g : Option Nat) => ({ s.elapse dt with
      slk := { s.slk with startBit := none, heard := [], rx := r, gapTimer := g, rxd := high } } : State)
    (s.slk.breakActive = false → s.slk.startBit = some t0 → s.slk.rx ≠ .hunt →
      exec (.framingError dt) s = .next (detect .linkCheck 0 (ended .hunt none))) ∧
    (s.slk.breakActive = false → s.slk.startBit = some t0 → s.slk.rx = .hunt →
      exec (.framingError dt) s = .next (ended .hunt s.slk.gapTimer)) ∧
    (s.slk.gapTimer = some t0 → exec .gapTimerExpiry s =
      .next (detect .linkGap 0 { s.reach t0 with slk := { s.slk with rx := .hunt, gapTimer := none } })) ∧
    (s.slk.startBit = some t0 → exec .lineBreak s = .next { s.reach (t0 + ms 2) with
      slk := { s.slk with startBit := none, heard := [], rx := .hunt, gapTimer := none, breakActive := true
                          cut := if s.slk.tx = .idle then none else some (max s.now (t0 + 2000))
                          slots := s.slk.slots.filter fun r => r.reply.isNone || r.sending } }) ∧
    (s.slk.breakActive = true → exec (.breakEnd dt) s = .next { s.elapse dt with
      slk := { s.slk with breakActive := false, rxd := high } })

/-- The transmitter begins only while it is idle with HRDY asserted and no break, and when there is something to send.
Replies go before notices, the oldest first; a notice leaves the queue as it begins, and a reply frees its slot as its frame
ends. A frame is lead byte, length, kind, tag, body and check byte; a reply's body has its status first, a notice's its
subject, with tag 00h (the bytes after it are open where section 10.8 lays none out, log 30). On TXD its bytes follow one
another at 115,200 bit/s, each a low start bit, eight data bits, least significant first, and a high stop bit; TXD is high
while nothing is sent, after the last byte, and after the byte that was being sent at a break. RDY is asserted exactly while
fewer than two slots are occupied, ATN exactly while the notice queue holds an entry. That FRAME_TRANSMIT_END also ends the
byte at which a break has cut a frame, and that a byte beginning at the break's moment is sent (log 10), and that the row
leaves the records while nothing is sent (log 2), is the model's own. -/
def Obligations.TransmitterSendsRepliesThenNotices : Prop :=
  (∀ (dt : Nat) (s : State),
    let free : Prop := s.slk.tx = .idle ∧ s.slk.breakActive = false
    let reply := exec (.replyTransmitStart dt true) s
    let notice := exec (.noticeTransmitStart dt true) s
    let only := Host.Outcome.next (φ := Fault) (ρ := Refusal) { s.elapse dt with slk := { s.slk with hrdy := true } }
    (s.rdy = true ↔ s.slk.slots.length < 2) ∧ (s.atn = true ↔ s.slk.notices ≠ []) ∧
    (∀ (l r : List RequestSlot) (x : RequestSlot), free → s.slk.slots = l ++ x :: r → (∀ y ∈ l, y.reply = none) →
      x.reply.isSome = true → x.sending = false →
      let begun : State := { s.elapse dt with
        slk := { s.slk with
          hrdy := true, tx := .sendingReply, txStart := some (s.now + dt), slots := l ++ { x with sending := true } :: r } }
      reply = .next begun ∧ ∀ p, x.reply = some p → (∀ y ∈ l, y.sending = false) →
        begun.sentFrame = some (frameBytes p.kind p.tag p.bodyBytes) ∧
        begun.sentHead = some { kind := p.kind, tag := p.tag, first := BitVec.ofNat 8 p.answer.status.code }) ∧
    (∀ (n : Notice) (l : List Notice), free → (∀ y ∈ s.slk.slots, y.reply = none ∨ y.sending = true) → s.slk.notices = n :: l →
      let begun : State := { s.elapse dt with
        slk := { s.slk with hrdy := true, tx := .sendingNotice n, txStart := some (s.now + dt), notices := l } }
      notice = .next begun ∧ begun.sentFrame = some (frameBytes (BitVec.ofNat 8 n.kind) 0x00 n.bodyBytes) ∧
        begun.sentHead = some { kind := BitVec.ofNat 8 n.kind, tag := 0x00, first := BitVec.ofNat 8 n.subject }) ∧
    ((s.slk.tx ≠ .idle ∨ s.slk.breakActive = true) → reply = only ∧ notice = only) ∧
    ((∀ y ∈ s.slk.slots, y.reply = none ∨ y.sending = true) → reply = only) ∧
    ((∃ y ∈ s.slk.slots, y.reply.isSome = true ∧ y.sending = false) → notice = only) ∧ (s.slk.notices = [] → notice = only) ∧
    exec (.replyTransmitStart dt false) s = .next { s.elapse dt with slk := { s.slk with hrdy := false } } ∧
    exec (.noticeTransmitStart dt false) s = .next { s.elapse dt with slk := { s.slk with hrdy := false } } ∧
    (s.slk.tx = .sendingReply → exec (.frameTransmitEnd dt) s = .next { s.elapse dt with
      slk := { s.slk with
        tx := .idle, txStart := none, cut := none, slots := s.slk.slots.filter fun r => !r.sending } }) ∧
    (∀ n, s.slk.tx = .sendingNotice n → exec (.frameTransmitEnd dt) s = .next { s.elapse dt with
      slk := { s.slk with tx := .idle, txStart := none, cut := none } }) ∧
    (s.slk.tx = .idle → exec (.frameTransmitEnd dt) s = .next (s.elapse dt))) ∧
  (∀ (kind tag : Byte) (body : List Byte),
    let inner := BitVec.ofNat 8 (body.length + 2) :: kind :: tag :: body
    frameBytes kind tag body = 0xC3 :: inner ++ [crc8 inner]) ∧
  (∀ p : Reply, p.bodyBytes[0]? = some (BitVec.ofNat 8 p.answer.status.code) ∧ p.bodyBytes.length ≤ 60 ∧
    (p.answer.body = .empty → p.bodyBytes.length = 1) ∧
    ∀ r, p.answer.body = .status r → p.bodyBytes.tail = r.bytes.tail ∧ p.bodyBytes.length = 27) ∧
  (∀ n : Notice, n.bodyBytes[0]? = some (BitVec.ofNat 8 n.subject) ∧ n.bodyBytes.length ≤ 60 ∧
    ∀ l, n.grantBytes = some l → n.bodyBytes = l ∧ l.length = 14) ∧
  (∀ (b : Byte) (k : Nat), (byteLevels b)[k]? =
    if k = 0 then some .low else if k < 9 then some (if b.getLsbD (k - 1) then .high else .low)
    else if k = 9 then some .high else none) ∧
  ∀ s : State,
    (s.slk.txStart = none → s.txd = .high) ∧
    ∀ (f : List Byte) (start : Nat), s.sentFrame = some f → s.slk.txStart = some start →
      let reaches := fun (bits time : Nat) => bits * 1000000 ≤ (time - start) * 115200
      (∀ (n k : Nat) (b : Byte), f[n]? = some b → k < 10 →
        reaches (10 * n + k) s.now → ¬reaches (10 * n + k + 1) s.now → (∀ e, s.slk.cut = some e → reaches (10 * n) e) →
        some s.txd = (byteLevels b)[k]?) ∧
      (reaches (10 * f.length) s.now → s.txd = .high) ∧
      ∀ (n e : Nat), s.slk.cut = some e → ¬reaches (10 * n) e → reaches (10 * n) s.now → s.txd = .high

/-- A posting replaces the content of the entry with its key in its place, is appended when there is none and fewer than 16
entries wait, and is dropped with the flag set otherwise. A detection sets the flag of its kind and makes its subject the
latest one, whether or not the flag was set, and posts a FAULT notice exactly when the kind's report is enabled. -/
def Obligations.PostingFollowsTheNoticeTable : Prop :=
  (∀ (k : FaultKind) (subject : Nat) (s : State),
    let entry := s.mdc.faults.get k.index
    let recorded : State := { s with mdc := { s.mdc with
      faults := s.mdc.faults.set k.index { entry with detected := true, subject := some subject } } }
    ([.channel, .electrode, .zoneStale, .fanStall, .domainOverdue, .scanOverrun, .linkCheck, .linkGap, .linkOverrun] :
      List FaultKind)[k.index.val]? = some k ∧
    detect k subject s = if entry.report then recorded.post (.fault k subject) else recorded) ∧
  ∀ (n : Notice) (s : State),
    (∀ (l r : List Notice) (m : Notice), s.slk.notices = l ++ m :: r → m.key = n.key → (s.slk.notices.map Notice.key).Nodup →
      s.post n = { s with slk := { s.slk with notices := l ++ n :: r } }) ∧
    ((∀ m ∈ s.slk.notices, m.key ≠ n.key) → s.slk.notices.length < 16 →
      s.post n = { s with slk := { s.slk with notices := s.slk.notices ++ [n] } }) ∧
    ((∀ m ∈ s.slk.notices, m.key ≠ n.key) → 16 ≤ s.slk.notices.length →
      s.post n = { s with slk := { s.slk with dropped := true } })

/-- The notice queue holds at most 16 entries, no two with the same kind and subject, and every step keeps it so. -/
def Obligations.EveryStepKeepsTheNoticeQueue : Prop :=
  ∀ s t : State, NoticesOk s.slk.notices → step s = .next t → NoticesOk t.slk.notices

/-- Every step keeps the link in order: at most two slots; one is being sent while the transmitter sends a reply and none
otherwise, and it has its reply. -/
def Obligations.EveryStepKeepsTheLink : Prop := ∀ s t : State, LinkOk s.slk → step s = .next t → LinkOk t.slk

/-- The invariants of the notice queue, the link, the Limit Store, the modes, the grants, the round, the raise queue and the
zones hold at reset. -/
def Obligations.InvariantsHoldAtReset : Prop :=
  NoticesOk State.reset.slk.notices ∧ LinkOk State.reset.slk ∧ LimitsOk State.reset.lst ∧ ModeOk State.reset ∧
  GrantsOk State.reset ∧ RoundOk State.reset.alc ∧ QueueOk State.reset ∧ ZonesOk State.reset

/-! ## Limit Store (chapter 1) -/

/-- CHASSIS_LIMITS is taken once. A locked record answers LOCKED; a failing field answers BAD_FIELD with the number of the
first one; neither changes anything. Otherwise all fourteen fields are stored, PREPARE becomes LOCKED, and with no contact
scan in flight nothing but the fans and their notices can follow. The checks are the ranges, steps and orderings of the
chassis fields, in field-number order. -/
def Obligations.ChassisLimitsAreWrittenOnce : Prop :=
  (∀ (dt : Nat) (tag : Byte) (f : ChassisLimits) (s : State), s.takes →
    (s.lst.chassis.isSome = true → exec (.chassisLimits dt tag f) s =
      .next ((s.elapse dt).answered 0x08 tag { status := .locked, body := .empty })) ∧
    (s.lst.chassis = none → ∀ n, firstFailing 1 (chassisChecks f) = some n → exec (.chassisLimits dt tag f) s =
      .next ((s.elapse dt).answered 0x08 tag { status := .badField, body := .field n })) ∧
    (s.lst.chassis = none → firstFailing 1 (chassisChecks f) = none →
      ∃ t : State, exec (.chassisLimits dt tag f) s = .next (t.answered 0x08 tag { status := .ok, body := .empty }) ∧
        t.lst = { s.lst with chassis := some f } ∧ (s.mdc.mode = .prepare → t.mdc.mode = .locked) ∧
        t.plu = s.plu ∧ t.srm = s.srm ∧ t.msu.channels = s.msu.channels ∧ t.msu.scanList = s.msu.scanList ∧
        t.csu.electrodes = s.csu.electrodes ∧
        (s.mdc.mode = .prepare → s.msu.claim = .unclaimed → t = { s.elapse dt with
          lst := t.lst, mdc := { s.mdc with mode := .locked }, fnc := t.fnc
          slk := { s.slk with notices := t.slk.notices, dropped := t.slk.dropped } }))) ∧
  ∀ f : ChassisLimits,
    let zone := fun z : Fin 6 => -400 ≤ f.zoneCeiling.get z ∧ f.zoneCeiling.get z ≤ 1500
    let derate := fun n : Fin 2 => f.stallDerate.get n ≤ 250000 ∧ f.stallDerate.get n % 250 = 0
    let ok : Nat → Prop := (fun k => match k with
      | 1 => 250 ≤ f.maxSustained ∧ f.maxSustained ≤ 250000 ∧ f.maxSustained % 250 = 0
      | 2 => 250 ≤ f.maxBurst ∧ f.maxBurst ≤ 250000 ∧ f.maxBurst % 250 = 0 ∧ f.maxSustained ≤ f.maxBurst
      | 3 => f.minBudget ≤ 250000 ∧ f.minBudget % 250 = 0 ∧ f.minBudget ≤ f.maxSustained
      | 4 => zone 0
      | 5 => zone 1
      | 6 => zone 2
      | 7 => zone 3
      | 8 => zone 4
      | 9 => zone 5
      | 10 => 5 ≤ f.sourceDeadline ∧ f.sourceDeadline ≤ 200
      | 11 => 0 ≤ f.guardTemp ∧ f.guardTemp ≤ 1500
      | 12 => derate 0
      | 13 => derate 1
      | _ => f.systemReserve ≤ 250000)
    (firstFailing 1 (chassisChecks f) = none ↔ ∀ k, 1 ≤ k → k ≤ 14 → ok k) ∧
    ∀ k, firstFailing 1 (chassisChecks f) = some k ↔ 1 ≤ k ∧ k ≤ 14 ∧ ¬ok k ∧ ∀ j, 1 ≤ j → j < k → ok j

/-- LOAD_SET is checked in four stages, and the first failure is the answer; a refused request changes nothing. An accepted
one stores all nineteen fields in the named set and leaves the other sets and the chassis limits; where the set is not the
active one, or the part is not RUNNING or DOZING, nothing else changes. A reload of the active set in RUNNING or DOZING
brings the credit within the new K, weighs the armed flag, forms B and the effective ceilings anew, evaluates every enabled
zone and forms every enabled fan's target; reductions and step timers stay. Stage 2 checks ranges, steps and orderings in
field-number order. In the reload clause no measurement scan waits for the front end; one that did could complete in the same
step. -/
def Obligations.LoadSetHasFourStages : Prop :=
  (∀ (dt : Nat) (tag : Byte) (n : Nat) (f : LimitSet) (s : State), s.takes →
    let refused := fun (st : Status) (b : ReplyBody) => exec (.loadSet dt tag n f) s =
      .next ((s.elapse dt).answered 0x09 tag { status := st, body := b })
    (3 < n → refused .noSuch .empty) ∧
    (n ≤ 3 → ∀ k, firstFailing 1 (setChecks f) = some k → refused .badField (.field k)) ∧
    (n ≤ 3 → firstFailing 1 (setChecks f) = none → s.lst.chassis = none → refused .notReady .empty) ∧
    (n ≤ 3 → firstFailing 1 (setChecks f) = none → ∀ c k, s.lst.chassis = some c →
      firstFailing 1 (boundChecks c f) = some k → refused .outOfLimits (.field k)) ∧
    (∀ p c, setOfNumber n = some p → firstFailing 1 (setChecks f) = none → s.lst.chassis = some c →
      firstFailing 1 (boundChecks c f) = none →
      let stored := { s.lst with sets := s.lst.sets.set p.index (some f) }
      (∃ t : State, exec (.loadSet dt tag n f) s = .next (t.answered 0x09 tag { status := .ok, body := .empty }) ∧
        t.lst = stored ∧ t.plu = s.plu ∧ t.pending = s.pending ∧
        (p = s.activeId → s.managed = true → s.msu.pendingMeas = false → s.takesSet t f)) ∧
      ((p ≠ s.activeId ∨ s.managed = false) → exec (.loadSet dt tag n f) s =
        .next (({ s.elapse dt with lst := stored } : State).answered 0x09 tag { status := .ok, body := .empty })))) ∧
  ∀ f : LimitSet,
    let step := fun n : Nat => n ≤ 250000 ∧ n % 250 = 0
    let zone := fun z : Fin 6 =>
      let t := f.zones.get z
      t.soft < t.hard ∧ t.hard < t.critical ∧ -400 ≤ t.soft ∧ t.critical ≤ 1500
    let fan := fun n : Fin 2 => (f.fans.get n).floor ≤ (f.fans.get n).ceiling ∧ (f.fans.get n).ceiling ≤ 100
    let ok : Nat → Prop := (fun k => match k with
      | 1 => step f.sustained
      | 2 => step f.burst ∧ f.sustained ≤ f.burst
      | 3 => f.bucket ≤ 2000000 ∧ (f.bucket = 0 → f.burst = f.sustained)
      | 4 => 10 ≤ f.rearm ∧ f.rearm ≤ 100
      | 5 => 5 ≤ f.hysteresis ∧ f.hysteresis ≤ 100
      | 6 => 250 ≤ f.thermalStep ∧ f.thermalStep ≤ 8000 ∧ f.thermalStep % 250 = 0
      | 7 => 250 ≤ f.stepInterval ∧ f.stepInterval ≤ 5000
      | 8 => step f.chargeCap
      | 9 => 10 ≤ f.compliance ∧ f.compliance ≤ 5000
      | 10 => f.tolerance ≤ 5000
      | 11 => 500 ≤ f.entryDwell ∧ f.entryDwell ≤ 30000
      | 12 => zone 0
      | 13 => zone 1
      | 14 => zone 2
      | 15 => zone 3
      | 16 => zone 4
      | 17 => zone 5
      | 18 => fan 0
      | _ => fan 1)
    (firstFailing 1 (setChecks f) = none ↔ ∀ k, 1 ≤ k → k ≤ 19 → ok k) ∧
    ∀ k, firstFailing 1 (setChecks f) = some k ↔ 1 ≤ k ∧ k ≤ 19 ∧ ¬ok k ∧ ∀ j, 1 ≤ j → j < k → ok j

/-- Stage 4 of LOAD_SET: of the fields in ascending number, field 1 fails when S is below the minimum budget or above max
sustained, field 2 when P is above max burst, fields 12 to 17 when the zone's critical threshold is above the zone's
ceiling, and no other field fails; the first failing one is named. -/
def Obligations.StageFourComparesWithTheChassis : Prop :=
  ∀ (c : ChassisLimits) (f : LimitSet),
    let bad1 := f.sustained < c.minBudget ∨ c.maxSustained < f.sustained
    let bad2 := c.maxBurst < f.burst
    let badZone := fun z : Fin 6 => c.zoneCeiling.get z < (f.zones.get z).critical
    (∀ k, firstFailing 1 (boundChecks c f) = some k →
      (k = 1 ∧ bad1) ∨ (k = 2 ∧ ¬bad1 ∧ bad2) ∨
      ∃ z : Fin 6, k = 12 + z.val ∧ ¬bad1 ∧ ¬bad2 ∧ badZone z ∧ ∀ y : Fin 6, y < z → ¬badZone y) ∧
    (firstFailing 1 (boundChecks c f) = none ↔ ¬bad1 ∧ ¬bad2 ∧ ∀ z, ¬badZone z) ∧
    (∀ (dt : Nat) (tag : Byte) (n k : Nat) (s : State), s.takes → n ≤ 3 → firstFailing 1 (setChecks f) = none →
      s.lst.chassis = some c → firstFailing 1 (boundChecks c f) = some k →
      exec (.loadSet dt tag n f) s =
        .next ((s.elapse dt).answered 0x09 tag { status := .outOfLimits, body := .field k }))

/-- No set is VALID before the lock; the chassis limits pass their checks and every VALID set passes its own and lies within
them; the mode is PREPARE exactly before the lock; in RUNNING and DOZING every set is VALID and the source is set up; the
guard claim is set only in LOCKED. Every step keeps all of it. -/
def Obligations.EveryStepKeepsLimitsAndModes : Prop :=
  ∀ s t : State, LimitsOk s.lst → ModeOk s → step s = .next t → LimitsOk t.lst ∧ ModeOk t

/-! ## Measurement (chapter 2) -/

/-- CHANNEL_SETUP is checked in the order of R19: NO_SUCH for a channel that does not exist, BAD_FIELD for a bad field,
CONFLICT for a listed channel and for another kind of a channel that another block holds; a refused one changes nothing.
Accepted, it replaces the setup of its channel, empties its history, makes it VALID or OFF, keeps its calibration, marks a
conversion of it in progress for discarding, and changes nothing else. -/
def Obligations.ChannelSetupReplacesTheRecord : Prop :=
  ∀ (dt : Nat) (tag : Byte) (f : ChannelFields) (s : State), s.takes →
    let refused := fun (st : Status) => exec (.channelSetup dt tag f) s =
      .next ((s.elapse dt).answered 0x10 tag { status := st, body := .empty })
    let within := fun (low high : Int) => low ≤ f.winLow ∧ f.winLow ≤ high ∧ low ≤ f.winHigh ∧ f.winHigh ≤ high
    let good := fun (k : ChannelKind) => f.depth ∈ [1, 2, 4, 8] ∧ f.winLow ≤ f.winHigh ∧
      if k = .temp then f.curve ≠ none ∧ within (-400) 1500 else 1 ≤ f.fullScale ∧ f.fullScale ≤ 65535 ∧ within 0 65535
    (16 ≤ f.channel → refused .noSuch) ∧ (f.channel < 16 → (∀ k, f.kind = some k → ¬good k) → refused .badField) ∧
    ∀ (c : Fin 16) (k : ChannelKind), f.channel = c.val → f.kind = some k → good k →
      let held : Prop := (∃ j d, s.alc.domains.get j = some d ∧ (d.sense = some c ∨ d.volt = some c)) ∨
        (∃ u, s.srm.setup = some u ∧ (u.batteryChannel = c ∨ ∃ p, u.pair = some p ∧ (p.1 = c ∨ p.2 = c))) ∨
        ∃ z, (s.znm.zones.get z).enabled = true ∧ (s.znm.zones.get z).source = .channels ∧ c ∈ (s.znm.zones.get z).channels
      (c ∈ s.msu.scanList → refused .conflict) ∧
      (c ∉ s.msu.scanList → k ≠ (s.msu.channels.get c).kind → held → refused .conflict) ∧
      (c ∉ s.msu.scanList → (k = (s.msu.channels.get c).kind ∨ ¬held) →
        exec (.channelSetup dt tag f) s = .next (({ s.elapse dt with
          msu := { s.msu with
            channels := s.msu.channels.set c { s.msu.channels.get c with
              enabled := f.enabled, kind := k, curve := if k = .temp then f.curve else none,
              fullScale := if k = .temp then none else some f.fullScale, depth := f.depth, winLow := f.winLow,
              winHigh := f.winHigh, restartPending := false, history := [], lastRaw := none,
              state := if f.enabled then .valid else .off },
            scan := s.msu.scan.map fun m => { m with
              current := m.current.map fun v => if v.channel = c then { v with discard := true } else v } } } :
          State).answered 0x10 tag { status := .ok, body := .empty }))

/-- An accepted SCAN_LIST replaces the stored list whole; one with more than 16 channels or a repetition is refused
BAD_FIELD, with a number above 15 NO_SUCH, with a disabled channel CONFLICT, the first failure first, and then nothing
changes. -/
def Obligations.ScanListIsReplacedWhole : Prop :=
  ∀ (dt : Nat) (tag : Byte) (l : List Nat) (s : State), s.takes →
    let refused := fun st => exec (.scanList dt tag l) s =
      .next ((s.elapse dt).answered 0x11 tag { status := st, body := .empty })
    (16 < l.length → refused .badField) ∧
    (l.length ≤ 16 → (∃ n ∈ l, 16 ≤ n) → refused .noSuch) ∧
    (l.length ≤ 16 → (∀ n ∈ l, n < 16) → ¬l.Nodup → refused .badField) ∧
    (∀ m : List (Fin 16), l = m.map Fin.val → m.Nodup → (∃ c ∈ m, (s.msu.channels.get c).enabled = false) →
      refused .conflict) ∧
    (∀ m : List (Fin 16), l = m.map Fin.val → m.Nodup → (∀ c ∈ m, (s.msu.channels.get c).enabled = true) →
      exec (.scanList dt tag l) s = .next (({ s.elapse dt with msu := { s.msu with scanList := m } } : State).answered 0x11 tag
        { status := .ok, body := .empty }))

/-- CAL_OVERRIDE with SET writes gain and offset as the working calibration with source OVERRIDE, with RESTORE the factory
row with source FACTORY; an enabled channel has restart pending; nothing else changes. Refused are a channel above M15 with
NO_SUCH and fields out of range with BAD_FIELD (the first of the two that applies: log 41). -/
def Obligations.CalOverrideWritesTheCalibration : Prop :=
  ∀ (dt : Nat) (tag : Byte) (c : Fin 16) (gain : Nat) (offset : Int) (s : State), s.takes →
    let r := s.msu.channels.get c
    let done := fun (r' : Channel) => Host.Outcome.next (φ := Fault) (ρ := Refusal)
      (({ s.elapse dt with msu := { s.msu with channels := s.msu.channels.set c r' } } : State).answered 0x13 tag
        { status := .ok, body := .empty })
    (16384 ≤ gain → gain ≤ 65535 → -512 ≤ offset → offset ≤ 511 → exec (.calOverrideSet dt tag c gain offset) s =
      done { r with gain := gain, offset := offset, calSource := .override
                    restartPending := r.enabled || r.restartPending }) ∧
    ((gain < 16384 ∨ 65535 < gain ∨ offset < -512 ∨ 511 < offset) → exec (.calOverrideSet dt tag c gain offset) s =
      .next ((s.elapse dt).answered 0x13 tag { status := .badField, body := .empty })) ∧
    (∀ n : Nat, 16 ≤ n → ∀ x ∈ [Instr.calOverrideSet dt tag n gain offset, .calOverrideRestore dt tag n],
      exec x s = .next ((s.elapse dt).answered 0x13 tag { status := .noSuch, body := .empty })) ∧
    exec (.calOverrideRestore dt tag c) s =
      done { r with gain := Config.factoryGain c, offset := Config.factoryOffset c, calSource := .factory
                    restartPending := r.enabled || r.restartPending }

/-- A raw count of 0 or 4095 gives a fault result. Any other is corrected by gain and offset, held to 0 to 4095, scaled by
the full-scale value or read from the thermistor curve, and is a value when it lies within the window and a fault result when
it does not. A curve is given at nine counts and read between them by straight lines, the added term rounded toward zero. The
raw becomes the last raw, and the result acts by the channel's state (section 2.2). -/
def Obligations.RawCountGivesAResultThatActs : Prop :=
  (∀ (c : Channel) (raw gain : Nat) (offset : Int),
    c.convert raw gain offset = ({ c with lastRaw := some raw } : Channel).takeResult (c.resultOf raw gain offset) ∧
    ((raw = 0 ∨ raw = 4095) → c.resultOf raw gain offset = none) ∧
    (raw ≠ 0 → raw ≠ 4095 →
      let corrected := (max 0 (min 4095 ((raw * gain / 32768 : Nat) + offset))).toNat
      let windowed := fun v : Int => if c.winLow ≤ v ∧ v ≤ c.winHigh then some v else none
      (∀ v, c.kind = .temp → c.curve = some v → c.resultOf raw gain offset = windowed (curveAt v corrected)) ∧
      (∀ n : Nat, c.kind ≠ .temp → c.fullScale = some n →
        c.resultOf raw gain offset = windowed ((corrected * n / 4095 : Nat) : Int)))) ∧
  (∀ (v : Curve) (k : Fin 8) (count : Nat),
    let counts : Vector Nat 9 := #v[0, 512, 1024, 1536, 2048, 2560, 3072, 3584, 4095]
    let temps : Vector Int 9 := match v with
      | .a => #v[1500, 1050, 800, 620, 470, 330, 180, 0, -400]
      | .b => #v[1500, 1180, 920, 730, 560, 400, 230, 20, -400]
      | .c => #v[1500, 960, 710, 540, 400, 270, 130, -50, -400]
    let c1 := counts.get k.castSucc
    let c2 := counts.get k.succ
    let t1 := temps.get k.castSucc
    let t2 := temps.get k.succ
    c1 ≤ count → count ≤ c2 →
      curveAt v count = t1 + (((count : Int) - c1) * (t2 - t1)).tdiv ((c2 : Int) - c1)) ∧
  ∀ (c : Channel) (v : Int),
    (c.state = .valid → c.restartPending = false → 0 < c.depth → c.history.length ≤ c.depth →
      c.takeResult (some v) =
        { c with history := if c.history.length < c.depth then c.history ++ [v] else c.history.drop 1 ++ [v] }) ∧
    (c.state = .valid → c.restartPending = true →
      c.takeResult (some v) = { c with history := [v], restartPending := false }) ∧
    (c.state = .fault → c.takeResult (some v) = { c with state := .valid, history := [v], restartPending := false }) ∧
    (c.state = .valid → c.takeResult none = { c with history := [], state := .fault, restartPending := false }) ∧
    (c.state = .fault → c.takeResult none = c) ∧
    c.value = if c.history = [] then none else some (c.history.sum.tdiv c.history.length)

/-- The end of a channel conversion. Its result, formed under the calibration it started with, acts on its channel unless it
is to be discarded. The first enabled channel left converts next, under its calibration of that moment; disabled ones are
passed over. With none left the scan is complete: the completion advances its number and carries the time (in ms, rounded
down: log 9), the values and the states of the channels as they then are, and every enabled CHANNELS zone takes its highest
value. In LOCKED the guard is judged against it; in RUNNING and DOZING zones, Source Monitor and Allocator act on it, the
Allocator with the ms since the completion before it, in the order that the model's choices name (log 3), and every domain
has its measured power (a value taken by its number, a negative one as 0: log 43). The front end is then handed on (after the
consumers: log 22): to a PAUSED or WAITING contact scan's next target, unless the part has woken; where nothing of that scan
is left, it completes (log 35). At a completion the Allocator settles a compliant REVOKING domain, runs the hold of a CLAMPED
or OVERDUE one, closes the round when none is REVOKING, and then updates the bucket. -/
def Obligations.ConversionEndActsAndGoesOn : Prop :=
  let power := fun (c : Completion) (d : Domain) => match d.sense.bind fun n => c.values.get n with
    | none => none
    | some i => some (i.toNat * (match d.volt.bind fun n => c.values.get n with
      | some u => u.toNat
      | none => d.rail) / 1000)
  (∀ (raw : BitVec 12) (m : MeasScan) (v : ChannelConversion) (s : State), s.msu.scan = some m → m.current = some v →
    s.msu.frontEnd = .measuring →
    let old := s.msu.channels.get v.channel
    let new := if v.discard then old else old.convert raw.toNat v.gain v.offset
    let now := max s.now v.doneAt
    ∃ t, exec (.channelConversionEnd raw) s = .next t ∧ t.msu.channels = s.msu.channels.set v.channel new ∧
      (v.discard = false → old.state = .valid → new.state = .fault →
        t.mdc.faults.get 0 = { s.mdc.faults.get 0 with detected := true, subject := some v.channel }) ∧
      (∀ skipped c l, m.todo = skipped ++ c :: l →
        (∀ x ∈ skipped, ((s.msu.channels.set v.channel new).get x).enabled = false) →
        ((s.msu.channels.set v.channel new).get c).enabled = true →
        t.now = now ∧ t.msu.frontEnd = .measuring ∧ t.msu.last = s.msu.last ∧ t.plu = s.plu ∧ t.alc = s.alc ∧
        let r := (s.msu.channels.set v.channel new).get c
        ∃ w, t.msu.scan = some { todo := l, current := some w } ∧ w.channel = c ∧
          w.doneAt = now + (if r.kind = .temp then 5000 else 1000) ∧ w.gain = r.gain ∧ w.offset = r.offset ∧
          w.discard = false) ∧
      ((∀ x ∈ m.todo, ((s.msu.channels.set v.channel new).get x).enabled = false) →
        let last := t.msu.last
        t.msu.scan = none ∧ last.number = (s.msu.last.number + 1) % 65536 ∧ last.timeMs = now / 1000 ∧
        (∀ n, last.values.get n = (t.msu.channels.get n).value ∧ last.states.get n = (t.msu.channels.get n).state) ∧
        (s.msu.claim = .unclaimed → t.msu.frontEnd = .free) ∧
        (∀ z,
          let y := s.znm.zones.get z
          (t.znm.zones.get z).temperature = if y.enabled = true ∧ y.source = .channels then
            (y.channels.filterMap fun n => if last.states.get n = .valid then last.values.get n else none).max?
          else y.temperature) ∧
        (∀ l, s.mdc.mode = .locked → s.lst.chassis = some l →
          let hot := fun (bound : Int) => ∃ n x, (t.msu.channels.get n).enabled = true ∧ (t.msu.channels.get n).kind = .temp ∧
            last.values.get n = some x ∧ bound ≤ x
          (t.mdc.guardClaim = true ↔
            if s.mdc.guardClaim then hot (l.guardTemp - 50) else hot l.guardTemp) ∧
          (t.mdc.guardClaim = s.mdc.guardClaim → t.clu = s.clu) ∧
          (t.mdc.guardClaim ≠ s.mdc.guardClaim →
            ∀ n, ClampCause.guard ∈ (t.clu.get n).causes ↔ t.mdc.guardClaim = true)) ∧
        (let channels : State := { s.reach v.doneAt with msu := { s.msu with channels := t.msu.channels } }
         let told := if v.discard = false ∧ old.state = .valid ∧ new.state = .fault then detect .channel v.channel channels
           else channels
         let ready := deriveZones last { told with msu := { told.msu with scan := none, last := last } }
         t = handOnFrontEnd (consume last (last.timeMs - s.msu.last.timeMs) ready)) ∧
        (s.managed = true → ∀ i d, t.alc.domains.get i = some d → d.measured = power last d) ∧
        (∀ sc, (s.msu.claim = .paused ∨ s.msu.claim = .waiting) → s.csu.scan = some sc → t.mdc.mode = s.mdc.mode →
          let goesOn := fun (next : Nat) (target : ContactTarget) =>
            t.msu.frontEnd = .sensing ∧ t.msu.claim = .running ∧ t.csu.scan = some { sc with
              next := next
              current := some { target := target, doneAt := now + 250 * 2 ^ (s.csu.resolution - 9), discard := false } }
          (∀ j : Fin 8, sc.grouped = false → sc.next ≤ j.val → (s.csu.electrodes.get j).enabled = true →
            (∀ k : Fin 8, sc.next ≤ k.val → k < j → (s.csu.electrodes.get k).enabled = false) →
            goesOn (j.val + 1) (.electrode j)) ∧
          ∀ g : Fin 3, sc.grouped = true → sc.next ≤ g.val → (s.csu.groups.get g).members ≠ [] →
            (∀ k : Fin 3, sc.next ≤ k.val → k < g → (s.csu.groups.get k).members = []) → goesOn (g.val + 1) (.group g)) ∧
        (s.managed = false → t.alc = s.alc ∧ t.srm = s.srm))) ∧
  (∀ (sc : ContactScan) (u : State), u.csu.scan = some sc → (u.msu.claim = .paused ∨ u.msu.claim = .waiting) →
    u.msu.pendingMeas = false →
    (sc.grouped = false → ∀ i : Fin 8, sc.next ≤ i.val → (u.csu.electrodes.get i).enabled = false) →
    (sc.grouped = true → ∀ g : Fin 3, sc.next ≤ g.val → (u.csu.groups.get g).members = []) →
    handOnFrontEnd u = { ({ u with csu := { u.csu with scan := none } } : State).contactCompleted sc.grouped sc.measured with
      msu := { u.msu with frontEnd := .free, claim := .unclaimed } }) ∧
  (∀ (c : Completion) (dtMs : Nat) (s : State),
    let act := fun (u : State) (n : Nat) =>
      if n = 6 then sourceCompletion c u else if n = 7 then allocatorCompletion c dtMs u else evaluateZone (Fin.ofNat 6 n) u
    let order := orderOf 8 (s.choices.headD [])
    order.Perm (List.range 8) ∧ (s.mdc.mode = .prepare → consume c dtMs s = s) ∧
    (s.managed = true → consume c dtMs s = order.foldl act { s with choices := s.choices.tail })) ∧
  ∀ (c : Completion) (dtMs : Nat) (s : State),
    let judged := ([0, 1, 2, 3, 4, 5] : List (Fin 6)).foldl (fun t i => checkDomain c.timeMs i t) (measureDomains c s)
    allocatorCompletion c dtMs s = updateBurst c dtMs (closeIfDone judged) ∧ s.grantsOnly judged ∧
    judged.alc.round = s.alc.round ∧
    ∀ i d, s.alc.domains.get i = some d →
      let p := power c d
      let compliant : Prop := ∃ x, p = some x ∧ x ≤ d.grant.getD 0 + s.active.tolerance
      let becomes := fun e : Domain => judged.alc.domains.get i = some { e with measured := p }
      let settles := becomes { d with state := .settled, deadline := none, holdStart := none, overdueSince := none } ∧
        ∀ n, d.line = some n → ClampCause.overdue ∉ (judged.clu.get n).causes
      let held : Prop := d.state = .clamped ∨ d.state = .overdue
      (d.state = .revoking → compliant → settles) ∧ (d.state = .revoking → ¬compliant → becomes d) ∧
      (held → ¬compliant → becomes { d with holdStart := none }) ∧
      (held → compliant → d.holdStart = none → becomes { d with holdStart := some c.timeMs }) ∧
      (∀ h, held → compliant → d.holdStart = some h →
        (c.timeMs < h + 200 → becomes d) ∧ (h + 200 ≤ c.timeMs → settles)) ∧
      (d.state = .unmanaged ∨ d.state = .settled → becomes d)

/-- A match of the sequence timer returns it to 0 and loads the mode's period. With a scan in flight the trigger is skipped
and SCAN_OVERRUN detected. Otherwise the list is copied, and the channels that have left it lose history and last raw. With
the front end FREE the first enabled channel's conversion starts, under its calibration of that moment; disabled ones are
passed over. With the front end SENSING the scan waits, its flag set. With an empty list the completion comes at once,
without the front end and with no contact scan paused; so it does when every channel listed is disabled and the front end is
FREE (the model's reading, log 22; the completion's time is in ms, rounded down: log 9). -/
def Obligations.SequenceMatchStartsAScan : Prop :=
  ∀ s : State,
    let due := s.msu.seqStart + ms s.msu.seqPeriod
    let period := if s.mdc.mode = .dozing then 1000 else 100
    let channels := tabulate fun n => if n ∈ s.msu.prevCopy ∧ n ∉ s.msu.scanList then
      { s.msu.channels.get n with history := [], lastRaw := none } else s.msu.channels.get n
    let copied := { s.msu with seqStart := due, seqPeriod := period, prevCopy := s.msu.scanList, channels := channels }
    (s.msu.scan.isSome = true → exec .sequenceTimerMatch s =
      .next (detect .scanOverrun 0 { s.reach due with msu := { s.msu with seqStart := due, seqPeriod := period } })) ∧
    (∀ skipped c l, s.msu.scan = none → s.msu.scanList = skipped ++ c :: l →
      (∀ x ∈ skipped, (s.msu.channels.get x).enabled = false) → (s.msu.channels.get c).enabled = true →
      s.msu.frontEnd = .free →
      exec .sequenceTimerMatch s = .next { s.reach due with msu := copied.measures (max s.now due) c l }) ∧
    (s.msu.scan = none → s.msu.scanList ≠ [] → s.msu.frontEnd = .sensing → exec .sequenceTimerMatch s =
      .next { s.reach due with
        msu := { copied with scan := some { todo := s.msu.scanList, current := none }, pendingMeas := true } }) ∧
    (s.msu.scan = none → (∀ x ∈ s.msu.scanList, (s.msu.channels.get x).enabled = false) →
      let last : Completion :=
        { number := (s.msu.last.number + 1) % 65536, timeMs := max s.now due / 1000
          values := tabulate fun n => (channels.get n).value, states := tabulate fun n => (channels.get n).state }
      (s.msu.scanList = [] → exec .sequenceTimerMatch s = .next (consume last (last.timeMs - s.msu.last.timeMs)
        (deriveZones last { s.reach due with msu := { copied with last := last } }))) ∧
      (s.msu.scanList ≠ [] → s.msu.frontEnd = .free → s.msu.claim = .unclaimed →
        ∃ t : State, exec .sequenceTimerMatch s = .next t ∧
          t.msu = { copied with scan := none, pendingMeas := false, last := last }))

/-- The read requests answer the records as they stand and change nothing. A unit's is OK, NO_SUCH for a first number that
names no row, and BAD_FIELD for a count above its bound or past the last row (NO_SUCH where both apply: log 41). Each entry
carries the fields its rule names; remaining times and times in ms are rounded down (log 9). READ_SET gives a set with its
values when VALID and whether it is the active one, or with selector 4 the chassis limits when locked; a selector above 4 is
NO_SUCH. -/
def Obligations.ReadsChangeNothing : Prop :=
  ∀ (dt : Nat) (tag : Byte) (a n : Nat) (s : State), s.takes →
    let t := s.elapse dt
    let now := s.now + dt
    let left := fun x : Option Nat => x.map fun e => (e - now) / 1000
    let channel := fun k : Fin 16 =>
      let c := s.msu.channels.get k
      ({ channel := k, enabled := c.enabled, listed := decide (k ∈ s.msu.scanList), kind := c.kind, curve := c.curve
         fullScale := c.fullScale, depth := c.depth, winLow := c.winLow, winHigh := c.winHigh, state := c.state
         value := if c.history = [] then none else some (c.history.sum.tdiv c.history.length)
         results := c.history.length, lastRaw := c.lastRaw, gain := c.gain, offset := c.offset, calSource := c.calSource
         restartPending := c.restartPending } : ChannelEntry)
    let group := fun k : Fin 3 =>
      let g := s.csu.groups.get k
      ({ members := g.members, baseline := g.baseline, carried := g.carried, raw := g.raw, delta := g.delta
         confirmed := g.confirmed, pending := g.pending, confirmCount := g.confirmCount } : GroupEntry)
    let electrode := fun k : Fin 8 =>
      let e := s.csu.electrodes.get k
      ({ electrode := k, group := if k < 4 then 0 else if k < 6 then 1 else 2, enabled := e.enabled, near := e.near
         contact := e.contact, hyst := e.hyst, state := e.state, raw := e.raw, baseline := e.baseline, delta := e.delta
         confirmed := e.confirmed, pending := e.pending, confirmCount := e.confirmCount, satCount := e.satCount
         learnCount := e.learnCount } : ElectrodeEntry)
    let zone := fun k : Fin 6 =>
      let z := s.znm.zones.get k
      ({ zone := k, enabled := z.enabled, source := z.source, channels := z.channels, fanMap := z.fanMap
         temperature := z.temperature, state := z.state, r := z.r, stepRemaining := left z.stepTimer
         lastStepTemp := z.lastStepTemp, feedAge := z.lastFeed.map fun x => (now - x) / 1000
         feedRemaining := left z.feedTimer, woke := z.woke } : ZoneEntry)
    let wanted := fun d : Domain => d.effCeiling.map fun c => max d.floor (min (d.request.getD d.floor) c)
    let slot := fun k : Fin 6 => (s.alc.domains.get k).map fun d =>
      ({ state := d.state, grant := d.grant, wanted := wanted d, measured := d.measured } : SlotSummary)
    let grant := fun k : Fin 6 => (k, (s.alc.domains.get k).map fun d =>
      ({ kind := d.kind, label := d.label, priority := d.priority, floor := d.floor, ceiling := d.ceiling, rail := d.rail
         sense := d.sense, volt := d.volt, line := d.line, permit := d.permit, request := d.request
         effCeiling := d.effCeiling, wanted := wanted d, grant := d.grant, state := d.state
         deadlineRemaining := left d.deadline, holdElapsed := d.holdStart.map fun x => now / 1000 - x
         measured := d.measured, revocations := d.revocations, clamps := d.clamps
         queuePosition := (s.alc.queue.findIdx? (·.slot == k)).map (· + 1)
         queueTime := (s.alc.queue.find? (·.slot == k)).map (·.time)
         affected := if s.alc.round.opened then (s.alc.round.affected.find? (·.slot == k)).map fun e =>
             { oldGrant := e.oldGrant, target := d.grant.getD 0, outcome := d.state }
           else none } : GrantEntry))
    let fan := fun k : Fin 2 =>
      let f := s.fnc.fans.get k
      let mapped := (([0, 1, 2, 3, 4, 5] : List (Fin 6)).map s.znm.zones.get).filter fun z => z.enabled && z.fanMap.contains k
      ({ enabled := f.enabled, ppr := f.ppr, minDuty := f.minDuty, state := f.state, duty := f.duty, target := f.target
         speed := f.speed, lastEdge := f.lastEdge.map (· / 1000), stallRemaining := left f.stallTimer
         phaseRemaining := left f.phaseTimer, retryRemaining := left f.retryTimer, attempts := f.attempts
         finalFlag := f.finalFlag
         derateClaim := decide (f.state = .stalled ∨ f.state = .spinup .retry .kick ∨ f.state = .spinup .retry .proving)
         lifted := mapped.any fun z => z.state == .hot || z.state == .critical || z.state == .faulted
         highestDemand := (mapped.filterMap (·.demand.get k)).max? } : FanEntry)
    let replies := fun (c : Instr) (kind : Byte) (rows most : Nat) (summary entries : ReplyBody) =>
      exec c s = .next (t.answered kind tag
        (if rows ≤ a then { status := .noSuch, body := .empty }
         else if most < n ∨ rows < a + n then { status := .badField, body := .empty }
         else { status := .ok, body := if n = 0 then summary else entries }))
    replies (.readChannels dt tag a n) 0x12 16 4 (.scanList s.msu.last.number s.msu.scanList)
      (.channels s.msu.last.number ((rowsFrom sixteen a n).map channel)) ∧
    replies (.readElectrodes dt tag a n) 0x19 8 3
      (.unit s.csu.resolution (2 ^ s.csu.resolution - 1) s.csu.rebase s.csu.learning ([0, 1, 2].map group))
      (.electrodes ((rowsFrom eight a n).map electrode)) ∧
    replies (.readZones dt tag a n) 0x22 6 2
      (.zoneSummary s.znm.thermalClaim (([0, 1, 2, 3, 4, 5] : List (Fin 6)).map fun z => (s.znm.zones.get z).r).sum
        ([0, 1, 2, 3, 4, 5].map fun z => (s.znm.zones.get z).state))
      (.zones ((rowsFrom six a n).map zone)) ∧
    replies (.readGrants dt tag a n) 0x35 6 2
      (.grantSummary ([0, 1, 2, 3, 4, 5].map slot) (s.alc.queue.map (·.slot)) s.alc.round.reservation s.alc.round.beneficiary)
      (.grants ((rowsFrom six a n).map grant)) ∧
    exec (.readFans dt tag) s = .next (t.answered 0x3E tag { status := .ok, body := .fans [fan 0, fan 1] }) ∧
    (∀ p, setOfNumber n = some p → exec (.readSet dt tag n) s =
      .next (t.answered 0x0A tag { status := .ok, body := .set p (p == s.plu.placement.activeSet) (s.lst.get p) })) ∧
    exec (.readSet dt tag 4) s = .next (t.answered 0x0A tag { status := .ok, body := .chassis s.lst.chassis }) ∧
    exec (.readSetChassis dt tag) s = .next (t.answered 0x0A tag { status := .ok, body := .chassis s.lst.chassis }) ∧
    (4 < n → exec (.readSet dt tag n) s = .next (t.answered 0x0A tag { status := .noSuch, body := .empty }))

/-! ## Contact sensing (chapter 3) -/

/-- A match of the contact timer returns it to 0, loads the mode's period, and raises a trigger. The trigger is skipped while
a contact scan holds the claim, and waits while the front end is MEASURING, whatever it would measure. With the front end
FREE the scan starts with its first target at once; one with nothing to measure completes at once, whatever the phase of a
rebase, and the claim stays NONE. -/
def Obligations.ContactTriggerReachesTheArbiter : Prop :=
  ∀ s : State,
    let due := s.csu.contactStart + ms s.csu.contactPeriod
    let period := if s.mdc.mode = .dozing then 500 else 50
    let timed : State := { s.reach due with csu := { s.csu with contactStart := due, contactPeriod := period } }
    let grouped : Bool := s.mdc.mode == .dozing || s.csu.rebase == .groups
    let begins := fun (next : Nat) (target : ContactTarget) =>
      s.msu.frontEnd = .free → exec .contactTimerMatch s = .next { timed with
        csu := { timed.csu with
          scan := some
            { grouped := grouped, next := next, measured := []
              current := some
                { target := target, doneAt := max s.now due + 250 * 2 ^ (s.csu.resolution - 9), discard := false } } }
        msu := { s.msu with frontEnd := .sensing, claim := .running } }
    (s.msu.claim ≠ .unclaimed → exec .contactTimerMatch s = .next timed) ∧
    (s.msu.claim = .unclaimed → s.msu.frontEnd = .measuring → exec .contactTimerMatch s = .next { timed with
      csu := { timed.csu with scan := some { grouped := grouped, next := 0, current := none, measured := [] } }
      msu := { s.msu with claim := .waiting } }) ∧
    (∀ i : Fin 8, s.msu.claim = .unclaimed → grouped = false → (s.csu.electrodes.get i).enabled = true →
      (∀ j : Fin 8, j < i → (s.csu.electrodes.get j).enabled = false) → begins (i.val + 1) (.electrode i)) ∧
    (∀ g : Fin 3, s.msu.claim = .unclaimed → grouped = true → (s.csu.groups.get g).members ≠ [] →
      (∀ h : Fin 3, h < g → (s.csu.groups.get h).members = []) → begins (g.val + 1) (.group g)) ∧
    (s.msu.claim = .unclaimed → s.msu.frontEnd = .free →
      (grouped = false → ∀ i : Fin 8, (s.csu.electrodes.get i).enabled = false) →
      (grouped = true → ∀ g : Fin 3, (s.csu.groups.get g).members = []) →
      exec .contactTimerMatch s = .next (timed.contactCompleted grouped []))

/-- An evidence report counts, among the electrodes that are neither OFF nor FAULT, the confirmed classes: CONTACT and NEAR
or CONTACT on the base, NEAR or CONTACT on top and edge. In a grouped scan a member counts with its group's class. -/
def Obligations.ReportsCountConfirmedClasses : Prop :=
  ∀ (c : Csu) (e : Evidence),
    let kept := fun (i : Fin 8) => (c.electrodes.get i).state != .off && (c.electrodes.get i).state != .fault
    let counts := fun (shown : Fin 8 → TouchClass) => { e with
      baseContact := [0, 1, 2, 3].countP fun i => kept i && shown i == .contact
      baseNear := [0, 1, 2, 3].countP fun i => kept i && shown i != .noTouch
      topNear := [4, 5].countP fun i => kept i && shown i != .noTouch
      edgeNear := [6, 7].countP fun i => kept i && shown i != .noTouch }
    e.recount c.report = counts (fun i => (c.electrodes.get i).confirmed) ∧
    e.recount c.groupReport = counts fun i =>
      let g := c.groups.get (if i < 4 then 0 else if i < 6 then 1 else 2)
      if i ∈ g.members then g.confirmed else (c.electrodes.get i).confirmed

/-- The end of an electrode's conversion in a sequential scan. Its raw acts on its record unless it is to be discarded, and
its passage into FAULT is detected. With no measurement scan pending, the scan goes on with the next enabled electrode, or it
ends: the front end comes free and the claim is dropped. A pending measurement scan takes the front end instead, and the
contact scan is PAUSED, or ended when nothing of it is left. An ended scan gives its evidence report, whatever the phase of a
rebase, and takes a rebase whose enabled electrodes have all learned from ELECTRODES to GROUPS. A raw above full scale counts
as full scale (log 21), and a FAULT notice comes before DONE (log 12), by the model's choice. -/
def Obligations.ElectrodeConversionEndActsAndGoesOn : Prop :=
  (∀ (raw : BitVec 16) (sc : ContactScan) (v : ContactConversion) (i : Fin 8) (s : State), s.csu.scan = some sc →
    sc.grouped = false → sc.current = some v → v.target = .electrode i →
    let full := 2 ^ s.csu.resolution - 1
    let old := s.csu.electrodes.get i
    let new := if v.discard then old else old.convert (min raw.toNat full) full
    let electrodes := s.csu.electrodes.set i new
    let now := max s.now v.doneAt
    let told := if old.state ≠ .fault ∧ new.state = .fault then detect .electrode i (s.reach v.doneAt) else s.reach v.doneAt
    let goes := fun (scan : Option ContactScan) (m : Msu) =>
      ({ told with csu := { s.csu with electrodes := electrodes, scan := scan }, msu := m } : State)
    let ends := fun m : Msu => ({ (goes none s.msu).contactCompleted false sc.measured with msu := m } : State)
    let left : Prop := ∃ k : Fin 8, sc.next ≤ k.val ∧ (electrodes.get k).enabled = true
    (∃ t : State, exec (.electrodeConversionEnd raw) s = .next t ∧ t.csu.electrodes = electrodes) ∧
    (s.msu.pendingMeas = false → s.msu.frontEnd = .sensing →
      (∀ j : Fin 8, sc.next ≤ j.val → (electrodes.get j).enabled = true →
        (∀ k : Fin 8, sc.next ≤ k.val → k < j → (electrodes.get k).enabled = false) →
        exec (.electrodeConversionEnd raw) s = .next (goes (some { sc with
          next := j.val + 1
          current := some { target := .electrode j, doneAt := now + 250 * 2 ^ (s.csu.resolution - 9), discard := false } })
          { s.msu with claim := .running })) ∧
      (¬left → exec (.electrodeConversionEnd raw) s = .next (ends { s.msu with frontEnd := .free, claim := .unclaimed }))) ∧
    ∀ m skipped c l, s.msu.pendingMeas = true → s.msu.frontEnd = .sensing → s.msu.scan = some m →
      m.todo = skipped ++ c :: l → (∀ x ∈ skipped, (s.msu.channels.get x).enabled = false) →
      (s.msu.channels.get c).enabled = true →
      let measuring := fun k : Claim => ({ s.msu with claim := k } : Msu).measures now c l
      (left → exec (.electrodeConversionEnd raw) s = .next (goes (some { sc with current := none }) (measuring .paused))) ∧
      (¬left → exec (.electrodeConversionEnd raw) s = .next (ends (measuring .unclaimed)))) ∧
  ∀ (s : State) (measured : List (Fin 3)),
    let c := s.csu
    let t := s.contactCompleted false measured
    let learns := fun i : Fin 8 => (c.electrodes.get i).enabled = true ∧ (c.electrodes.get i).state = .learning
    let taken := fun i : Fin 8 => (c.electrodes.get i).enabled = true ∧ (c.electrodes.get i).state ≠ .fault
    t.plu.placement = s.plu.placement ∧ t.plu.evidence = s.plu.evidence.recount c.report ∧
    (c.rebase ≠ .electrodes ∨ (∃ i, learns i) → t.csu = c ∧ t.slk = s.slk) ∧
    (c.rebase = .electrodes → (∀ i, ¬learns i) →
      (∀ i g, i ∈ (t.csu.groups.get g).members ↔
        taken i ∧ g = if i.val < 4 then 0 else if i.val < 6 then 1 else 2) ∧
      ((∃ i, taken i) → t.csu.rebase = .groups ∧ t.csu.learning = .learning .rebase 0 ∧ t.slk = s.slk) ∧
      ((∀ i, ¬taken i) → t.csu.rebase = .noRebase ∧ t.csu.learning = .idle ∧ t.slk = s.slk.post (.done .ok)))

/-- A raw acts on an electrode by its state. An OFF or FAULT electrode takes the raw only. A raw at full scale counts toward
FAULT, which the third in a row makes; the saturation count then stays 2 (log 21). Eight others while LEARNING give the
baseline, their mean. While TRACKING the delta gives the observed class by the table of R48, the class is confirmed at the
third observation in a row, and the baseline drifts while the class is NONE and the delta below near. -/
def Obligations.ElectrodeRawActsByState : Prop :=
  ∀ (e : Electrode) (raw full : Nat),
    let r := { e with raw := some raw }
    (e.state = .off ∨ e.state = .fault → e.convert raw full = r) ∧
    (e.state = .learning ∨ e.state = .tracking → raw = full →
      (e.satCount ≠ 2 → e.convert raw full = { r with satCount := e.satCount + 1 }) ∧
      (e.satCount = 2 → e.convert raw full = { r with
        state := .fault, confirmed := .noTouch, pending := none, confirmCount := 0, learnSum := 0, learnCount := 0
        delta := none })) ∧
    (e.state = .learning → raw ≠ full →
      (e.learnCount ≠ 7 → e.convert raw full = { r with
        satCount := 0, learnSum := e.learnSum + raw, learnCount := e.learnCount + 1 }) ∧
      (e.learnCount = 7 → e.convert raw full = { r with
        satCount := 0, baseline := some ((e.learnSum + raw) / 8), state := .tracking, delta := some 0, confirmed := .noTouch
        pending := none, confirmCount := 0, learnSum := 0, learnCount := 0 })) ∧
    (∀ base, e.state = .tracking → raw ≠ full → e.baseline = some base →
      let delta : Int := (raw : Int) - base
      let contactAt : Int := match e.confirmed with
        | .contact => (e.contact : Int) - e.hyst
        | _ => e.contact
      let nearAt : Int := match e.confirmed with
        | .noTouch => e.near
        | _ => (e.near : Int) - e.hyst
      let observed : TouchClass := if contactAt ≤ delta then .contact else if nearAt ≤ delta then .near else .noTouch
      let n := e.convert raw full
      n.raw = some raw ∧ n.satCount = 0 ∧ n.state = .tracking ∧ n.delta = some delta ∧
      (observed = e.confirmed → n.confirmed = e.confirmed ∧ n.pending = none ∧ n.confirmCount = 0) ∧
      (observed ≠ e.confirmed → e.pending = some observed →
        if e.confirmCount = 2 then n.confirmed = observed ∧ n.pending = none ∧ n.confirmCount = 0
        else n.confirmed = e.confirmed ∧ n.pending = e.pending ∧ n.confirmCount = e.confirmCount + 1) ∧
      (observed ≠ e.confirmed → e.pending ≠ some observed →
        n.confirmed = e.confirmed ∧ n.pending = some observed ∧ n.confirmCount = 1) ∧
      n.baseline = some (if n.confirmed = .noTouch ∧ delta < e.near then ((base : Int) + (delta.tdiv 16)).toNat else base))

/-- The end of a group's conversion. Outside learning the group's delta, class and baseline follow the sums of its members'
thresholds, and a changed class goes to the members; inside learning the raw is kept. A group without a baseline has no delta
(the model's reading, log 20). With no measurement scan pending, the scan goes on with the next group that has a member, or
it ends: the front end comes free and the claim is dropped. A pending measurement scan takes the front end instead, and the
contact scan is PAUSED, or ended when nothing of it is left. Outside learning an ended scan gives its evidence report. Inside
learning it gives none: each measured raw joins its group's sum, and the eighth scan gives every group with members its
baseline and its members' highest class, which every member takes, and ends a rebase with its DONE notice, OK. A group with
no members keeps its baseline, and its class by the model's choice, which also makes every group's confirm count and learn
sum 0 then (log 42); by its choice too a raw acts whose group has been given other members, or none, since its conversion
began (log 45). A raw above full scale counts as full scale (log 21). -/
def Obligations.GroupConversionEndActsAndLearns : Prop :=
  (∀ (raw : BitVec 16) (sc : ContactScan) (v : ContactConversion) (g : Fin 3) (s : State), s.csu.scan = some sc →
    sc.current = some v → v.target = .group g → sc.grouped = true → s.msu.frontEnd = .sensing →
    let c := s.csu
    let old := c.groups.get g
    let r := min raw.toNat (2 ^ c.resolution - 1)
    let sum := fun (f : Electrode → Nat) => (old.members.map fun i => f (c.electrodes.get i)).sum
    let now := max s.now v.doneAt
    let followed : Group := match old.baseline with
      | none => { old with raw := some r, delta := none }
      | some base =>
        let delta : Int := (r : Int) - base
        let weighed := ClassTrack.weigh (observe (sum (·.near)) (sum (·.contact)) (sum (·.hyst)) old.confirmed delta)
          { confirmed := old.confirmed, pending := old.pending, count := old.confirmCount }
        { old with
          raw := some r, delta := some delta, confirmed := weighed.confirmed, pending := weighed.pending
          confirmCount := weighed.count, baseline := some (drifted (sum (·.near)) r base weighed.confirmed delta) }
    let stored : Csu := match c.learning with
      | .learning _ _ => { c with groups := c.groups.set g { old with raw := some r } }
      | .idle => { c with
          groups := c.groups.set g followed
          electrodes := tabulate fun i => if i ∈ old.members ∧ followed.confirmed ≠ old.confirmed then
            { c.electrodes.get i with confirmed := followed.confirmed } else c.electrodes.get i }
    let measured := sc.measured ++ [g]
    let goes := fun (scan : Option ContactScan) (m : Msu) =>
      ({ s.reach v.doneAt with csu := { stored with scan := scan }, msu := m } : State)
    let ends := fun m : Msu => ({ (goes none s.msu).contactCompleted true measured with msu := m } : State)
    let left : Prop := ∃ k : Fin 3, sc.next ≤ k.val ∧ (c.groups.get k).members ≠ []
    (∀ m skipped n l, s.msu.pendingMeas = true → s.msu.scan = some m → m.todo = skipped ++ n :: l →
      (∀ x ∈ skipped, (s.msu.channels.get x).enabled = false) → (s.msu.channels.get n).enabled = true →
      let measuring := fun k : Claim => ({ s.msu with claim := k } : Msu).measures now n l
      (left → exec (.groupConversionEnd raw) s =
        .next (goes (some { sc with current := none, measured := measured }) (measuring .paused))) ∧
      (¬left → exec (.groupConversionEnd raw) s = .next (ends (measuring .unclaimed)))) ∧
    (s.msu.pendingMeas = false →
      (∀ h : Fin 3, sc.next ≤ h.val → (c.groups.get h).members ≠ [] →
        (∀ k : Fin 3, sc.next ≤ k.val → k < h → (c.groups.get k).members = []) →
        exec (.groupConversionEnd raw) s = .next (goes (some { sc with
          next := h.val + 1, measured := measured
          current := some { target := .group h, doneAt := now + 250 * 2 ^ (c.resolution - 9), discard := false } })
          { s.msu with claim := .running })) ∧
      (¬left → exec (.groupConversionEnd raw) s = .next (ends { s.msu with frontEnd := .free, claim := .unclaimed })))) ∧
  ∀ (s : State) (measured : List (Fin 3)),
    let c := s.csu
    let t := s.contactCompleted true measured
    let highest := fun l : List (Fin 8) =>
      if l.any fun i => (c.electrodes.get i).confirmed == .contact then TouchClass.contact
      else if l.any fun i => (c.electrodes.get i).confirmed == .near then .near else .noTouch
    let total := fun k => (c.groups.get k).learnSum + (if k ∈ measured then (c.groups.get k).raw.getD 0 else 0)
    (c.learning = .idle → t.plu.placement = s.plu.placement ∧ t.plu.evidence = s.plu.evidence.recount c.groupReport) ∧
    (∀ o n, c.learning = .learning o n → c.rebase ≠ .electrodes →
      t.plu = s.plu ∧
      (n ≠ 7 → t.slk = s.slk ∧ t.csu.learning = .learning o (n + 1) ∧ t.csu.electrodes = c.electrodes ∧
        ∀ k, t.csu.groups.get k = { c.groups.get k with learnSum := total k }) ∧
      (n = 7 → t.csu.learning = .idle ∧
        (o = .rebase → t.csu.rebase = .noRebase ∧ t.slk = s.slk.post (.done .ok)) ∧
        (o = .doze → t.csu.rebase = c.rebase ∧ t.slk = s.slk) ∧
        (∀ k, (t.csu.groups.get k).learnSum = 0 ∧ (t.csu.groups.get k).pending = none ∧
          (t.csu.groups.get k).confirmCount = 0 ∧
          ((c.groups.get k).members = [] → (t.csu.groups.get k).baseline = (c.groups.get k).baseline ∧
            (t.csu.groups.get k).confirmed = (c.groups.get k).confirmed) ∧
          ((c.groups.get k).members ≠ [] →
            (t.csu.groups.get k).baseline =
              some (min (2 ^ c.resolution - 1) (((total k / 8 : Nat) : Int) - (c.groups.get k).carried).toNat) ∧
            (t.csu.groups.get k).confirmed = highest (c.groups.get k).members)) ∧
        ((∀ k l, ∀ i ∈ (c.groups.get k).members, i ∈ (c.groups.get l).members → k = l) →
          (∀ k, ∀ i ∈ (c.groups.get k).members, t.csu.electrodes.get i =
            { c.electrodes.get i with confirmed := highest (c.groups.get k).members }) ∧
          ∀ i, (∀ k, i ∉ (c.groups.get k).members) → t.csu.electrodes.get i = c.electrodes.get i)))

/-- ELECTRODE_SETUP is refused NOT_READY in RUNNING and DOZING, NO_SUCH for a target that names no electrode, and BAD_FIELD
for a bad field. Accepted, it starts the electrode's record afresh and marks a conversion of it in progress for discarding; a
grouped scan in flight goes on (log 45). For the unit record it sets the resolution; a changed one stops a contact scan in
flight, whose front end goes to a measurement scan that waits or comes free, makes every group baseline absent and starts
every enabled electrode afresh. In a rebase's GROUPS phase a setup that enables or disables an electrode or changes the
resolution fixes members and carried deltas anew and clears the sums; the phase then goes back to ELECTRODES when an enabled
electrode is LEARNING, and else group learning begins again, or ends the rebase when no group has a member (members fixed in
each case, and a repeated setup that leaves the phase as it is: log 20). -/
def Obligations.ElectrodeSetupStartsAfresh : Prop :=
  ∀ (dt : Nat) (tag : Byte) (f : ElectrodeFields) (b : Nat) (s : State), s.takes →
    let fresh := fun (e : Electrode) => { e with
      state := if e.enabled then .learning else .off, raw := none, baseline := none, delta := none, confirmed := .noTouch
      pending := none, confirmCount := 0, satCount := 0, learnSum := 0, learnCount := 0 }
    let answers := fun (c : Instr) (st : Status) (t : State) =>
      exec c s = .next (t.answered 0x18 tag { status := st, body := .empty })
    let t := s.elapse dt
    let good := 1 ≤ f.near ∧ f.near ≤ 65534 ∧ f.near < f.contact ∧ f.contact ≤ 65535 ∧ f.hyst < f.near
    let resumed := fun (u : State) =>
      let c := u.csu
      if c.rebase ≠ .groups then u
      else if ∃ i : Fin 8, (c.electrodes.get i).enabled = true ∧ (c.electrodes.get i).state = .learning then
        { u with csu := { c with groups := c.groupsBegun, rebase := .electrodes, learning := .idle } }
      else u.beginsGroups
    (s.managed = true → answers (.electrodeSetup dt tag f) .notReady t ∧
      answers (.electrodeSetupResolution dt tag b) .notReady t) ∧
    (s.managed = false → 8 < f.target → answers (.electrodeSetup dt tag f) .noSuch t) ∧
    (s.managed = false → f.target < 8 → (f.enabled = none ∨ ¬good) → answers (.electrodeSetup dt tag f) .badField t) ∧
    (∀ (i : Fin 8) (enabled : Bool), s.managed = false → f.target = i.val → f.enabled = some enabled → good →
      let old := s.csu.electrodes.get i
      let stored : State := { t with csu := { s.csu with
        electrodes := s.csu.electrodes.set i (fresh { old with
          enabled := enabled, near := f.near, contact := f.contact, hyst := f.hyst })
        scan := s.csu.scan.map fun m => { m with
          current := m.current.map fun v => if v.target = .electrode i then { v with discard := true } else v } } }
      answers (.electrodeSetup dt tag f) .ok (if enabled = old.enabled then stored else resumed stored)) ∧
    (s.managed = false → (b < 9 ∨ 16 < b) → answers (.electrodeSetupResolution dt tag b) .badField t) ∧
    (s.managed = false → 9 ≤ b → b ≤ 16 → s.csu.resolution = b → answers (.electrodeSetupResolution dt tag b) .ok t) ∧
    (s.managed = false → 9 ≤ b → b ≤ 16 → s.csu.resolution ≠ b →
      let rescaled := fun (scan : Option ContactScan) (m : Msu) => answers (.electrodeSetupResolution dt tag b) .ok
        (resumed { t with
          msu := m
          csu := { s.csu with
            scan := scan, resolution := b
            groups := tabulate fun g => { s.csu.groups.get g with baseline := none }
            electrodes := tabulate fun i =>
              if (s.csu.electrodes.get i).enabled then fresh (s.csu.electrodes.get i) else s.csu.electrodes.get i } })
      (s.msu.claim = .unclaimed → rescaled s.csu.scan s.msu) ∧
      (s.msu.claim ≠ .unclaimed → s.msu.frontEnd ≠ .sensing → rescaled none { s.msu with claim := .unclaimed }) ∧
      (s.msu.claim ≠ .unclaimed → s.msu.frontEnd = .sensing → s.msu.pendingMeas = false →
        rescaled none { s.msu with claim := .unclaimed, frontEnd := .free }) ∧
      ∀ m skipped c l, s.msu.claim ≠ .unclaimed → s.msu.frontEnd = .sensing → s.msu.pendingMeas = true →
        s.msu.scan = some m → m.todo = skipped ++ c :: l → (∀ x ∈ skipped, (s.msu.channels.get x).enabled = false) →
        (s.msu.channels.get c).enabled = true →
        rescaled none (({ s.msu with claim := .unclaimed } : Msu).measures (s.now + dt) c l))

/-- REBASE is refused NOT_READY in DOZING and BUSY while a rebase is in flight, and then changes nothing. Accepted, it is
answered ACCEPTED and sends every enabled electrode back to learning with its baseline and class kept; with none enabled it
ends at once with its DONE notice. -/
def Obligations.RebaseSendsElectrodesToLearning : Prop :=
  ∀ (dt : Nat) (tag : Byte) (s : State), s.takes →
    let t := s.elapse dt
    let answers := fun (st : Status) (u : State) =>
      exec (.rebase dt tag) s = .next (u.answered 0x1A tag { status := st, body := .empty })
    (s.mdc.mode = .dozing → answers .notReady t) ∧
    (s.mdc.mode ≠ .dozing → s.csu.rebase ≠ .noRebase → answers .busy t) ∧
    (s.mdc.mode ≠ .dozing → s.csu.rebase = .noRebase → (∃ i : Fin 8, (s.csu.electrodes.get i).enabled = true) →
      answers .accepted { t with csu := { s.csu with
        rebase := .electrodes
        electrodes := tabulate fun i =>
          if (s.csu.electrodes.get i).enabled then { s.csu.electrodes.get i with
            state := .learning, delta := none, learnSum := 0, learnCount := 0, satCount := 0, pending := none
            confirmCount := 0 }
          else s.csu.electrodes.get i } }) ∧
    (s.mdc.mode ≠ .dozing → s.csu.rebase = .noRebase → (∀ i : Fin 8, (s.csu.electrodes.get i).enabled = false) →
      ∃ u : State, answers .accepted u ∧ u = { t with csu := u.csu, slk := s.slk.post (.done .ok) } ∧
        u.csu.rebase = .noRebase ∧ u.csu.learning = .idle ∧ u.csu.electrodes = s.csu.electrodes)

/-! ## Placement (chapter 4) -/

/-- The evaluation of R67: the first row the evidence meets gives the result, and row 5 the present candidate. -/
def Obligations.EvidencePointsByTheTable : Prop :=
  ∀ (e : Evidence) (candidate : Option SetId),
    let row1 := e.lid = .closed ∧ 1 ≤ e.topNear ∧ 1 ≤ e.baseNear
    let row2 := e.motion = .moving ∨ (e.lid = .closed ∧ 1 ≤ e.edgeNear)
    let row3 := e.lid = .opened ∧ 2 ≤ e.baseContact
    let row4 := e.motion = .still ∧ e.baseContact = 0 ∧ e.topNear = 0
    (row1 → e.result candidate = some .bag) ∧ (¬row1 → row2 → e.result candidate = some .moving) ∧
    (¬row1 → ¬row2 → row3 → e.result candidate = some .lap) ∧
    (¬row1 → ¬row2 → ¬row3 → row4 → e.result candidate = some .desk) ∧
    (¬row1 → ¬row2 → ¬row3 → ¬row4 → e.result candidate = candidate)

/-- The result of an evaluation acts on the candidate and the dwell by R68, and on nothing else: an equal result does
nothing; a different one becomes the candidate, with the dwell IDLE when it is the placement and RUNNING for its set's entry
dwell, or 3,000 ms for an EMPTY set, when it is not. -/
def Obligations.ResultActsOnCandidateAndDwell : Prop :=
  ∀ (s : State) (p : SetId), s.plu.evidence.result s.plu.candidate = some p →
    (s.plu.candidate = some p → evaluateCandidate s = s) ∧
    (s.plu.candidate ≠ some p → s.plu.placement = .settled p →
      evaluateCandidate s = { s with plu := { s.plu with candidate := some p, dwell := .idle } }) ∧
    (s.plu.candidate ≠ some p → s.plu.placement ≠ .settled p →
      let dwell := match s.lst.sets.get p.index with
        | some l => l.entryDwell
        | none => 3000
      evaluateCandidate s =
        { s with plu := { s.plu with candidate := some p, dwell := .running (s.now + dwell * 1000) } })

/-- The samples of one millisecond move each line's filter. A third differing sample changes the accepted level, as the
line's CHANGE event (the model's reading of the two rows, log 31): LID sets the lid field, MOTION HIGH sets MOVING and stops
the still timer, MOTION LOW starts it for 2,000 ms, and its expiry sets STILL. Each of these is an evidence update. -/
def Obligations.LinesUpdateTheEvidence : Prop :=
  ∀ (lid motion adp : Level) (d : Nat) (s : State),
    let p := s.plu
    let changed := fun (f : LineFilter) =>
      ({ accepted := if f.accepted = .high then .low else .high, run := 0, sampledAt := f.sampledAt + 1000 } : LineFilter)
    let sampled := fun (level : Level) (f : LineFilter) =>
      if f.sampledAt < p.sampleClock + 1000 then
        if level = f.accepted then { f with run := 0, sampledAt := p.sampleClock + 1000 }
        else if f.run < 2 then { f with run := f.run + 1, sampledAt := p.sampleClock + 1000 } else f
      else f
    let update := fun (c : Instr) (now : Nat) (q : Plu) =>
      exec c s = .next (evaluateCandidate { s with now := max s.now now, plu := q })
    exec (.lineFilterSample lid motion adp) s = .next { s with
      now := max s.now (p.sampleClock + 1000)
      plu := { p with lid := sampled lid p.lid, motion := sampled motion p.motion, adp := sampled adp p.adp
                      sampleClock := p.sampleClock + 1000 } } ∧
    (p.lid.run = 2 → update .lidChange (p.lid.sampledAt + 1000) { p with
      lid := changed p.lid
      evidence := { p.evidence with lid := if p.lid.accepted = .low then .opened else .closed } }) ∧
    (p.motion.run = 2 → p.motion.accepted = .low → update .motionChange (p.motion.sampledAt + 1000) { p with
      motion := changed p.motion, evidence := { p.evidence with motion := .moving }, stillTimer := none }) ∧
    (p.motion.run = 2 → p.motion.accepted = .high → update .motionChange (p.motion.sampledAt + 1000) { p with
      motion := changed p.motion
      stillTimer := some (max s.now (p.motion.sampledAt + 1000) + 2000000) }) ∧
    (p.stillTimer = some d → update .stillTimerExpiry d { p with
      evidence := { p.evidence with motion := .still }, stillTimer := none })

/-- At a dwell's expiry with a pin the dwell becomes ELAPSED and nothing else changes. With no pin the candidate becomes
the placement, the dwell IDLE. Outside RUNNING and DOZING, or where the placement was that one before, the PLACEMENT notice
is all that follows; a placement that changes in RUNNING and DOZING makes its set the active one, and budget, ceilings,
zones and fans follow it. No measurement scan waits for the front end in that clause; one that did could complete in the
same step. -/
def Obligations.DwellExpirySettlesTheCandidate : Prop :=
  ∀ (s : State) (d : Nat), s.plu.dwell = .running d →
    (∀ q, s.plu.pin = some q →
      exec .dwellExpiry s = .next { s.reach d with plu := { s.plu with dwell := .elapsed } }) ∧
    (∀ p, s.plu.pin = none → s.plu.candidate = some p →
      let settled : State := { s.reach d with plu := { s.plu with placement := .settled p, dwell := .idle } }
      ((s.managed = false ∨ s.plu.placement = .settled p) → exec .dwellExpiry s =
        .next (settled.post (.placement (.settled p) s.plu.placement false s.plu.evidence))) ∧
      ∃ t : State, exec .dwellExpiry s = .next t ∧ t.plu = settled.plu ∧ t.now = settled.now ∧ t.lst = s.lst ∧
        t.srm.setup = s.srm.setup ∧
        ∀ f, s.managed = true → s.plu.placement ≠ .settled p → s.msu.pendingMeas = false → s.lst.get p = some f →
          s.takesSet t f)

/-- PLACEMENT_PIN names DESK, LAP, BAG or MOVING with no timeout or one of 1 to 3,600 s, or is refused BAD_FIELD. It pins
the placement and brings the dwell into line. PLACEMENT_UNPIN and a pin's expiry end the pin: an ELAPSED candidate becomes
the placement. Outside RUNNING and DOZING, or with the placement unchanged, the PLACEMENT notice is all that follows; a
placement that changes in RUNNING and DOZING makes its set the active one, and budget, ceilings, zones and fans follow it. No
measurement scan waits for the front end in that clause; one that did could complete in the same step. -/
def Obligations.PinsHoldThePlacement : Prop :=
  ∀ (dt : Nat) (tag : Byte) (code : Nat) (timeout : Option Nat) (s : State),
    let now := s.now + dt
    let goodTime : Prop := ∀ x, timeout = some x → 1 ≤ x ∧ x ≤ 3600
    let fresh := fun c => now + (match s.lst.sets.get (SetId.index c) with
      | some l => l.entryDwell
      | none => 3000) * 1000
    let pinned := fun p => { s.plu with
      pin := some { placement := p, expiry := timeout.map fun x => now + x * 1000000 }, placement := .settled p
      dwell := match s.plu.candidate with
        | none => .idle
        | some c => if c = p then .idle else if s.plu.dwell = .idle then .running (fresh c) else s.plu.dwell }
    let ended := match s.plu.dwell, s.plu.candidate with
      | .elapsed, some c => { s.plu with pin := none, placement := .settled c, dwell := .idle }
      | _, _ => { s.plu with pin := none }
    let told := fun (u : State) (q : Plu) =>
      State.post (.placement q.placement s.plu.placement q.pin.isSome s.plu.evidence) { u with plu := q }
    let follows := fun (u : State) (q : Plu) (t : State) =>
      ((s.managed = false ∨ q.placement = s.plu.placement) → t = told u q) ∧
      ∀ p f, q.placement = .settled p → s.managed = true → q.placement ≠ s.plu.placement → s.msu.pendingMeas = false →
        s.lst.get p = some f → s.takesSet t f
    let report := fun (u : State) => ({ status := .ok, body := .placement u.placementReport } : Answer)
    (s.takes → (code = 0 ∨ 4 < code ∨ ¬goodTime) → exec (.placementPin dt tag code timeout) s =
      .next ((s.elapse dt).answered 0x38 tag { status := .badField, body := .empty })) ∧
    (∀ p, s.takes → code = p.index.val + 1 → goodTime →
      ∃ t : State, exec (.placementPin dt tag code timeout) s = .next (t.answered 0x38 tag (report t)) ∧ t.plu = pinned p ∧
        t.now = now ∧ t.lst = s.lst ∧ follows (s.elapse dt) (pinned p) t) ∧
    (s.takes → s.plu.pin = none → exec (.placementUnpin dt tag) s =
      .next ((s.elapse dt).answered 0x39 tag (report (s.elapse dt)))) ∧
    (∀ q, s.takes → s.plu.pin = some q →
      ∃ t : State, exec (.placementUnpin dt tag) s = .next (t.answered 0x39 tag (report t)) ∧ t.plu = ended ∧ t.now = now ∧
        t.lst = s.lst ∧ follows (s.elapse dt) ended t) ∧
    (∀ p e, s.plu.pin = some { placement := p, expiry := some e } →
      ∃ t : State, exec .pinExpiry s = .next t ∧ t.plu = ended ∧ t.now = max s.now e ∧ t.lst = s.lst ∧
        follows (s.reach e) ended t)

/-! ## Thermal zones (chapter 5) -/

/-- ZONE_SETUP is refused NOT_READY in RUNNING and DOZING, NO_SUCH for a zone or channel that does not exist, BAD_FIELD for
a channel count that does not fit the source, a fan above F1 or a repeated channel, and CONFLICT for an enabled CHANNELS
zone with a channel that is not TEMP. Accepted, it replaces the four setup fields, bit n of the fan mask for Fn (log 6), and
derives the temperature from the last completion; a disabled CHANNELS zone has none (the model's reading, log 18). That a
value of a channel of another kind then is taken by its number (log 43), and that the completion before a RESTART is read
until the next one (log 46), are the model's choice. -/
def Obligations.ZoneSetupReplacesTheSetup : Prop :=
  ∀ (dt : Nat) (tag : Byte) (f : ZoneFields) (s : State), s.takes →
    let answers := fun (st : Status) (t : State) =>
      exec (.zoneSetup dt tag f) s = .next (t.answered 0x20 tag { status := st, body := .empty })
    (s.managed = true → answers .notReady (s.elapse dt)) ∧
    (s.managed = false → 6 ≤ f.zone → answers .noSuch (s.elapse dt)) ∧
    (s.managed = false → f.zone < 6 → (f.source = none ∨ 4 ≤ f.fanMap.toNat ∨
      (f.source = some .fed ∧ f.channels ≠ []) ∨ (f.source = some .channels ∧ f.channels.length ∉ [1, 2])) →
      answers .badField (s.elapse dt)) ∧
    (∀ k, s.managed = false → f.zone < 6 → f.source = some k → f.fanMap.toNat < 4 →
      (if k = .fed then f.channels = [] else f.channels.length ∈ [1, 2]) → (∃ n ∈ f.channels, 16 ≤ n) →
      answers .noSuch (s.elapse dt)) ∧
    (∀ (z : Fin 6) (l : List (Fin 16)) (k : ZoneSource), s.managed = false → f.zone = z.val → f.source = some k →
      f.fanMap.toNat < 4 → f.channels = l.map Fin.val → (if k = .fed then l = [] else l.length ∈ [1, 2]) →
      (¬l.Nodup → answers .badField (s.elapse dt)) ∧
      (l.Nodup → f.enabled = true → (∃ c ∈ l, (s.msu.channels.get c).kind ≠ .temp) → answers .conflict (s.elapse dt)) ∧
      (l.Nodup → (f.enabled = false ∨ ∀ c ∈ l, (s.msu.channels.get c).kind = .temp) →
        let readings := l.filterMap fun c => if s.msu.last.states.get c = .valid then s.msu.last.values.get c else none
        answers .ok { s.elapse dt with znm := { s.znm with zones := s.znm.zones.set z { s.znm.zones.get z with
          enabled := f.enabled, source := k, channels := l, fanMap := [0, 1].filter fun n => f.fanMap.getLsbD n.val
          temperature := if f.enabled ∧ k = .channels then readings.max? else none
          lastFeed := none, feedTimer := none } } }))

/-- ZONE_FEED is refused NO_SUCH for a zone that does not exist, CONFLICT for a zone that is disabled or takes channels, and
BAD_FIELD outside -40 to 150 degrees (the first of them that applies: log 41). Accepted, it stores the temperature and runs
or stops the feed timer, whose expiry makes the temperature absent and detects ZONE_STALE. Both evaluate the zone in RUNNING
and DOZING and nothing else outside them: the zone takes its judged state, wakes a DOZING part when it enters WARM, HOT or
CRITICAL, holds THERMAL on the lines while a zone is CRITICAL, posts a ZONE notice when its state has changed and only then,
hands its severity on and its demands to its fans, whose targets follow. Demand and target are those of R93 and R160. Where
the part could wake, no measurement scan waits for the front end; one that did could complete in the same step. -/
def Obligations.FeedsSetTheTemperature : Prop :=
  (∀ (s : State) (z : Fin 6) (m : Fin 2),
    let l := s.active.fans.get m
    let t := s.active.zones.get z
    let f := s.fnc.fans.get m
    let floor := if s.mdc.mode = .running then l.floor else 0
    let knee := t.soft - 80
    let mapped := (([0, 1, 2, 3, 4, 5] : List (Fin 6)).map s.znm.zones.get).filter fun y => y.enabled && y.fanMap.contains m
    let raw :=
      if s.managed = false then 60
      else if mapped.any fun y => y.state == .hot || y.state == .critical || y.state == .faulted then 100
      else match (mapped.filterMap (·.demand.get m)).max? with
        | none => floor
        | some d => min l.ceiling (max floor d)
    (t.soft < t.hard → floor ≤ l.ceiling → s.demandOf z m = match (s.znm.zones.get z).temperature with
      | none => 100
      | some v =>
        if v ≤ knee then floor
        else if t.hard ≤ v then l.ceiling
        else floor + (l.ceiling - floor) * (v - knee).toNat / (t.hard - knee).toNat) ∧
    s.targetOf m = if 0 < raw ∧ raw < f.minDuty then f.minDuty else raw) ∧
  ∀ (dt : Nat) (tag : Byte) (z : Fin 6) (temperature : Option Int) (n e : Nat) (s : State),
    let r := s.znm.zones.get z
    let now := s.now + dt
    let good : Prop := ∀ x, temperature = some x → -400 ≤ x ∧ x ≤ 1500
    let refused := fun (zone : Nat) (st : Status) =>
      exec (.zoneFeed dt tag zone temperature) s = .next ((s.elapse dt).answered 0x21 tag { status := st, body := .empty })
    let fed : State := { s.elapse dt with znm := { s.znm with zones := s.znm.zones.set z { r with
      temperature := temperature, lastFeed := some now
      feedTimer := if temperature = none then none else some (now + 2000000) } } }
    let stale : State := detect .zoneStale z { s.reach e with znm := { s.znm with
      zones := s.znm.zones.set z { r with temperature := none, feedTimer := none } } }
    let severe := fun x : ZoneState => x = .hot ∨ x = .critical ∨ x = .faulted
    let evaluated := fun (v : Option Int) (t : State) =>
      let new := t.znm.zones.get z
      let enters : Prop := 0 < new.state.level ∧ (r.state = .faulted ∨ r.state.level < new.state.level)
      let wakes : Prop := s.mdc.mode = .dozing ∧ enters
      new.state = judge (s.active.zones.get z) s.active.hysteresis r.state v ∧ new.temperature = v ∧ new.r = r.r ∧
      (wakes → t.mdc.mode = .running ∧ new.woke = true) ∧ (¬wakes → t.mdc.mode = s.mdc.mode ∧ new.woke = r.woke) ∧
      (∀ y, y ≠ z → (t.znm.zones.get y).state = (s.znm.zones.get y).state) ∧
      (new.state ≠ r.state → Notice.zone z new.state v new.r new.woke ∈ t.slk.notices ∨ t.slk.dropped = true) ∧
      (∀ n ∈ t.slk.notices, n.kind = 0x44 → n ∈ s.slk.notices ∨
        (new.state ≠ r.state ∧ n = .zone z new.state v new.r new.woke)) ∧
      ((s.znm.thermalClaim = true ↔ ∃ y, (s.znm.zones.get y).state = .critical) →
        (t.znm.thermalClaim = true ↔ ∃ y, (t.znm.zones.get y).state = .critical) ∧
        (t.znm.thermalClaim ≠ s.znm.thermalClaim →
          ∀ k, ClampCause.thermal ∈ (t.clu.get k).causes ↔ t.znm.thermalClaim = true)) ∧
      (¬(severe new.state ↔ severe r.state) → (t.alc.budget.severities.get z = true ↔ severe new.state) ∧
        t.alc.budget.effective = some t.formB) ∧
      ∀ m, m ∈ r.fanMap →
        new.demand.get m = some (t.demandOf z m) ∧
        ((s.fnc.fans.get m).enabled = true → (new.demand.get m ≠ r.demand.get m ∨ ¬(severe new.state ↔ severe r.state)) →
          (t.fnc.fans.get m).target = t.targetOf m)
    let alone : Prop := s.mdc.mode = .running ∨ s.msu.pendingMeas = false
    (s.takes → 6 ≤ n → refused n .noSuch) ∧
    (s.takes → (r.enabled = false ∨ r.source = .channels) → refused z .conflict) ∧
    (s.takes → r.enabled = true → r.source = .fed → ¬good → refused z .badField) ∧
    (s.takes → r.enabled = true → r.source = .fed → good →
      ∃ t : State, exec (.zoneFeed dt tag z temperature) s =
          .next (t.answered 0x21 tag { status := .ok, body := .empty }) ∧
        (s.managed = false → t = fed) ∧ (s.managed = true → alone → evaluated temperature t) ∧
        (s.mdc.mode = .running → t.msu = s.msu ∧ t.plu = s.plu ∧ t.csu = s.csu)) ∧
    (r.feedTimer = some e →
      ∃ t : State, exec (.feedTimerExpiry z) s = .next t ∧ (s.managed = false → t = stale) ∧
        t.mdc.faults.get 2 = { s.mdc.faults.get 2 with detected := true, subject := some z.val } ∧
        (s.managed = true → r.enabled = true →
          evaluated none t ∧ (t.znm.zones.get z).state = .faulted))

/-- The state an evaluation gives, by the table of R87: FAULTED without a temperature; the target from FAULTED or from below
it; else one level lower at or below the level's exit threshold, and unchanged above it. -/
def Obligations.EvaluationFollowsTheTable : Prop :=
  ∀ (t : Thresholds) (h : Nat) (old : ZoneState) (v : Int), t.soft < t.hard → t.hard < t.critical →
    let rank := fun (x : ZoneState) => match x with
      | .warm => 1
      | .hot => 2
      | .critical => 3
      | _ => 0
    let target : ZoneState := if t.critical ≤ v then .critical else if t.hard ≤ v then .hot else if t.soft ≤ v then .warm
      else .normal
    judge t h old none = .faulted ∧ judge t h .faulted (some v) = target ∧
    (old ≠ .faulted → old ≠ .off → rank old < rank target → judge t h old (some v) = target) ∧
    judge t h .critical (some v) = (if v ≤ t.critical - h then .hot else .critical) ∧
    (rank target ≤ 2 → judge t h .hot (some v) = if v ≤ t.hard - h then .warm else .hot) ∧
    (rank target ≤ 1 → judge t h .warm (some v) = if v ≤ t.soft - h then .normal else .warm) ∧
    (rank target = 0 → judge t h .normal (some v) = .normal)

/-- At the expiry of a zone's step timer r acts by the zone's state, as the table of R90 states, and the last step
temperature becomes the zone's temperature. A changed r is handed to the Allocator; an unchanged one leaves everything else
as it was. -/
def Obligations.StepTimerStepsTheReduction : Prop :=
  ∀ (z : Fin 6) (s : State) (e : Nat), (s.znm.zones.get z).stepTimer = some e →
    let old := s.znm.zones.get z
    let step := s.active.thermalStep
    let rests : Prop := ∃ l v, old.lastStepTemp = some l ∧ old.temperature = some v ∧ v < l
    ∃ t : State, exec (.stepTimerExpiry z) s = .next t ∧ t.now = max s.now e ∧
      let new := t.znm.zones.get z
      new = { old with
        r := new.r, lastStepTemp := old.temperature, stepTimer := some (t.now + s.active.stepInterval * 1000) } ∧
      (∀ y, y ≠ z → t.znm.zones.get y = s.znm.zones.get y) ∧
      (old.state = .warm → (old.temperature ≠ none ∨ old.lastStepTemp = none) → ¬rests →
        new.r = min 250000 (old.r + step)) ∧
      (old.state = .warm → rests → new.r = old.r) ∧ (old.state = .normal → new.r = old.r - step) ∧
      (old.state = .hot ∨ old.state = .critical ∨ old.state = .faulted → new.r = old.r) ∧
      (step % 250 = 0 → old.r % 250 = 0 → new.r % 250 = 0) ∧
      (s.managed = true → new.r ≠ old.r → t.alc.budget.reductions.get z = new.r ∧ t.alc.budget.effective = some t.formB) ∧
      (new.r = old.r → t = { s.reach e with znm := t.znm })

/-! ## Power budget (chapter 6) -/

/-- An accepted ADP change is delivered to the Source Monitor, and the battery moves by the table of R104. The source limit
follows the adapter and the battery, which a completion evaluates in RUNNING and DOZING; a change of presence posts one
SOURCE notice, and in RUNNING and DOZING it or a change of the battery state is handed to the Allocator with the severity,
which puts SOURCE on every clamp line or takes it off. ADP_CHANGE is the third differing sample of the line and moves its
filter (the model's reading, log 31). -/
def Obligations.SourceFollowsAdapterAndBattery : Prop :=
  (∀ (s : State) (reserve : Nat), s.plu.adp.run = 2 →
    (s.srm.setup ≠ none → ∃ c, s.lst.chassis = some c ∧ c.systemReserve = reserve) →
    let due := s.plu.adp.sampledAt + 1000
    let present := s.plu.adp.accepted == .low
    let filtered : State := { s.reach due with
      plu := { s.plu with adp := { accepted := if present then .high else .low, run := 0, sampledAt := due } } }
    let limit := s.srm.setup.map fun u =>
      if present then u.rating - reserve else if s.srm.battery = .normal then u.discharge else u.lowLimit
    let severity := s.managed && s.srm.battery == .critical && !present
    let srm := { s.srm with adapterPresent := present, sourceLimit := limit, severity := severity }
    (present = s.srm.adapterPresent → exec .adpChange s = .next filtered) ∧
    (present ≠ s.srm.adapterPresent →
      ∃ t : State, exec .adpChange s = .next t ∧ ({ filtered with srm := srm } : State).grantsOnly t ∧
        (severity ≠ s.srm.severity → ∀ n, ClampCause.source ∈ (t.clu.get n).causes ↔ severity = true) ∧
        (Notice.source present s.srm.battery limit ∈ t.slk.notices ∨ t.slk.dropped = true) ∧
        (s.managed = true → t.alc.budget.adapterPresent = present ∧ t.alc.budget.sourceLimit = limit ∧
          t.alc.budget.sourceSeverity = severity ∧
          (s.alc.budget.effective = some s.formB → t.alc.budget.effective = some t.formB)) ∧
        (s.managed = false → s.srm.severity = false →
          t = State.post (.source present s.srm.battery limit) { filtered with srm := srm }))) ∧
  (∀ (s : State) (c : Completion) (reserve : Nat),
    (s.srm.setup ≠ none → ∃ l, s.lst.chassis = some l ∧ l.systemReserve = reserve) →
    let battery := s.srm.evaluated c
    let here := s.srm.adapterPresent
    let limit := s.srm.setup.map fun u =>
      if here then u.rating - reserve else if battery = .normal then u.discharge else u.lowLimit
    let severity := battery == .critical && !here
    let srm := { s.srm with battery := battery, sourceLimit := limit, severity := severity }
    let t := sourceCompletion c s
    ((s.managed = false ∨ battery = s.srm.battery) → t = s) ∧
    (s.managed = true → battery ≠ s.srm.battery →
      ({ s with srm := srm } : State).grantsOnly t ∧ t.alc.budget.adapterPresent = here ∧
      t.alc.budget.sourceLimit = limit ∧ t.alc.budget.sourceSeverity = severity ∧
      (Notice.source here battery limit ∈ t.slk.notices ∨ t.slk.dropped = true) ∧
      (s.alc.budget.effective = some s.formB → t.alc.budget.effective = some t.formB) ∧
      (severity ≠ s.srm.severity → ∀ n, ClampCause.source ∈ (t.clu.get n).causes ↔ severity = true))) ∧
  ∀ (c : Completion) (r : Srm) (u : SourceSetup), r.setup = some u → u.criticalThreshold < u.lowThreshold →
    0 < u.hysteresis →
    (c.values.get u.batteryChannel = none → r.evaluated c = r.battery) ∧
    ∀ v : Nat, c.values.get u.batteryChannel = some (v : Int) →
      (r.battery = .normal → r.evaluated c =
        if v ≤ u.criticalThreshold then .critical else if v ≤ u.lowThreshold then .low else .normal) ∧
      (r.battery = .low → r.evaluated c =
        if u.lowThreshold + u.hysteresis ≤ v then .normal else if v ≤ u.criticalThreshold then .critical else .low) ∧
      (r.battery = .critical → r.evaluated c =
        if u.lowThreshold + u.hysteresis ≤ v then .normal
        else if u.criticalThreshold + u.hysteresis ≤ v then .low else .critical)

/-- SOURCE_SETUP is checked in the order of R100. Accepted, it replaces the setup and forms the source limit anew; in
RUNNING and DOZING the limit is handed to the Allocator, and outside them nothing else changes. -/
def Obligations.SourceSetupReplacesTheSetup : Prop :=
  ∀ (dt : Nat) (tag : Byte) (f : SourceFields) (s : State), s.takes →
    let refused := fun (st : Status) => exec (.sourceSetup dt tag f) s =
      .next ((s.elapse dt).answered 0x28 tag { status := st, body := .empty })
    let good : Prop := f.rating ≤ 250000 ∧ f.discharge ≤ 250000 ∧ f.lowLimit ≤ 250000 ∧ f.lowLimit ≤ f.discharge ∧
      1 ≤ f.lowThreshold ∧ f.lowThreshold ≤ 65535 ∧ f.criticalThreshold < f.lowThreshold ∧ 50 ≤ f.hysteresis ∧
      f.hysteresis ≤ 400
    let exist : Prop := f.batteryChannel < 16 ∧ ∀ p, f.pair = some p → p.1 < 16 ∧ p.2 < 16
    (s.lst.chassis = none → refused .notReady) ∧
    (s.lst.chassis ≠ none → ¬good → refused .badField) ∧
    (s.lst.chassis ≠ none → good → ¬exist → refused .noSuch) ∧
    ∀ (c : ChassisLimits) (b : Fin 16) (pair : Option (Fin 16 × Fin 16)), s.lst.chassis = some c → good →
      f.batteryChannel = b.val → f.pair = pair.map (fun p => (p.1.val, p.2.val)) →
      let kind := fun n => (s.msu.channels.get n).kind
      let fits : Prop := kind b = .voltage ∧ ∀ p, pair = some p → kind p.1 = .current ∧ kind p.2 = .voltage
      (¬fits → refused .conflict) ∧
      (fits →
        let limit := if s.srm.adapterPresent then f.rating - c.systemReserve
          else if s.srm.battery = .normal then f.discharge else f.lowLimit
        let stored : State := { s.elapse dt with srm := { s.srm with
          setup := some
            { rating := f.rating, discharge := f.discharge, lowLimit := f.lowLimit, batteryChannel := b
              lowThreshold := f.lowThreshold, criticalThreshold := f.criticalThreshold, hysteresis := f.hysteresis
              pair := pair }
          sourceLimit := some limit } }
        ∃ t : State, exec (.sourceSetup dt tag f) s =
            .next (t.answered 0x28 tag { status := .ok, body := .sourceLimit (some limit) }) ∧
          stored.grantsOnly t ∧ t.clu = s.clu ∧ (s.managed = false → t = stored) ∧
          (s.managed = true → t.alc.budget.sourceLimit = some limit))

/-- A recomputation forms B by the steps of R112 and acts by R115. Where grants and reservation exceed B or a grant its
ceiling, it is a reduction: the reservation is cancelled whole (the model's reading, log 13), grants are held to their
ceilings, and what remains of the need is taken down to the floors, the highest priority number and in it the highest slot
first; the round opens or takes the cause. Otherwise the queue is served when there is spare. SYS_CAP stores a cap of 0 to
250,000 mW in whole grant steps, or its absence, and is refused BAD_FIELD for another; in RUNNING and DOZING a changed cap is
a recompute input, and the reply carries B and spare after it. -/
def Obligations.BudgetIsFormedFromItsInputs : Prop :=
  (∀ (c : RoundCause) (l : ChassisLimits) (s : State), s.managed = true → s.lst.chassis = some l →
    let b := s.alc.budget
    let cap := if b.armed then s.active.burst else s.active.sustained
    let held := fun (n : Nat) (limit : Option Nat) => match limit with
      | some x => min n x
      | none => n
    let base := held (held cap b.sourceLimit) b.systemCap
    let r := b.reductions.get 0 + b.reductions.get 1 + b.reductions.get 2 + b.reductions.get 3 + b.reductions.get 4 +
      b.reductions.get 5
    let d := (if b.derates.get 0 then l.stallDerate.get 0 else 0) + (if b.derates.get 1 then l.stallDerate.get 1 else 0)
    (recompute c s).alc.budget.effective = some (
      if b.sourceSeverity = true ∨ (∃ z, b.severities.get z = true) then s.alc.floorSum
      else max s.alc.floorSum (base - r - d) / 250 * 250)) ∧
  (∀ (c : RoundCause) (s : State), s.managed = true → s.alc.allDomains Domain.sound = true →
    s.alc.allDomains Domain.holdsFloor = true →
    let t := recompute c s
    let budget := s.formB
    let formed : State := { s with alc := { s.alc with budget := { s.alc.budget with effective := some budget } } }
    let taken := s.alc.grantSum + s.alc.round.reservation
    let ceiling := fun i : Fin 6 => match s.alc.domains.get i with
      | some d => min (d.grant.getD 0) (d.effCeiling.getD 0)
      | none => 0
    let above : Prop := ∃ i, ceiling i < s.alc.grants.get i
    let lowered := fun i : Fin 6 => t.alc.grants.get i < s.alc.grants.get i
    (taken ≤ budget → ¬above → t = if taken < budget then serve formed else formed) ∧
    (budget < taken ∨ above →
      s.lowersDomains t (fun i => s.alc.round.opened && s.alc.round.lists i) ∧ s.takesInOrder t ceiling (fun _ => True) ∧
      (∀ i, t.alc.grants.get i ≤ ceiling i) ∧
      t.alc.grantSum = min (([0, 1, 2, 3, 4, 5] : List (Fin 6)).map ceiling).sum budget ∧
      t.alc.round.reservation = 0 ∧ t.alc.round.beneficiary = none ∧
      (s.alc.round.opened = true → t.alc.round.opened = true ∧ t.alc.round.number = s.alc.round.number ∧
        ∀ x, x ∈ t.alc.round.causes ↔ x = c ∨ x ∈ s.alc.round.causes) ∧
      (s.alc.round.opened = false → (∃ i, lowered i) → t.alc.round.opened = true ∧ t.alc.round.causes = [c] ∧
        t.alc.round.number = if s.alc.round.number = 255 then 1 else s.alc.round.number + 1))) ∧
  ∀ (dt : Nat) (tag : Byte) (cap : Option Nat) (s : State), s.takes →
    let good : Prop := ∀ x, cap = some x → x ≤ 250000 ∧ x % 250 = 0
    let stored : State := { s.elapse dt with alc := { s.alc with budget := { s.alc.budget with systemCap := cap } } }
    let answers := fun (t : State) => exec (.sysCap dt tag cap) s = .next (t.answered 0x29 tag
      { status := .ok
        body := .budget (if s.managed then t.alc.budget.effective else none)
          (if s.managed then some (t.alc.budget.effective.getD 0 - (t.alc.grantSum + t.alc.round.reservation)) else none) })
    (¬good → exec (.sysCap dt tag cap) s =
      .next ((s.elapse dt).answered 0x29 tag { status := .badField, body := .empty })) ∧
    (good → (s.managed = false ∨ s.alc.budget.systemCap = cap) → answers stored) ∧
    (good → s.managed = true → s.alc.budget.systemCap ≠ cap →
      ∃ t : State, answers t ∧ (s.elapse dt).grantsOnly t ∧ t.clu = s.clu ∧ t.alc.budget.effective = some t.formB ∧
        t.alc.budget = { stored.alc.budget with effective := t.alc.budget.effective } ∧
        ∀ i, t.alc.coreOf i = s.alc.coreOf i)

/-- At a completion in RUNNING and DOZING the credit changes by (S - T) x ms / 1,000 within 0 and K, and the armed flag is
weighed against credit, K and the re-arm threshold. T is the pair's power when both channels are VALID with values, and else
each domain's measured power, or its grant where that is absent. A change of the flag is a recompute input. -/
def Obligations.CreditAndArmingFollowTheCompletion : Prop :=
  ∀ (c : Completion) (dtMs : Nat) (s : State), s.managed = true →
    let l := s.active
    let b := s.alc.budget
    let t := updateBurst c dtMs s
    let delta : Int := (((l.sustained : Int) - platformPower s c) * dtMs).tdiv 1000
    let credit := min l.bucket (b.credit + delta).toNat
    t.alc.budget.credit = credit ∧
    (t.alc.budget.armed = true ↔
      if b.armed then 0 < credit ∧ 0 < l.bucket else 0 < l.bucket ∧ l.bucket * l.rearm ≤ credit * 100) ∧
    (t.alc.budget.armed ≠ b.armed → t.alc.budget.effective = some t.formB) ∧
    (t.alc.budget.armed = b.armed → t.alc = { s.alc with budget := { b with credit := credit } }) ∧
    s.grantsOnly t ∧ t.clu = s.clu ∧
    (∀ u i v x y, s.srm.setup = some u → u.pair = some (i, v) → c.states.get i = .valid → c.states.get v = .valid →
      c.values.get i = some (Int.ofNat x) → c.values.get v = some (Int.ofNat y) → platformPower s c = x * y / 1000) ∧
    ((∀ u i v, s.srm.setup = some u → u.pair = some (i, v) →
        c.states.get i ≠ .valid ∨ c.states.get v ≠ .valid ∨ c.values.get i = none ∨ c.values.get v = none) →
      platformPower s c = (([0, 1, 2, 3, 4, 5] : List (Fin 6)).map fun k => match s.alc.domains.get k with
        | some d => d.measured.getD (d.grant.getD 0)
        | none => 0).sum)

/-- While the part is RUNNING or DOZING the grants and the reservation stay within B, which is formed from its inputs, and
every domain holds at least its floor; outside them every domain is UNMANAGED with no grant. A round is open exactly while a
domain is REVOKING, which it then lists, and its reservation has a beneficiary that waits; the raise queue holds in its order
exactly the domains that wait; the thermal claim is set exactly while a zone is CRITICAL. Every step keeps all of it. -/
def Obligations.EveryStepKeepsTheGrantsWithinB : Prop :=
  (∀ s t : State, ModeOk s → GrantsOk s → step s = .next t → GrantsOk t) ∧
  (∀ s t : State, ModeOk s → GrantsOk s → RoundOk s.alc → QueueOk s → step s = .next t → RoundOk t.alc ∧ QueueOk t) ∧
  ∀ s t : State, ModeOk s → ZonesOk s → step s = .next t → ZonesOk t

/-! ## The grant table (chapter 7) -/

/-- DOMAIN_DECLARE is checked in the order of R122. Accepted, it fills the slot and assigns the line. In LOCKED the domain is
UNMANAGED with no grant, and nothing else changes. In RUNNING and DOZING it is under management: its effective ceiling is that
of R120, its grant the floor, its state SETTLED and its measured power absent, also after the recomputation with cause CEILING
that follows; its GRANT notice with reason RAISE waits, or is dropped where the queue is full; and raise queue and round,
which do not name an empty slot, do not name it either. -/
def Obligations.DeclarationsFillTheSlot : Prop :=
  ∀ (dt : Nat) (tag : Byte) (f : DomainFields) (s : State), s.takes →
    let refused := fun (st : Status) => exec (.domainDeclare dt tag f) s =
      .next ((s.elapse dt).answered 0x30 tag { status := st, body := .empty })
    let label := f.labelChars.take f.labelLength
    let good := fun (k : DomainKind) => f.reservedFlags = 0 ∧ f.labelLength ≤ 8 ∧
      (∀ x ∈ label, 0x20 ≤ x.toNat ∧ x.toNat ≤ 0x7E) ∧ f.priority ≤ 3 ∧ f.floor ≤ 250000 ∧ f.ceiling ≤ 250000 ∧
      f.floor % 250 = 0 ∧ f.ceiling % 250 = 0 ∧ f.floor ≤ f.ceiling ∧ (k = .charger → f.floor = 0) ∧ 500 ≤ f.rail ∧
      f.rail ≤ 25000 ∧ (f.volt ≠ none → f.sense ≠ none ∧ f.volt ≠ f.sense)
    (s.mdc.mode = .prepare → refused .notReady) ∧
    (s.mdc.mode ≠ .prepare → 6 ≤ f.slot → refused .noSuch) ∧
    ∀ (i : Fin 6) (c : ChassisLimits), s.mdc.mode ≠ .prepare → s.lst.chassis = some c → f.slot = i.val →
      (s.alc.domains.get i ≠ none → refused .conflict) ∧
      (s.alc.domains.get i = none → (∀ k, f.kind = some k → ¬good k) → refused .badField) ∧
      ∀ k, s.alc.domains.get i = none → f.kind = some k → good k →
        ((∃ n, (f.sense = some n ∨ f.volt = some n) ∧ 16 ≤ n) ∨ (∃ n, f.line = some n ∧ 6 ≤ n) → refused .noSuch) ∧
        ∀ (sense volt : Option (Fin 16)) (line : Option (Fin 6)), f.sense = sense.map Fin.val → f.volt = volt.map Fin.val →
          f.line = line.map Fin.val →
          let free : Prop := (∀ n, sense = some n → (s.msu.channels.get n).kind = .current) ∧
            (∀ n, volt = some n → (s.msu.channels.get n).kind = .voltage) ∧
            ∀ j d, s.alc.domains.get j = some d → ¬(k = .charger ∧ d.kind = .charger) ∧
              (∀ n, (sense = some n ∨ volt = some n) → d.sense ≠ some n ∧ d.volt ≠ some n) ∧
              ∀ n, line = some n → d.line ≠ some n
          let d : Domain :=
            { kind := k, label := if f.labelLength = 0 then none else some label, priority := f.priority, floor := f.floor
              ceiling := f.ceiling, rail := f.rail, sense := sense, volt := volt, line := line, permit := .on, request := none
              effCeiling := none, grant := none, state := .unmanaged, deadline := none, holdStart := none, measured := none
              revocations := 0, clamps := 0, overdueSince := none }
          let ceiling := if k = .charger then if s.alc.budget.adapterPresent then min f.ceiling s.active.chargeCap else 0
            else f.ceiling
          let settled := { d with effCeiling := some ceiling, grant := some f.floor, state := .settled }
          let notice := (s.elapse dt).grantNotice i settled .raise []
          let unnamed := fun a : Alc => (∀ e ∈ a.queue, e.slot ≠ i) ∧ (∀ e ∈ a.round.affected, e.slot ≠ i) ∧
            a.round.beneficiary ≠ some i
          let filled := fun e : Domain => ({ s.elapse dt with
            alc := { s.alc with domains := s.alc.domains.set i (some e) }
            clu := match line with
              | some n => s.clu.set n { s.clu.get n with assigned := some i }
              | none => s.clu } : State)
          (¬free → refused .conflict) ∧ (free → c.minBudget < s.alc.floorSum + f.floor → refused .outOfLimits) ∧
          (free → s.alc.floorSum + f.floor ≤ c.minBudget →
            ∃ t : State, exec (.domainDeclare dt tag f) s = .next (t.answered 0x30 tag
                { status := .ok, body := match t.alc.domains.get i with
                    | some e => .declared e.state e.grant
                    | none => .empty }) ∧
              (s.elapse dt).grantsOnly t ∧ (∀ n, line = some n → (t.clu.get n).assigned = some i) ∧
              (∀ j, t.alc.coreOf j = if j = i then some d.core else s.alc.coreOf j) ∧
              (s.managed = false → t = filled d) ∧
              (s.managed = true → t = recompute .ceiling (State.post notice (filled settled)) ∧
                t.alc.domains.get i = some settled ∧ t.alc.budget.effective = some t.formB ∧
                (if s.slk.notices.length < 16 ∨ ∃ m ∈ s.slk.notices, m.key = notice.key then notice ∈ t.slk.notices
                  else t.slk.dropped = true) ∧
                (unnamed s.alc → unnamed t.alc)))

/-- DOMAIN_RETIRE is refused NO_SUCH for a slot that holds no domain. Accepted, it empties the slot; the domain's queue
entry, its place in the round, its line's assignment and its OVERDUE cause are gone, it is no round's beneficiary, and in
RUNNING and DOZING B is formed anew. Where it was the beneficiary its reservation returns to spare: none is held, but by a new
round that the step opens. While another domain is REVOKING the round goes on with the rest of its record. -/
def Obligations.RetirementEmptiesTheSlot : Prop :=
  ∀ (dt : Nat) (tag : Byte) (slot : Nat) (s : State), s.takes →
    ((∀ i : Fin 6, slot = i.val → s.alc.domains.get i = none) → exec (.domainRetire dt tag slot) s =
      .next ((s.elapse dt).answered 0x31 tag { status := .noSuch, body := .empty })) ∧
    ∀ (i : Fin 6) (d : Domain), slot = i.val → s.alc.domains.get i = some d →
      ∃ t : State, exec (.domainRetire dt tag slot) s = .next (t.answered 0x31 tag { status := .ok, body := .empty }) ∧
        (s.elapse dt).grantsOnly t ∧ t.alc.domains.get i = none ∧ (∀ j, j ≠ i → t.alc.coreOf j = s.alc.coreOf j) ∧
        (∀ e ∈ t.alc.queue, e.slot ≠ i) ∧ (∀ e ∈ t.alc.round.affected, e.slot ≠ i) ∧ t.alc.round.beneficiary ≠ some i ∧
        (s.alc.round.beneficiary = some i → t.alc.round.number = s.alc.round.number →
          t.alc.round.reservation = 0 ∧ t.alc.round.beneficiary = none) ∧
        (s.managed = false ∨ (s.alc.round.opened = true ∧
            ∃ j e, j ≠ i ∧ s.alc.domains.get j = some e ∧ e.state = .revoking) →
          let left := { s.alc.round with affected := s.alc.round.affected.filter (·.slot != i) }
          t.alc.round = if s.alc.round.beneficiary = some i then { left with reservation := 0, beneficiary := none } else left) ∧
        (∀ n, d.line = some n → (t.clu.get n).assigned = none ∧ ClampCause.overdue ∉ (t.clu.get n).causes) ∧
        (s.managed = false → t.alc.budget = s.alc.budget ∧ t.alc.domains = s.alc.domains.set i none) ∧
        (s.managed = true → t.alc.budget = { s.alc.budget with effective := some t.formB })

/-- DOMAIN_REQUEST is refused NO_SUCH without a domain, BAD_FIELD above 250,000 and NOT_PERMITTED while the permit is OFF
(the first of them that applies: log 41). Otherwise the value, rounded down and brought within floor and ceiling, becomes the
request, and the reply is TRIMMED when that took more than rounding. In RUNNING and DOZING a wanted value below the grant
lowers it at once, with a GRANT notice, and serves the queue from the spare it leaves; an equal one takes the entry off the
queue; a higher one has an entry, which takes its place in the queue's order, and serves the queue when that is new or its
wanted value has risen (else not: log 14). A beneficiary's reservation is cut to the new shortfall, or returned. Serving does
nothing while a round is open. That an entry's time and a notice's remaining time are in ms, rounded down (log 9), and the
order of one step's notices (log 12) are the model's choice. -/
def Obligations.RequestsActOnTheGrant : Prop :=
  (∀ (e : QueueEntry) (l : List QueueEntry),
    let before := fun a b : QueueEntry =>
      a.priority < b.priority ∨ (a.priority = b.priority ∧ (a.time < b.time ∨ (a.time = b.time ∧ a.slot < b.slot)))
    (enqueue e l).Perm (e :: l) ∧ (l.Pairwise before → (∀ a ∈ l, a.slot ≠ e.slot) → (enqueue e l).Pairwise before)) ∧
  ∀ (dt : Nat) (tag : Byte) (slot value : Nat) (s : State), s.takes →
    let refused := fun (st : Status) => exec (.domainRequest dt tag slot value) s =
      .next ((s.elapse dt).answered 0x32 tag { status := st, body := .empty })
    ((∀ i : Fin 6, slot = i.val → s.alc.domains.get i = none) → refused .noSuch) ∧
    ∀ (i : Fin 6) (d : Domain), slot = i.val → s.alc.domains.get i = some d →
      (250000 < value → refused .badField) ∧ (value ≤ 250000 → d.permit = .off → refused .notPermitted) ∧
      (value ≤ 250000 → d.permit = .on →
        let rounded := value / 250 * 250
        let r := min d.ceiling (max d.floor rounded)
        let stored := { d with request := some r }
        ∃ t : State, exec (.domainRequest dt tag slot value) s = .next (t.answered 0x32 tag
            { status := if r = rounded then .ok else .trimmed
              body := .requested r ((t.alc.domains.get i).bind (·.grant)) }) ∧
          (s.elapse dt).grantsOnly t ∧ t.clu = s.clu ∧ t.alc.budget = s.alc.budget ∧
          (∀ j, t.alc.coreOf j = if j = i then some stored.core else s.alc.coreOf j) ∧
          (s.managed = false →
            t = { s.elapse dt with alc := { s.alc with domains := s.alc.domains.set i (some stored) } }) ∧
          ∀ g c, s.managed = true → d.grant = some g → d.effCeiling = some c →
            let wanted := max d.floor (min r c)
            let round := if s.alc.round.beneficiary = some i then
                if wanted ≤ g then { s.alc.round with reservation := 0, beneficiary := none }
                else { s.alc.round with reservation := min s.alc.round.reservation (wanted - g) }
              else s.alc.round
            let holding := fun (e : Domain) (queue : List QueueEntry) => ({ s.elapse dt with alc := { s.alc with
              domains := s.alc.domains.set i (some e), queue := queue, round := round } } : State)
            let others := s.alc.queue.filter (·.slot != i)
            let lowered := { stored with grant := some wanted }
            (wanted < g →
              let u := State.post ((s.elapse dt).grantNotice i lowered .lower []) (holding lowered others)
              t = if u.alc.grantSum + round.reservation < s.alc.budget.effective.getD 0 then serve u else u) ∧
            (wanted = g → t = holding stored others) ∧
            (g < wanted →
              let u := holding stored ((s.elapse dt).queueWith i d)
              t = if s.alc.queue.any (·.slot == i) ∧ wanted ≤ max d.floor (min (d.request.getD d.floor) c) then u
                else serve u))

/-- DOMAIN_PERMIT is refused NO_SUCH without a domain; repeating the stored permit changes nothing. OFF brings the effective
ceiling to the floor, takes the entry off the queue, returns a beneficiary's reservation, and trims a grant above the floor
in a round, or posts a CEILING notice; ON forms the ceiling anew, posts a CEILING notice (before the queue is served: log
15), and a wanted value above the grant then has an entry, from which the queue is served. Outside RUNNING and DOZING only
the permit is stored. That an entry's time and a notice's remaining time are in ms, rounded down (log 9), and the order of
one step's notices (log 12) are the model's choice. -/
def Obligations.PermitsActOnTheCeiling : Prop :=
  ∀ (dt : Nat) (tag : Byte) (slot : Nat) (s : State), s.takes →
    let row := fun (p : Permit) => match p with
      | .off => Instr.domainPermitOff dt tag slot
      | .on => Instr.domainPermitOn dt tag slot
    ((∀ i : Fin 6, slot = i.val → s.alc.domains.get i = none) → ∀ p, exec (row p) s =
      .next ((s.elapse dt).answered 0x34 tag { status := .noSuch, body := .empty })) ∧
    ∀ (i : Fin 6) (d : Domain) (p : Permit), slot = i.val → s.alc.domains.get i = some d →
      let stored := { d with permit := p }
      let answers := fun (t : State) => exec (row p) s = .next (t.answered 0x34 tag
        { status := .ok
          body := .permit p ((t.alc.domains.get i).bind (·.effCeiling)) ((t.alc.domains.get i).bind (·.grant)) })
      (d.permit = p → answers (s.elapse dt)) ∧
      (d.permit ≠ p → s.managed = false →
        answers { s.elapse dt with alc := { s.alc with domains := s.alc.domains.set i (some stored) } }) ∧
      (d.permit ≠ p → s.managed = true →
        ∃ t : State, answers t ∧ (s.elapse dt).grantsOnly t ∧ t.clu = s.clu ∧ t.alc.budget = s.alc.budget ∧
          (∀ j, t.alc.coreOf j = if j = i then some stored.core else s.alc.coreOf j) ∧
          (let held := d.grant.getD 0
           let holding := fun (e : Domain) (queue : List QueueEntry) (round : Round) => ({ s.elapse dt with alc := { s.alc with
             domains := s.alc.domains.set i (some e), queue := queue, round := round } } : State)
           let others := s.alc.queue.filter (·.slot != i)
           let off := { stored with effCeiling := some d.floor }
           let ceiling := if d.kind = .charger then if s.alc.budget.adapterPresent then min d.ceiling s.active.chargeCap else 0
             else d.ceiling
           let on := { stored with effCeiling := some ceiling }
           let wanted := max d.floor (min (d.request.getD d.floor) ceiling)
           let told := fun e : Domain => State.post ((s.elapse dt).grantNotice i e .ceiling [])
           (p = .off → d.floor ≤ held →
             let u := holding off others (if s.alc.round.beneficiary = some i then
               { s.alc.round with reservation := 0, beneficiary := none } else s.alc.round)
             t = if d.floor < held then reduce .permit u else told off u) ∧
           (p = .on → t = if held < wanted then
               serve (told on (holding on ((s.elapse dt).queueWith i d) s.alc.round))
             else told on (holding on others s.alc.round))) ∧
          (p = .off → (∀ e ∈ t.alc.queue, e.slot ≠ i) ∧
            (d.grant.getD 0 ≤ d.floor →
              t.alc.domains = s.alc.domains.set i (some { stored with effCeiling := some d.floor })) ∧
            (d.floor < d.grant.getD 0 → t.alc.round.opened = true ∧
              ∃ e, t.alc.domains.get i = some e ∧ e.effCeiling = some d.floor ∧ e.grant = some d.floor ∧
                e.state = .revoking)) ∧
          (p = .on → (t.alc.domains.get i).bind (·.effCeiling) = some (
            if d.kind = .charger then if s.alc.budget.adapterPresent then min d.ceiling s.active.chargeCap else 0
            else d.ceiling)))

/-! ## Rounds and clamp lines (chapter 8) -/

/-- DOMAIN_SETTLED is refused NO_SUCH without a domain and CONFLICT, with the grant state, for one judged by its measured
power; it settles a REVOKING domain, and releases a CLAMPED or OVERDUE one 200 ms after it became so, or replies the whole ms
still to wait (log 9). A REVOKING domain's deadline makes it CLAMPED with its line's OVERDUE cause, or OVERDUE without a
line, with DOMAIN_OVERDUE detected. Each posts a GRANT notice with reason ROUND. Where another domain is REVOKING the round
stays open and nothing else of the Allocator changes. With none REVOKING the round closes: the beneficiary takes the
reservation, and its entry leaves the queue when that meets its wanted value and else stays; the ROUND notice is posted, the
record is cleared but for its number, and the queue is served. Serving raises the head by the lesser of spare and shortfall
and goes on; a head it leaves unsatisfied preempts: domains of higher priority number are lowered, the highest number and
slot first, and the round opens for the head with the power taken reserved for it. The order of one step's notices is the
model's choice (log 12). -/
def Obligations.SettlementAndExpiry : Prop :=
  (∀ (dt : Nat) (tag : Byte) (slot : Nat) (s : State),
    let answers := fun (st : Status) (b : ReplyBody) (t : State) =>
      exec (.domainSettled dt tag slot) s = .next (t.answered 0x33 tag { status := st, body := b })
    (s.takes → (∀ i : Fin 6, slot = i.val → s.alc.domains.get i = none) → answers .noSuch .empty (s.elapse dt)) ∧
    ∀ (i : Fin 6) (d : Domain), slot = i.val → s.alc.domains.get i = some d →
      let others : Prop := ∃ j e, j ≠ i ∧ s.alc.domains.get j = some e ∧ e.state = .revoking
      let after := fun (e : Domain) => { s.alc with domains := s.alc.domains.set i (some e) }
      let settles : Prop := ∃ t : State, answers .ok (.settled .settled none) t ∧ (s.elapse dt).grantsOnly t ∧
        t.alc = after { d with state := .settled, deadline := none, holdStart := none, overdueSince := none } ∧
        ∀ n, d.line = some n → ClampCause.overdue ∉ (t.clu.get n).causes
      let causes := if s.alc.round.affected.any (·.slot == i) then s.alc.round.causes else []
      let told := fun (e : Domain) (u : State) => State.post (u.grantNotice i e .round causes) { u with alc := after e }
      let settled := told { d with state := .settled, deadline := none, holdStart := none, overdueSince := none }
        (match d.line with
          | none => s.elapse dt
          | some n => withdrawCause .overdue n (s.elapse dt))
      (s.takes → d.state = .revoking → d.measured = none →
        let t := closeIfDone settled
        ∃ e, t.alc.domains.get i = some e ∧ answers .ok (.settled e.state none) t) ∧
      (∀ o, s.takes → (d.state = .clamped ∨ d.state = .overdue) → d.measured = none → d.overdueSince = some o →
        o + 200000 ≤ s.now + dt → answers .ok (.settled .settled none) settled) ∧
      (∀ e, d.state = .revoking → d.deadline = some e → exec (.deadlineExpiry i) s = .next (closeIfDone (told { d with
          state := if d.line = none then .overdue else .clamped, deadline := none, overdueSince := some (max s.now e)
          clamps := min 65535 (d.clamps + 1) }
        (detect .domainOverdue i (match d.line with
          | none => s.reach e
          | some n => addCause .overdue n (s.reach e)))))) ∧
      (s.takes → (d.state = .unmanaged ∨ d.state = .settled) → answers .ok (.settled d.state none) (s.elapse dt)) ∧
      (s.takes → d.state ≠ .unmanaged → d.state ≠ .settled → d.measured ≠ none →
        answers .conflict (.settled d.state none) (s.elapse dt)) ∧
      (s.takes → d.state = .revoking → d.measured = none → others → settles) ∧
      (∀ o, s.takes → (d.state = .clamped ∨ d.state = .overdue) → d.measured = none → d.overdueSince = some o →
        (o + 200000 ≤ s.now + dt → settles) ∧
        (s.now + dt < o + 200000 →
          answers .ok (.settled d.state (some ((o + 200000 - (s.now + dt)) / 1000))) (s.elapse dt))) ∧
      (∀ e, d.state = .revoking → d.deadline = some e →
        ∃ t : State, exec (.deadlineExpiry i) s = .next t ∧ ({ s.reach e with mdc := t.mdc } : State).grantsOnly t ∧
          t.mdc = { s.mdc with
            faults := s.mdc.faults.set 4 { s.mdc.faults.get 4 with detected := true, subject := some i.val } } ∧
          (∀ n, d.line = some n → ClampCause.overdue ∈ (t.clu.get n).causes) ∧
          (others → t.alc = after { d with
            state := if d.line = none then .overdue else .clamped, deadline := none, overdueSince := some (max s.now e)
            clamps := min 65535 (d.clamps + 1) }))) ∧
  ∀ s : State,
    let round := s.alc.round
    let wanted := fun d : Domain => max d.floor (min (d.request.getD d.floor) (d.effCeiling.getD 0))
    let raised := fun (i : Fin 6) (d : Domain) (g : Nat) (u : State) =>
      State.post (.grant i g d.state (d.effCeiling.getD 0) .raise []
          (if d.state = .revoking then d.deadline.map fun e => (e - s.now) / 1000 else none))
        { u with alc := { u.alc with domains := u.alc.domains.set i (some { d with grant := some g }) } }
    let with_ := fun (q : List QueueEntry) (u : State) => ({ u with alc := { u.alc with queue := q } } : State)
    let count := fun g : GrantState => round.affected.countP fun e => (s.alc.domains.get e.slot).any (·.state == g)
    let closed := fun u : State => ({ u with alc := { u.alc with
      round := { number := round.number, opened := false, causes := [], affected := [], reservation := 0
                 beneficiary := none } } } : State)
    let told := State.post (.round round.number round.causes (count .settled) (count .clamped) (count .overdue))
    let revoking : Prop := ∃ i d, s.alc.domains.get i = some d ∧ d.state = .revoking
    let spare := s.alc.budget.effective.getD 0 - (s.alc.grantSum + round.reservation)
    (round.opened = false ∨ revoking → closeIfDone s = s) ∧
    (round.opened = true → ¬revoking → round.beneficiary = none → closeIfDone s = serve (closed (told s))) ∧
    (∀ i d g, round.opened = true → ¬revoking → round.beneficiary = some i → s.alc.domains.get i = some d → d.grant = some g →
      g + round.reservation = wanted d → d.effCeiling ≠ none →
      closeIfDone s = serve (closed (told (with_ (s.alc.queue.filter (·.slot != i)) (raised i d (wanted d) s))))) ∧
    (∀ i d g, round.opened = true → ¬revoking → round.beneficiary = some i → s.alc.domains.get i = some d → d.grant = some g →
      g + round.reservation < wanted d → d.effCeiling ≠ none → d.permit = .on → s.alc.queue.any (·.slot == i) = true →
      closeIfDone s = serve (closed (told (raised i d (g + round.reservation) s)))) ∧
    (round.opened = true ∨ s.alc.queue = [] → serve s = s) ∧
    ∀ e l d g, round.opened = false → s.alc.queue = e :: l → s.alc.domains.get e.slot = some d → d.grant = some g →
      d.effCeiling ≠ none → d.permit = .on → g < wanted d → (s.alc.queue.map (·.slot)).Nodup →
      (wanted d - g ≤ spare → serve s = serve (with_ l (raised e.slot d (wanted d) s))) ∧
      (0 < spare → spare < wanted d - g → serve s = serve (raised e.slot d (g + spare) s)) ∧
      (spare = 0 → s.alc.allDomains Domain.sound = true → s.alc.allDomains Domain.holdsFloor = true →
        let part := fun i : Fin 6 => match s.alc.domains.get i with
          | some x => if d.priority < x.priority then x.grant.getD 0 - x.floor else 0
          | none => 0
        let takeable := (([0, 1, 2, 3, 4, 5] : List (Fin 6)).map part).sum
        let t := serve s
        (takeable = 0 → t = s) ∧
        (0 < takeable →
          s.lowersDomains t (fun _ => false) ∧
          s.takesInOrder t (fun i => s.alc.grants.get i) (fun x => d.priority < x.priority) ∧
          (∀ i x, s.alc.domains.get i = some x → x.priority ≤ d.priority → t.alc.domains.get i = some x) ∧
          t.alc.grantSum + t.alc.round.reservation = s.alc.grantSum ∧
          t.alc.round.reservation = min (wanted d - g) takeable ∧ t.alc.round.beneficiary = some e.slot ∧
          t.alc.round.opened = true ∧ t.alc.round.causes = [.preempt] ∧
          t.alc.round.number = if round.number = 255 then 1 else round.number + 1))

/-- A lowered domain's deadline: the present time plus the chassis source deadline for cause SOURCE, and plus the active
set's compliance deadline for any other; never later than the deadline of a domain already REVOKING. No other domain's
deadline moves, and a stored set moves none. -/
def Obligations.DeadlinesFollowTheCause : Prop :=
  (∀ (c : RoundCause) (target : Nat) (i : Fin 6) (d : Domain) (l : ChassisLimits) (s : State), s.lst.chassis = some l →
    s.alc.domains.get i = some d →
    let given := s.now + (if c = .source then l.sourceDeadline else s.active.compliance) * 1000
    let t := lowerOne c target i s
    (∃ e, t.alc.domains.get i = some e ∧ e.state = .revoking ∧
      (∀ present, d.state = .revoking → d.deadline = some present → e.deadline = some (min present given)) ∧
      ((d.state ≠ .revoking ∨ d.deadline = none) → e.deadline = some given)) ∧
    ∀ j, j ≠ i → t.alc.domains.get j = s.alc.domains.get j) ∧
  ∀ (p : SetId) (f : LimitSet) (s : State), (storeSet p f s).alc = s.alc

/-- A line is active exactly when it is enabled and has a cause, a change of the active level posts one CLAMP notice, and the
pin follows the table of R152. CLAMP_FORCE is refused BAD_FIELD for a line above CL5, and otherwise adds or withdraws FORCED
on the lines of its mask, bit n for CLn (log 6), in ascending order of lines (log 12), and on no other. LINE_SETUP is refused
NOT_READY in RUNNING and DOZING, NO_SUCH above CL5 and BAD_FIELD for a value of none (the first that applies: log 41);
accepted, it replaces the three setup fields and keeps the causes. While RESETN is low every clamp pin is released. -/
def Obligations.ClampLinesFollowTheirCauses : Prop :=
  (∀ l : Line, (l.active = true ↔ l.enabled = true ∧ l.causes ≠ []) ∧
    l.pin = match l.polarity, l.drive with
      | .activeLow, .openDrain => if l.active then .low else .released
      | .activeLow, .pushPull => if l.active then .low else .high
      | .activeHigh, .openDrain => if l.active then .released else .low
      | .activeHigh, .pushPull => if l.active then .high else .low) ∧
  (∀ (s : State) (n : Fin 6), s.clampPin .low n = .released ∧ s.clampPin .high n = (s.clu.get n).pin) ∧
  (∀ (c : ClampCause) (n : Fin 6) (s : State),
    let old := s.clu.get n
    let changes := fun (t : State) (holds : ClampCause → Prop) =>
      let new := t.clu.get n
      let stored : State := { s with clu := s.clu.set n new }
      new = { old with causes := new.causes } ∧ (∀ x, x ∈ new.causes ↔ holds x) ∧
      t = if new.active = old.active then stored else stored.post (.clamp n new.active new.causes)
    changes (addCause c n s) (fun x => x = c ∨ x ∈ old.causes) ∧
    changes (withdrawCause c n s) (fun x => x ≠ c ∧ x ∈ old.causes)) ∧
  ∀ (dt : Nat) (tag mask : Byte) (f : LineFields) (s : State), s.takes →
    let shown := fun (t : State) => ([0, 1, 2, 3, 4, 5] : List (Fin 6)).map fun n =>
      ({ enabled := (t.clu.get n).enabled, active := (t.clu.get n).active, causes := (t.clu.get n).causes } : LineEntry)
    let forces := fun (c : Instr) (set : Bool) =>
      (64 ≤ mask.toNat → exec c s = .next ((s.elapse dt).answered 0x2A tag { status := .badField, body := .empty })) ∧
      (mask.toNat < 64 → ∃ t : State, exec c s = .next (t.answered 0x2A tag { status := .ok, body := .lines (shown t) }) ∧
        t = (([0, 1, 2, 3, 4, 5] : List (Fin 6)).filter fun n => mask.getLsbD n.val).foldl
          (fun u n => if set then addCause .forced n u else withdrawCause .forced n u) (s.elapse dt) ∧
        (s.elapse dt).linesOnly t ∧ ∀ n : Fin 6,
          let old := s.clu.get n
          let new := t.clu.get n
          new = { old with causes := new.causes } ∧ (mask.getLsbD n.val = false → new = old) ∧
          (mask.getLsbD n.val = true → ∀ c,
            c ∈ new.causes ↔ if set then c = ClampCause.forced ∨ c ∈ old.causes else c ≠ ClampCause.forced ∧ c ∈ old.causes))
    let answers := fun (st : Status) (t : State) =>
      exec (.lineSetup dt tag f) s = .next (t.answered 0x2B tag { status := st, body := .empty })
    forces (.clampForceSet dt tag mask) true ∧ forces (.clampForceClear dt tag mask) false ∧
    (s.managed = true → answers .notReady (s.elapse dt)) ∧
    (s.managed = false → 6 ≤ f.line → answers .noSuch (s.elapse dt)) ∧
    (s.managed = false → f.line < 6 → (f.enabled = none ∨ f.polarity = none ∨ f.drive = none) →
      answers .badField (s.elapse dt)) ∧
    ∀ (n : Fin 6) (e : Bool) (p : Polarity) (d : Drive), s.managed = false → f.line = n.val → f.enabled = some e →
      f.polarity = some p → f.drive = some d →
      let new := { s.clu.get n with enabled := e, polarity := p, drive := d }
      let stored : State := { s.elapse dt with clu := s.clu.set n new }
      (new.active = (s.clu.get n).active → answers .ok stored) ∧
      (new.active ≠ (s.clu.get n).active → answers .ok (stored.post (.clamp n new.active new.causes)))

/-! ## Fans (chapter 9) -/

/-- A tachometer edge gives the speed from the period since the edge before it, when one was counted and it does not span
1,000 ms. In RUNNING it restarts the stall timer and clears attempts and final flag; in PROVING it ends the retry with
success. Without an edge for 1,000 ms the speed becomes absent. Every 250 ms each RUNNING fan's duty moves toward its target
by at most 5 points, and no other fan's (so too where it lies below a minimum running duty raised meanwhile: log 38); every
40 us each PWM output takes its fan's duty, and is high for the first duty x 40 / 100 us; while RESETN is low both outputs
are low. -/
def Obligations.TachometerRampAndPwm : Prop :=
  ∀ (dt e : Nat) (n : Fin 2) (v : Option Nat) (s : State),
    let f := s.fnc.fans.get n
    let now := s.now + dt
    let gives : Prop :=
      ((f.lastEdge = none ∨ f.periodOpen = false) ∧ v = none) ∨
      (f.periodOpen = true ∧ ∃ x, f.lastEdge = some x ∧ x + 1000000 < now ∧ v = none) ∨
      (f.periodOpen = true ∧ ∃ x, f.lastEdge = some x ∧ x < now ∧ now ≤ x + 1000000 ∧
        v = some (60000000 / ((now - x) * f.ppr)))
    let captured := { f with speed := v, lastEdge := some now, periodOpen := true }
    let turning := { captured with
      state := .running, attempts := 0, finalFlag := false, phaseTimer := none, stallTimer := some (now + 1000000) }
    let stored := fun (g : Fan) => ({ s.elapse dt with fnc := { s.fnc with fans := s.fnc.fans.set n g } } : State)
    (gives → f.state ≠ .running → f.state ≠ .spinup .retry .proving → exec (.tachEdge dt n) s = .next (stored captured)) ∧
    (gives → f.state = .running → exec (.tachEdge dt n) s = .next (stored turning)) ∧
    (gives → f.state = .spinup .retry .proving →
      ∃ t : State, exec (.tachEdge dt n) s = .next t ∧ (stored turning).grantsOnly t ∧ t.clu = s.clu ∧
        t.alc.budget.derates.get n = false) ∧
    (f.periodOpen = true → f.lastEdge = some e → exec (.speedTimeout n) s = .next { s.reach (e + 1000000) with
      fnc := { s.fnc with fans := s.fnc.fans.set n { f with speed := none, periodOpen := false } } }) ∧
    (let due := s.fnc.rampStart + 250000
     exec .rampTimerExpiry s = .next { s.reach due with fnc := { s.fnc with
      rampStart := due
      fans := tabulate fun m =>
        let x := s.fnc.fans.get m
        if x.state = .running then
          { x with duty := if x.duty ≤ x.target then min x.target (x.duty + 5) else max x.target (x.duty - 5) }
        else x } }) ∧
    (let due := s.fnc.pwmStart + 40
     exec .pwmPeriodStart s = .next { s.reach due with fnc := { s.fnc with
      pwmStart := due, pwmDuty := tabulate fun m => (s.fnc.fans.get m).duty } }) ∧
    (s.fanPin .high n = true ↔ (s.now - s.fnc.pwmStart) % 40 * 100 < s.fnc.pwmDuty.get n * 40) ∧ s.fanPin .low n = false

/-- The timers of a fan. An ordinary kick ends in RUNNING at the minimum duty with the stall timer started. Its expiry makes
the fan STALLED with duty 0, its derate claim and FAN_STALL, and a retry timer unless the final flag is set. A retry kicks,
then proves at the minimum duty; a failed one leaves the fan STALLED, and the third sets the final flag. Attempts stay at 3
at a retry begun with 3 (the model's choice, log 37). -/
def Obligations.FansSpinUpStallAndRetry : Prop :=
  ∀ (n : Fin 2) (e : Nat) (s : State),
    let f := s.fnc.fans.get n
    let now := max s.now e
    let stored := fun (g : Fan) => ({ s.reach e with fnc := { s.fnc with fans := s.fnc.fans.set n g } } : State)
    let told := fun (g : Fan) => (stored g).post (.fan n g.state g.duty g.speed g.attempts)
    (f.state = .spinup .ordinary .kick → f.phaseTimer = some e → exec (.kickEnd n) s = .next (told { f with
      state := .running, duty := f.minDuty, phaseTimer := none, stallTimer := some (now + 1000000) })) ∧
    (f.state = .spinup .retry .kick → f.phaseTimer = some e → exec (.retryKickEnd n) s = .next (stored { f with
      state := .spinup .retry .proving, duty := f.minDuty, phaseTimer := some (now + 1000000) })) ∧
    (f.state = .spinup .retry .proving → f.phaseTimer = some e → exec (.provingExpiry n) s = .next (told { f with
      state := .stalled, duty := 0, phaseTimer := none
      retryTimer := if f.attempts < 3 then some (now + 5000000) else none
      finalFlag := if f.attempts = 3 then true else f.finalFlag })) ∧
    (f.state = .stalled → f.retryTimer = some e → exec (.retryTimerExpiry n) s = .next (told { f with
      state := .spinup .retry .kick, duty := 100, attempts := min 3 (f.attempts + 1), stallTimer := none, retryTimer := none
      phaseTimer := some (now + 500000) })) ∧
    (f.state = .running → f.stallTimer = some e →
      let g := { f with
        state := .stalled, duty := 0, stallTimer := none
        retryTimer := if f.finalFlag then none else some (now + 5000000) }
      ∃ t : State, exec (.stallTimerExpiry n) s = .next t ∧ ({ stored g with mdc := t.mdc } : State).grantsOnly t ∧
        t.clu = s.clu ∧ t.alc.budget.derates.get n = true ∧
        t.mdc.faults = s.mdc.faults.set 3 { s.mdc.faults.get 3 with detected := true, subject := some n.val } ∧
        (s.managed = false →
          t.alc = { s.alc with budget := { s.alc.budget with derates := s.alc.budget.derates.set n true } }))

/-- FAN_SETUP is refused NOT_READY in RUNNING and DOZING, NO_SUCH above F1 and BAD_FIELD out of range (the
first that applies: log 41). A disabled fan is OFF
with every timer stopped; an OFF fan enabled spins up toward guard duty; a running one keeps its state. FAN_RETRY is refused
NO_SUCH above F1 and CONFLICT for an OFF fan; it begins a retry of a STALLED fan at once, with attempts 1. -/
def Obligations.FanRequestsActByTheState : Prop :=
  ∀ (dt : Nat) (tag : Byte) (fan ppr minDuty : Nat) (enabled : Bool) (s : State), s.takes →
    let now := s.now + dt
    let good : Prop := 1 ≤ ppr ∧ ppr ≤ 4 ∧ 10 ≤ minDuty ∧ minDuty ≤ 60
    let setup := Instr.fanSetup dt tag fan enabled ppr minDuty
    let answers := fun (c : Instr) (kind : Byte) (st : Status) (t : State) =>
      exec c s = .next (t.answered kind tag { status := st, body := .empty })
    let at_ := fun (n : Fin 2) (g : Fan) => ({ s.elapse dt with fnc := { s.fnc with fans := s.fnc.fans.set n g } } : State)
    (s.managed = true → answers setup 0x3C .notReady (s.elapse dt)) ∧
    (s.managed = false → 2 ≤ fan → answers setup 0x3C .noSuch (s.elapse dt)) ∧
    (s.managed = false → fan < 2 → ¬good → answers setup 0x3C .badField (s.elapse dt)) ∧
    (2 ≤ fan → answers (.fanRetry dt tag fan) 0x3D .noSuch (s.elapse dt)) ∧
    ∀ n : Fin 2, fan = n.val →
      let f := s.fnc.fans.get n
      let g := { f with ppr := ppr, minDuty := minDuty }
      let off := { g with
        enabled := false, state := .off, duty := 0, stallTimer := none, phaseTimer := none, retryTimer := none, attempts := 0
        finalFlag := false }
      let kicked := { g with
        enabled := true, state := .spinup .ordinary .kick, duty := 100, target := 60, stallTimer := none, retryTimer := none
        phaseTimer := some (now + 500000) }
      let retried := { f with
        state := .spinup .retry .kick, duty := 100, attempts := 1, finalFlag := false, stallTimer := none, retryTimer := none
        phaseTimer := some (now + 500000) }
      let replies := fun (x : Fan) (t : State) => exec (.fanRetry dt tag fan) s =
        .next (t.answered 0x3D tag { status := .ok, body := .fanState x.state x.attempts })
      (s.managed = false → good → enabled = false →
        ∃ t : State, answers setup 0x3C .ok t ∧ (at_ n off).grantsOnly t ∧ t.clu = s.clu ∧
          t.alc = { s.alc with budget := { s.alc.budget with
            derates := if f.state.claim then s.alc.budget.derates.set n false else s.alc.budget.derates } }) ∧
      (s.managed = false → good → enabled = true → f.state = .off →
        ∃ t : State, answers setup 0x3C .ok t ∧ (at_ n kicked).noticesOnly t) ∧
      (s.managed = false → good → enabled = true → f.state ≠ .off → f.state ≠ .stopped →
        answers setup 0x3C .ok (at_ n { g with enabled := true, target := 60 })) ∧
      (f.state = .off → answers (.fanRetry dt tag fan) 0x3D .conflict (s.elapse dt)) ∧
      (f.state = .stalled → replies retried ((at_ n retried).post (.fan n retried.state 100 f.speed 1))) ∧
      (∀ p, f.state = .spinup .retry p → replies { f with attempts := 1 } (at_ n { f with attempts := 1 })) ∧
      ((f.state = .stopped ∨ f.state = .running ∨ ∃ p, f.state = .spinup .ordinary p) → replies f (s.elapse dt))

/-! ## Modes and faults (chapter 11) -/

/-- RUN is taken in LOCKED with every set VALID and the source set up, and else refused NOT_READY with what is missing. It
makes the mode RUNNING, takes GUARD off the lines, empties the bucket, forms B and brings zones and domains under management.
DOZE and WAKE change between RUNNING and DOZING, repeat themselves with no effect, and are refused NOT_READY before RUN. DOZE
abandons a rebase in flight, with its DONE notice, ABANDONED. No measurement scan waits for the front end in the accepting
clauses; one that did could complete in the same step. -/
def Obligations.RunDozeAndWakeChangeTheMode : Prop :=
  ∀ (dt : Nat) (tag : Byte) (s : State), s.takes →
    let now := s.now + dt
    let empty := ([.desk, .lap, .bag, .moving] : List SetId).filter fun p => (s.lst.get p).isNone
    let ready : Prop := s.mdc.mode = .locked ∧ empty = [] ∧ s.srm.setup ≠ none
    let keeps := fun (t : State) => t.now = now ∧ t.plu = s.plu ∧ t.lst = s.lst ∧ t.srm.setup = s.srm.setup ∧
      t.msu.channels = s.msu.channels ∧ t.msu.scanList = s.msu.scanList ∧ t.msu.claim = .unclaimed ∧
      ∀ i, t.alc.coreOf i = s.alc.coreOf i
    let moves := fun (c : Instr) (kind : Byte) (m : Mode) (t : State) =>
      exec c s = .next (t.answered kind tag { status := .ok, body := .mode m }) ∧ keeps t ∧
        t.mdc = { s.mdc with mode := m } ∧ t.alc.budget.credit = s.alc.budget.credit ∧
        ∀ z, (t.znm.zones.get z).state = (s.znm.zones.get z).state ∧ (t.znm.zones.get z).r = (s.znm.zones.get z).r
    (¬ready → exec (.run dt tag) s = .next ((s.elapse dt).answered 0x04 tag
      { status := .notReady, body := .runRefused s.mdc.mode empty s.srm.setup.isSome })) ∧
    (ready → s.msu.pendingMeas = false →
      ∃ t : State, exec (.run dt tag) s = .next (t.answered 0x04 tag { status := .ok, body := .empty }) ∧ keeps t ∧
        t.mdc = { s.mdc with mode := .running, guardClaim := false } ∧
        (∀ n, ClampCause.guard ∉ (t.clu.get n).causes) ∧ t.alc.budget.credit = 0 ∧
        t.alc.budget.armed = false ∧ t.alc.budget.effective = some t.formB ∧
        (∀ i d, t.alc.domains.get i = some d → d.grant ≠ none ∧ d.effCeiling ≠ none) ∧
        ∀ z, (s.znm.zones.get z).enabled = true → (t.znm.zones.get z).state = .normal ∧ (t.znm.zones.get z).r = 0 ∧
          (t.znm.zones.get z).stepTimer = some (now + s.active.stepInterval * 1000)) ∧
    ((s.mdc.mode = .prepare ∨ s.mdc.mode = .locked) →
      exec (.doze dt tag) s = .next ((s.elapse dt).answered 0x05 tag { status := .notReady, body := .mode s.mdc.mode }) ∧
      exec (.wake dt tag) s = .next ((s.elapse dt).answered 0x06 tag { status := .notReady, body := .mode s.mdc.mode })) ∧
    (s.mdc.mode = .dozing →
      exec (.doze dt tag) s = .next ((s.elapse dt).answered 0x05 tag { status := .ok, body := .mode .dozing })) ∧
    (s.mdc.mode = .running →
      exec (.wake dt tag) s = .next ((s.elapse dt).answered 0x06 tag { status := .ok, body := .mode .running })) ∧
    (s.mdc.mode = .running → s.msu.pendingMeas = false →
      ∃ t : State, moves (.doze dt tag) 0x05 .dozing t ∧ t.csu.rebase = .noRebase ∧ t.csu.learning = .learning .doze 0 ∧
        (s.csu.rebase ≠ .noRebase → Notice.done .abandoned ∈ t.slk.notices ∨ t.slk.dropped = true) ∧
        (∀ n ∈ t.slk.notices, n.kind = 0x47 → n ∈ s.slk.notices ∨ (s.csu.rebase ≠ .noRebase ∧ n = .done .abandoned)) ∧
        ∀ z, (t.znm.zones.get z).woke = false) ∧
    (s.mdc.mode = .dozing → s.msu.pendingMeas = false →
      ∃ t : State, moves (.wake dt tag) 0x06 .running t ∧ (∀ n, t.csu.learning ≠ .learning .doze n) ∧
        ∀ g, (t.csu.groups.get g).pending = none)

/-- RESTART is answered OK and awaited; it takes effect once no slot holds its reply and the transmitter has stopped sending
a frame that a break has cut, and not before (its row then leaves the state, log 2). It then returns the mode to LOCKED, or
PREPARE without chassis limits, keeps the setups, and clears what the table of R185 says it clears; the notice queue holds
only what the step itself posts, a SOURCE notice where the adapter presence changes and the FAN notices of fans that start.
The last completion is kept (the model's reading, log 17). No measurement scan waits for the front end in that clause; one
that did could complete in the same step. -/
def Obligations.RestartKeepsAndClears : Prop :=
  ∀ (dt : Nat) (tag : Byte) (s : State),
    let held : Prop := (∃ r ∈ s.slk.slots, r.kind = 0x03 ∧ r.reply ≠ none) ∨ s.slk.cut ≠ none
    (s.takes → exec (.restart dt tag) s = .next (({ s.elapse dt with mdc := { s.mdc with restartAwaited := true } } :
      State).answered 0x03 tag { status := .ok, body := .empty })) ∧
    (s.mdc.restartAwaited = false ∨ held → exec .restartTakesEffect s = .next s) ∧
    (s.mdc.restartAwaited = true → ¬held → s.msu.pendingMeas = false →
      ∃ t : State, exec .restartTakesEffect s = .next t ∧ t.now = s.now ∧ t.lst = s.lst ∧
        t.mdc = { mode := if s.lst.chassis = none then .prepare else .locked, guardClaim := false, restartAwaited := false
                  faults := tabulate fun k => { s.mdc.faults.get k with detected := false, subject := none } } ∧
        t.msu.scanList = s.msu.scanList ∧ t.msu.seqStart = s.msu.seqStart ∧ t.msu.last = s.msu.last ∧
        t.msu.claim = .unclaimed ∧
        (∀ n, t.msu.channels.get n = { s.msu.channels.get n with
          history := [], lastRaw := none, restartPending := false
          state := if (s.msu.channels.get n).enabled then .valid else .off }) ∧
        t.csu.electrodes = s.csu.electrodes ∧ t.csu.resolution = s.csu.resolution ∧ t.csu.rebase = .noRebase ∧
        t.plu = { s.plu with placement := .unsettled, pin := none, candidate := none, dwell := .idle } ∧
        t.znm.thermalClaim = false ∧
        (∀ z, t.znm.zones.get z = { s.znm.zones.get z with
          state := .off, r := 0, stepTimer := none, lastStepTemp := none, woke := false, temperature := none
          lastFeed := none, feedTimer := none, demand := Vector.replicate 2 none }) ∧
        t.srm.setup = s.srm.setup ∧ t.srm.battery = .normal ∧ t.srm.severity = false ∧
        t.srm.adapterPresent = (s.plu.adp.accepted == .high) ∧
        (∀ i, t.alc.domains.get i = none) ∧ t.alc.queue = [] ∧
        t.alc.round = { number := s.alc.round.number, opened := false, causes := [], affected := [], reservation := 0
                        beneficiary := none } ∧
        t.alc.budget.credit = 0 ∧ t.alc.budget.armed = false ∧ t.alc.budget.systemCap = none ∧
        (∀ n, t.clu.get n = { s.clu.get n with causes := [], assigned := none }) ∧
        t.slk.slots = s.slk.slots.filter (·.reply.isSome) ∧ t.slk.dropped = false ∧ t.slk.rx = s.slk.rx ∧
        t.slk.tx = s.slk.tx ∧ t.slk.txStart = s.slk.txStart ∧
        (∀ m ∈ t.slk.notices,
          (m = .source t.srm.adapterPresent .normal t.srm.sourceLimit ∧ t.srm.adapterPresent ≠ s.srm.adapterPresent) ∨
          ∃ n, m = .fan n (t.fnc.fans.get n).state (t.fnc.fans.get n).duty (t.fnc.fans.get n).speed
              (t.fnc.fans.get n).attempts ∧
            ((s.fnc.fans.get n).state = .stopped ∨ (s.fnc.fans.get n).state = .stalled)) ∧
        ∀ n,
          let f := s.fnc.fans.get n
          let g := { f with target := 60, attempts := 0, finalFlag := false, retryTimer := none }
          let kick := fun (k : SpinKind) (x : Fan) => { x with
            state := .spinup k .kick, duty := 100, stallTimer := none, phaseTimer := some (s.now + 500000) }
          t.fnc.fans.get n = match f.state with
            | .stopped => kick .ordinary g
            | .stalled => kick .retry { g with attempts := 1 }
            | .spinup .retry _ => kick .retry { g with attempts := 1 }
            | _ => g)

/-- FAULTS is refused BAD_FIELD when a mask names a kind above the nine, and then changes nothing. Accepted, its reply
carries each kind's flag, enable and subject as they stand; then flag and subject of each kind in the clear list are
cleared, a present report mask replaces every enable, and nothing else changes. -/
def Obligations.FaultsShowsThenClears : Prop :=
  ∀ (dt : Nat) (tag : Byte) (clear : Word) (report : Option Word) (s : State), s.takes →
    let bad := fun (m : Word) => ∃ k : Nat, 9 ≤ k ∧ m.getLsbD k = true
    ((bad clear ∨ ∃ m, report = some m ∧ bad m) → exec (.faults dt tag clear report) s =
      .next ((s.elapse dt).answered 0x3F tag { status := .badField, body := .empty })) ∧
    (¬bad clear → (∀ m, report = some m → ¬bad m) →
      ∃ t : State, exec (.faults dt tag clear report) s =
          .next (t.answered 0x3F tag { status := .ok, body := .faults s.mdc.faults.toList }) ∧
        t = { s.elapse dt with mdc := { s.mdc with faults := t.mdc.faults } } ∧
        ∀ k : Fin 9,
          let old := s.mdc.faults.get k
          let new := t.mdc.faults.get k
          new.report = (match report with
            | some m => m.getLsbD k.val
            | none => old.report) ∧
          (clear.getLsbD k.val = true → new.detected = false ∧ new.subject = none) ∧
          (clear.getLsbD k.val = false → new.detected = old.detected ∧ new.subject = old.subject))
end

