-- ==== Sys2Proof/Laws/State.lean ====
section
/-! SUPPORT. What each update of the state does to each field, one lemma per field and update, so that no proof unfolds a record
update. `X_f` is the field `f` after the update `State.X`. -/

namespace Sys2Proof.Machine

@[simp] theorem State.elapse_now (dt : Nat) (s : State) : (s.elapse dt).now = s.now + dt := rfl
@[simp] theorem State.elapse_mdc (dt : Nat) (s : State) : (s.elapse dt).mdc = s.mdc := rfl
@[simp] theorem State.elapse_lst (dt : Nat) (s : State) : (s.elapse dt).lst = s.lst := rfl
@[simp] theorem State.elapse_msu (dt : Nat) (s : State) : (s.elapse dt).msu = s.msu := rfl
@[simp] theorem State.elapse_csu (dt : Nat) (s : State) : (s.elapse dt).csu = s.csu := rfl
@[simp] theorem State.elapse_plu (dt : Nat) (s : State) : (s.elapse dt).plu = s.plu := rfl
@[simp] theorem State.elapse_znm (dt : Nat) (s : State) : (s.elapse dt).znm = s.znm := rfl
@[simp] theorem State.elapse_srm (dt : Nat) (s : State) : (s.elapse dt).srm = s.srm := rfl
@[simp] theorem State.elapse_alc (dt : Nat) (s : State) : (s.elapse dt).alc = s.alc := rfl
@[simp] theorem State.elapse_clu (dt : Nat) (s : State) : (s.elapse dt).clu = s.clu := rfl
@[simp] theorem State.elapse_fnc (dt : Nat) (s : State) : (s.elapse dt).fnc = s.fnc := rfl
@[simp] theorem State.elapse_slk (dt : Nat) (s : State) : (s.elapse dt).slk = s.slk := rfl
@[simp] theorem State.elapse_choices (dt : Nat) (s : State) : (s.elapse dt).choices = s.choices := rfl
@[simp] theorem State.elapse_pending (dt : Nat) (s : State) : (s.elapse dt).pending = s.pending := rfl

@[simp] theorem State.reach_now (t : Nat) (s : State) : (s.reach t).now = max s.now t := rfl
@[simp] theorem State.reach_mdc (t : Nat) (s : State) : (s.reach t).mdc = s.mdc := rfl
@[simp] theorem State.reach_lst (t : Nat) (s : State) : (s.reach t).lst = s.lst := rfl
@[simp] theorem State.reach_msu (t : Nat) (s : State) : (s.reach t).msu = s.msu := rfl
@[simp] theorem State.reach_csu (t : Nat) (s : State) : (s.reach t).csu = s.csu := rfl
@[simp] theorem State.reach_plu (t : Nat) (s : State) : (s.reach t).plu = s.plu := rfl
@[simp] theorem State.reach_znm (t : Nat) (s : State) : (s.reach t).znm = s.znm := rfl
@[simp] theorem State.reach_srm (t : Nat) (s : State) : (s.reach t).srm = s.srm := rfl
@[simp] theorem State.reach_alc (t : Nat) (s : State) : (s.reach t).alc = s.alc := rfl
@[simp] theorem State.reach_clu (t : Nat) (s : State) : (s.reach t).clu = s.clu := rfl
@[simp] theorem State.reach_fnc (t : Nat) (s : State) : (s.reach t).fnc = s.fnc := rfl
@[simp] theorem State.reach_slk (t : Nat) (s : State) : (s.reach t).slk = s.slk := rfl
@[simp] theorem State.reach_choices (t : Nat) (s : State) : (s.reach t).choices = s.choices := rfl
@[simp] theorem State.reach_pending (t : Nat) (s : State) : (s.reach t).pending = s.pending := rfl

@[simp] theorem State.occupy_now (r : RequestSlot) (s : State) : (s.occupy r).now = s.now := rfl
@[simp] theorem State.occupy_mdc (r : RequestSlot) (s : State) : (s.occupy r).mdc = s.mdc := rfl
@[simp] theorem State.occupy_lst (r : RequestSlot) (s : State) : (s.occupy r).lst = s.lst := rfl
@[simp] theorem State.occupy_msu (r : RequestSlot) (s : State) : (s.occupy r).msu = s.msu := rfl
@[simp] theorem State.occupy_csu (r : RequestSlot) (s : State) : (s.occupy r).csu = s.csu := rfl
@[simp] theorem State.occupy_plu (r : RequestSlot) (s : State) : (s.occupy r).plu = s.plu := rfl
@[simp] theorem State.occupy_znm (r : RequestSlot) (s : State) : (s.occupy r).znm = s.znm := rfl
@[simp] theorem State.occupy_srm (r : RequestSlot) (s : State) : (s.occupy r).srm = s.srm := rfl
@[simp] theorem State.occupy_alc (r : RequestSlot) (s : State) : (s.occupy r).alc = s.alc := rfl
@[simp] theorem State.occupy_clu (r : RequestSlot) (s : State) : (s.occupy r).clu = s.clu := rfl
@[simp] theorem State.occupy_fnc (r : RequestSlot) (s : State) : (s.occupy r).fnc = s.fnc := rfl
@[simp] theorem State.occupy_slk (r : RequestSlot) (s : State) : (s.occupy r).slk = { s.slk with slots := s.slk.slots ++ [r] } := rfl
@[simp] theorem State.occupy_choices (r : RequestSlot) (s : State) : (s.occupy r).choices = s.choices := rfl
@[simp] theorem State.occupy_pending (r : RequestSlot) (s : State) : (s.occupy r).pending = s.pending := rfl

@[simp] theorem State.post_now (n : Notice) (s : State) : (s.post n).now = s.now := rfl
@[simp] theorem State.post_mdc (n : Notice) (s : State) : (s.post n).mdc = s.mdc := rfl
@[simp] theorem State.post_lst (n : Notice) (s : State) : (s.post n).lst = s.lst := rfl
@[simp] theorem State.post_msu (n : Notice) (s : State) : (s.post n).msu = s.msu := rfl
@[simp] theorem State.post_csu (n : Notice) (s : State) : (s.post n).csu = s.csu := rfl
@[simp] theorem State.post_plu (n : Notice) (s : State) : (s.post n).plu = s.plu := rfl
@[simp] theorem State.post_znm (n : Notice) (s : State) : (s.post n).znm = s.znm := rfl
@[simp] theorem State.post_srm (n : Notice) (s : State) : (s.post n).srm = s.srm := rfl
@[simp] theorem State.post_alc (n : Notice) (s : State) : (s.post n).alc = s.alc := rfl
@[simp] theorem State.post_clu (n : Notice) (s : State) : (s.post n).clu = s.clu := rfl
@[simp] theorem State.post_fnc (n : Notice) (s : State) : (s.post n).fnc = s.fnc := rfl
@[simp] theorem State.post_slk (n : Notice) (s : State) : (s.post n).slk = s.slk.post n := rfl
@[simp] theorem State.post_choices (n : Notice) (s : State) : (s.post n).choices = s.choices := rfl
@[simp] theorem State.post_pending (n : Notice) (s : State) : (s.post n).pending = s.pending := rfl

@[simp] theorem State.takeChoice_now (s : State) : (s.takeChoice).now = s.now := rfl
@[simp] theorem State.takeChoice_mdc (s : State) : (s.takeChoice).mdc = s.mdc := rfl
@[simp] theorem State.takeChoice_lst (s : State) : (s.takeChoice).lst = s.lst := rfl
@[simp] theorem State.takeChoice_msu (s : State) : (s.takeChoice).msu = s.msu := rfl
@[simp] theorem State.takeChoice_csu (s : State) : (s.takeChoice).csu = s.csu := rfl
@[simp] theorem State.takeChoice_plu (s : State) : (s.takeChoice).plu = s.plu := rfl
@[simp] theorem State.takeChoice_znm (s : State) : (s.takeChoice).znm = s.znm := rfl
@[simp] theorem State.takeChoice_srm (s : State) : (s.takeChoice).srm = s.srm := rfl
@[simp] theorem State.takeChoice_alc (s : State) : (s.takeChoice).alc = s.alc := rfl
@[simp] theorem State.takeChoice_clu (s : State) : (s.takeChoice).clu = s.clu := rfl
@[simp] theorem State.takeChoice_fnc (s : State) : (s.takeChoice).fnc = s.fnc := rfl
@[simp] theorem State.takeChoice_slk (s : State) : (s.takeChoice).slk = s.slk := rfl
@[simp] theorem State.takeChoice_choices (s : State) : (s.takeChoice).choices = s.choices.tail := rfl
@[simp] theorem State.takeChoice_pending (s : State) : (s.takeChoice).pending = s.pending := rfl

@[simp] theorem State.setDomain_now (i : Fin 6) (d : Option Domain) (s : State) : (s.setDomain i d).now = s.now := rfl
@[simp] theorem State.setDomain_mdc (i : Fin 6) (d : Option Domain) (s : State) : (s.setDomain i d).mdc = s.mdc := rfl
@[simp] theorem State.setDomain_lst (i : Fin 6) (d : Option Domain) (s : State) : (s.setDomain i d).lst = s.lst := rfl
@[simp] theorem State.setDomain_msu (i : Fin 6) (d : Option Domain) (s : State) : (s.setDomain i d).msu = s.msu := rfl
@[simp] theorem State.setDomain_csu (i : Fin 6) (d : Option Domain) (s : State) : (s.setDomain i d).csu = s.csu := rfl
@[simp] theorem State.setDomain_plu (i : Fin 6) (d : Option Domain) (s : State) : (s.setDomain i d).plu = s.plu := rfl
@[simp] theorem State.setDomain_znm (i : Fin 6) (d : Option Domain) (s : State) : (s.setDomain i d).znm = s.znm := rfl
@[simp] theorem State.setDomain_srm (i : Fin 6) (d : Option Domain) (s : State) : (s.setDomain i d).srm = s.srm := rfl
@[simp] theorem State.setDomain_alc (i : Fin 6) (d : Option Domain) (s : State) : (s.setDomain i d).alc = { s.alc with domains := s.alc.domains.set i d } := rfl
@[simp] theorem State.setDomain_clu (i : Fin 6) (d : Option Domain) (s : State) : (s.setDomain i d).clu = s.clu := rfl
@[simp] theorem State.setDomain_fnc (i : Fin 6) (d : Option Domain) (s : State) : (s.setDomain i d).fnc = s.fnc := rfl
@[simp] theorem State.setDomain_slk (i : Fin 6) (d : Option Domain) (s : State) : (s.setDomain i d).slk = s.slk := rfl
@[simp] theorem State.setDomain_choices (i : Fin 6) (d : Option Domain) (s : State) : (s.setDomain i d).choices = s.choices := rfl
@[simp] theorem State.setDomain_pending (i : Fin 6) (d : Option Domain) (s : State) : (s.setDomain i d).pending = s.pending := rfl

@[simp] theorem State.setQueue_now (q : List QueueEntry) (s : State) : (s.setQueue q).now = s.now := rfl
@[simp] theorem State.setQueue_mdc (q : List QueueEntry) (s : State) : (s.setQueue q).mdc = s.mdc := rfl
@[simp] theorem State.setQueue_lst (q : List QueueEntry) (s : State) : (s.setQueue q).lst = s.lst := rfl
@[simp] theorem State.setQueue_msu (q : List QueueEntry) (s : State) : (s.setQueue q).msu = s.msu := rfl
@[simp] theorem State.setQueue_csu (q : List QueueEntry) (s : State) : (s.setQueue q).csu = s.csu := rfl
@[simp] theorem State.setQueue_plu (q : List QueueEntry) (s : State) : (s.setQueue q).plu = s.plu := rfl
@[simp] theorem State.setQueue_znm (q : List QueueEntry) (s : State) : (s.setQueue q).znm = s.znm := rfl
@[simp] theorem State.setQueue_srm (q : List QueueEntry) (s : State) : (s.setQueue q).srm = s.srm := rfl
@[simp] theorem State.setQueue_alc (q : List QueueEntry) (s : State) : (s.setQueue q).alc = { s.alc with queue := q } := rfl
@[simp] theorem State.setQueue_clu (q : List QueueEntry) (s : State) : (s.setQueue q).clu = s.clu := rfl
@[simp] theorem State.setQueue_fnc (q : List QueueEntry) (s : State) : (s.setQueue q).fnc = s.fnc := rfl
@[simp] theorem State.setQueue_slk (q : List QueueEntry) (s : State) : (s.setQueue q).slk = s.slk := rfl
@[simp] theorem State.setQueue_choices (q : List QueueEntry) (s : State) : (s.setQueue q).choices = s.choices := rfl
@[simp] theorem State.setQueue_pending (q : List QueueEntry) (s : State) : (s.setQueue q).pending = s.pending := rfl

@[simp] theorem State.reserve_now (n : Nat) (i : Option (Fin 6)) (s : State) : (s.reserve n i).now = s.now := rfl
@[simp] theorem State.reserve_mdc (n : Nat) (i : Option (Fin 6)) (s : State) : (s.reserve n i).mdc = s.mdc := rfl
@[simp] theorem State.reserve_lst (n : Nat) (i : Option (Fin 6)) (s : State) : (s.reserve n i).lst = s.lst := rfl
@[simp] theorem State.reserve_msu (n : Nat) (i : Option (Fin 6)) (s : State) : (s.reserve n i).msu = s.msu := rfl
@[simp] theorem State.reserve_csu (n : Nat) (i : Option (Fin 6)) (s : State) : (s.reserve n i).csu = s.csu := rfl
@[simp] theorem State.reserve_plu (n : Nat) (i : Option (Fin 6)) (s : State) : (s.reserve n i).plu = s.plu := rfl
@[simp] theorem State.reserve_znm (n : Nat) (i : Option (Fin 6)) (s : State) : (s.reserve n i).znm = s.znm := rfl
@[simp] theorem State.reserve_srm (n : Nat) (i : Option (Fin 6)) (s : State) : (s.reserve n i).srm = s.srm := rfl
@[simp] theorem State.reserve_alc (n : Nat) (i : Option (Fin 6)) (s : State) : (s.reserve n i).alc = { s.alc with round := { s.alc.round with reservation := n, beneficiary := i } } := rfl
@[simp] theorem State.reserve_clu (n : Nat) (i : Option (Fin 6)) (s : State) : (s.reserve n i).clu = s.clu := rfl
@[simp] theorem State.reserve_fnc (n : Nat) (i : Option (Fin 6)) (s : State) : (s.reserve n i).fnc = s.fnc := rfl
@[simp] theorem State.reserve_slk (n : Nat) (i : Option (Fin 6)) (s : State) : (s.reserve n i).slk = s.slk := rfl
@[simp] theorem State.reserve_choices (n : Nat) (i : Option (Fin 6)) (s : State) : (s.reserve n i).choices = s.choices := rfl
@[simp] theorem State.reserve_pending (n : Nat) (i : Option (Fin 6)) (s : State) : (s.reserve n i).pending = s.pending := rfl

@[simp] theorem State.setB_now (b : Option Nat) (s : State) : (s.setB b).now = s.now := rfl
@[simp] theorem State.setB_mdc (b : Option Nat) (s : State) : (s.setB b).mdc = s.mdc := rfl
@[simp] theorem State.setB_lst (b : Option Nat) (s : State) : (s.setB b).lst = s.lst := rfl
@[simp] theorem State.setB_msu (b : Option Nat) (s : State) : (s.setB b).msu = s.msu := rfl
@[simp] theorem State.setB_csu (b : Option Nat) (s : State) : (s.setB b).csu = s.csu := rfl
@[simp] theorem State.setB_plu (b : Option Nat) (s : State) : (s.setB b).plu = s.plu := rfl
@[simp] theorem State.setB_znm (b : Option Nat) (s : State) : (s.setB b).znm = s.znm := rfl
@[simp] theorem State.setB_srm (b : Option Nat) (s : State) : (s.setB b).srm = s.srm := rfl
@[simp] theorem State.setB_alc (b : Option Nat) (s : State) : (s.setB b).alc = { s.alc with budget := { s.alc.budget with effective := b } } := rfl
@[simp] theorem State.setB_clu (b : Option Nat) (s : State) : (s.setB b).clu = s.clu := rfl
@[simp] theorem State.setB_fnc (b : Option Nat) (s : State) : (s.setB b).fnc = s.fnc := rfl
@[simp] theorem State.setB_slk (b : Option Nat) (s : State) : (s.setB b).slk = s.slk := rfl
@[simp] theorem State.setB_choices (b : Option Nat) (s : State) : (s.setB b).choices = s.choices := rfl
@[simp] theorem State.setB_pending (b : Option Nat) (s : State) : (s.setB b).pending = s.pending := rfl

@[simp] theorem State.withBudget_now (f : Budget → Budget) (s : State) : (s.withBudget f).now = s.now := rfl
@[simp] theorem State.withBudget_mdc (f : Budget → Budget) (s : State) : (s.withBudget f).mdc = s.mdc := rfl
@[simp] theorem State.withBudget_lst (f : Budget → Budget) (s : State) : (s.withBudget f).lst = s.lst := rfl
@[simp] theorem State.withBudget_msu (f : Budget → Budget) (s : State) : (s.withBudget f).msu = s.msu := rfl
@[simp] theorem State.withBudget_csu (f : Budget → Budget) (s : State) : (s.withBudget f).csu = s.csu := rfl
@[simp] theorem State.withBudget_plu (f : Budget → Budget) (s : State) : (s.withBudget f).plu = s.plu := rfl
@[simp] theorem State.withBudget_znm (f : Budget → Budget) (s : State) : (s.withBudget f).znm = s.znm := rfl
@[simp] theorem State.withBudget_srm (f : Budget → Budget) (s : State) : (s.withBudget f).srm = s.srm := rfl
@[simp] theorem State.withBudget_alc (f : Budget → Budget) (s : State) : (s.withBudget f).alc = { s.alc with budget := f s.alc.budget } := rfl
@[simp] theorem State.withBudget_clu (f : Budget → Budget) (s : State) : (s.withBudget f).clu = s.clu := rfl
@[simp] theorem State.withBudget_fnc (f : Budget → Budget) (s : State) : (s.withBudget f).fnc = s.fnc := rfl
@[simp] theorem State.withBudget_slk (f : Budget → Budget) (s : State) : (s.withBudget f).slk = s.slk := rfl
@[simp] theorem State.withBudget_choices (f : Budget → Budget) (s : State) : (s.withBudget f).choices = s.choices := rfl
@[simp] theorem State.withBudget_pending (f : Budget → Budget) (s : State) : (s.withBudget f).pending = s.pending := rfl

@[simp] theorem State.withFans_now (f : Vector Fan 2 → Vector Fan 2) (s : State) : (s.withFans f).now = s.now := rfl
@[simp] theorem State.withFans_mdc (f : Vector Fan 2 → Vector Fan 2) (s : State) : (s.withFans f).mdc = s.mdc := rfl
@[simp] theorem State.withFans_lst (f : Vector Fan 2 → Vector Fan 2) (s : State) : (s.withFans f).lst = s.lst := rfl
@[simp] theorem State.withFans_msu (f : Vector Fan 2 → Vector Fan 2) (s : State) : (s.withFans f).msu = s.msu := rfl
@[simp] theorem State.withFans_csu (f : Vector Fan 2 → Vector Fan 2) (s : State) : (s.withFans f).csu = s.csu := rfl
@[simp] theorem State.withFans_plu (f : Vector Fan 2 → Vector Fan 2) (s : State) : (s.withFans f).plu = s.plu := rfl
@[simp] theorem State.withFans_znm (f : Vector Fan 2 → Vector Fan 2) (s : State) : (s.withFans f).znm = s.znm := rfl
@[simp] theorem State.withFans_srm (f : Vector Fan 2 → Vector Fan 2) (s : State) : (s.withFans f).srm = s.srm := rfl
@[simp] theorem State.withFans_alc (f : Vector Fan 2 → Vector Fan 2) (s : State) : (s.withFans f).alc = s.alc := rfl
@[simp] theorem State.withFans_clu (f : Vector Fan 2 → Vector Fan 2) (s : State) : (s.withFans f).clu = s.clu := rfl
@[simp] theorem State.withFans_fnc (f : Vector Fan 2 → Vector Fan 2) (s : State) : (s.withFans f).fnc = { s.fnc with fans := f s.fnc.fans } := rfl
@[simp] theorem State.withFans_slk (f : Vector Fan 2 → Vector Fan 2) (s : State) : (s.withFans f).slk = s.slk := rfl
@[simp] theorem State.withFans_choices (f : Vector Fan 2 → Vector Fan 2) (s : State) : (s.withFans f).choices = s.choices := rfl
@[simp] theorem State.withFans_pending (f : Vector Fan 2 → Vector Fan 2) (s : State) : (s.withFans f).pending = s.pending := rfl

@[simp] theorem State.withPlu_now (f : Plu → Plu) (s : State) : (s.withPlu f).now = s.now := rfl
@[simp] theorem State.withPlu_mdc (f : Plu → Plu) (s : State) : (s.withPlu f).mdc = s.mdc := rfl
@[simp] theorem State.withPlu_lst (f : Plu → Plu) (s : State) : (s.withPlu f).lst = s.lst := rfl
@[simp] theorem State.withPlu_msu (f : Plu → Plu) (s : State) : (s.withPlu f).msu = s.msu := rfl
@[simp] theorem State.withPlu_csu (f : Plu → Plu) (s : State) : (s.withPlu f).csu = s.csu := rfl
@[simp] theorem State.withPlu_plu (f : Plu → Plu) (s : State) : (s.withPlu f).plu = f s.plu := rfl
@[simp] theorem State.withPlu_znm (f : Plu → Plu) (s : State) : (s.withPlu f).znm = s.znm := rfl
@[simp] theorem State.withPlu_srm (f : Plu → Plu) (s : State) : (s.withPlu f).srm = s.srm := rfl
@[simp] theorem State.withPlu_alc (f : Plu → Plu) (s : State) : (s.withPlu f).alc = s.alc := rfl
@[simp] theorem State.withPlu_clu (f : Plu → Plu) (s : State) : (s.withPlu f).clu = s.clu := rfl
@[simp] theorem State.withPlu_fnc (f : Plu → Plu) (s : State) : (s.withPlu f).fnc = s.fnc := rfl
@[simp] theorem State.withPlu_slk (f : Plu → Plu) (s : State) : (s.withPlu f).slk = s.slk := rfl
@[simp] theorem State.withPlu_choices (f : Plu → Plu) (s : State) : (s.withPlu f).choices = s.choices := rfl
@[simp] theorem State.withPlu_pending (f : Plu → Plu) (s : State) : (s.withPlu f).pending = s.pending := rfl

@[simp] theorem State.withMsu_now (f : Msu → Msu) (s : State) : (s.withMsu f).now = s.now := rfl
@[simp] theorem State.withMsu_mdc (f : Msu → Msu) (s : State) : (s.withMsu f).mdc = s.mdc := rfl
@[simp] theorem State.withMsu_lst (f : Msu → Msu) (s : State) : (s.withMsu f).lst = s.lst := rfl
@[simp] theorem State.withMsu_msu (f : Msu → Msu) (s : State) : (s.withMsu f).msu = f s.msu := rfl
@[simp] theorem State.withMsu_csu (f : Msu → Msu) (s : State) : (s.withMsu f).csu = s.csu := rfl
@[simp] theorem State.withMsu_plu (f : Msu → Msu) (s : State) : (s.withMsu f).plu = s.plu := rfl
@[simp] theorem State.withMsu_znm (f : Msu → Msu) (s : State) : (s.withMsu f).znm = s.znm := rfl
@[simp] theorem State.withMsu_srm (f : Msu → Msu) (s : State) : (s.withMsu f).srm = s.srm := rfl
@[simp] theorem State.withMsu_alc (f : Msu → Msu) (s : State) : (s.withMsu f).alc = s.alc := rfl
@[simp] theorem State.withMsu_clu (f : Msu → Msu) (s : State) : (s.withMsu f).clu = s.clu := rfl
@[simp] theorem State.withMsu_fnc (f : Msu → Msu) (s : State) : (s.withMsu f).fnc = s.fnc := rfl
@[simp] theorem State.withMsu_slk (f : Msu → Msu) (s : State) : (s.withMsu f).slk = s.slk := rfl
@[simp] theorem State.withMsu_choices (f : Msu → Msu) (s : State) : (s.withMsu f).choices = s.choices := rfl
@[simp] theorem State.withMsu_pending (f : Msu → Msu) (s : State) : (s.withMsu f).pending = s.pending := rfl

@[simp] theorem State.setChannel_now (c : Fin 16) (r : Channel) (s : State) : (s.setChannel c r).now = s.now := rfl
@[simp] theorem State.setChannel_mdc (c : Fin 16) (r : Channel) (s : State) : (s.setChannel c r).mdc = s.mdc := rfl
@[simp] theorem State.setChannel_lst (c : Fin 16) (r : Channel) (s : State) : (s.setChannel c r).lst = s.lst := rfl
@[simp] theorem State.setChannel_msu (c : Fin 16) (r : Channel) (s : State) : (s.setChannel c r).msu = { s.msu with channels := s.msu.channels.set c r } := rfl
@[simp] theorem State.setChannel_csu (c : Fin 16) (r : Channel) (s : State) : (s.setChannel c r).csu = s.csu := rfl
@[simp] theorem State.setChannel_plu (c : Fin 16) (r : Channel) (s : State) : (s.setChannel c r).plu = s.plu := rfl
@[simp] theorem State.setChannel_znm (c : Fin 16) (r : Channel) (s : State) : (s.setChannel c r).znm = s.znm := rfl
@[simp] theorem State.setChannel_srm (c : Fin 16) (r : Channel) (s : State) : (s.setChannel c r).srm = s.srm := rfl
@[simp] theorem State.setChannel_alc (c : Fin 16) (r : Channel) (s : State) : (s.setChannel c r).alc = s.alc := rfl
@[simp] theorem State.setChannel_clu (c : Fin 16) (r : Channel) (s : State) : (s.setChannel c r).clu = s.clu := rfl
@[simp] theorem State.setChannel_fnc (c : Fin 16) (r : Channel) (s : State) : (s.setChannel c r).fnc = s.fnc := rfl
@[simp] theorem State.setChannel_slk (c : Fin 16) (r : Channel) (s : State) : (s.setChannel c r).slk = s.slk := rfl
@[simp] theorem State.setChannel_choices (c : Fin 16) (r : Channel) (s : State) : (s.setChannel c r).choices = s.choices := rfl
@[simp] theorem State.setChannel_pending (c : Fin 16) (r : Channel) (s : State) : (s.setChannel c r).pending = s.pending := rfl

@[simp] theorem State.setClaim_now (k : Claim) (s : State) : (s.setClaim k).now = s.now := rfl
@[simp] theorem State.setClaim_mdc (k : Claim) (s : State) : (s.setClaim k).mdc = s.mdc := rfl
@[simp] theorem State.setClaim_lst (k : Claim) (s : State) : (s.setClaim k).lst = s.lst := rfl
@[simp] theorem State.setClaim_msu (k : Claim) (s : State) : (s.setClaim k).msu = { s.msu with claim := k } := rfl
@[simp] theorem State.setClaim_csu (k : Claim) (s : State) : (s.setClaim k).csu = s.csu := rfl
@[simp] theorem State.setClaim_plu (k : Claim) (s : State) : (s.setClaim k).plu = s.plu := rfl
@[simp] theorem State.setClaim_znm (k : Claim) (s : State) : (s.setClaim k).znm = s.znm := rfl
@[simp] theorem State.setClaim_srm (k : Claim) (s : State) : (s.setClaim k).srm = s.srm := rfl
@[simp] theorem State.setClaim_alc (k : Claim) (s : State) : (s.setClaim k).alc = s.alc := rfl
@[simp] theorem State.setClaim_clu (k : Claim) (s : State) : (s.setClaim k).clu = s.clu := rfl
@[simp] theorem State.setClaim_fnc (k : Claim) (s : State) : (s.setClaim k).fnc = s.fnc := rfl
@[simp] theorem State.setClaim_slk (k : Claim) (s : State) : (s.setClaim k).slk = s.slk := rfl
@[simp] theorem State.setClaim_choices (k : Claim) (s : State) : (s.setClaim k).choices = s.choices := rfl
@[simp] theorem State.setClaim_pending (k : Claim) (s : State) : (s.setClaim k).pending = s.pending := rfl

@[simp] theorem State.withCsu_now (f : Csu → Csu) (s : State) : (s.withCsu f).now = s.now := rfl
@[simp] theorem State.withCsu_mdc (f : Csu → Csu) (s : State) : (s.withCsu f).mdc = s.mdc := rfl
@[simp] theorem State.withCsu_lst (f : Csu → Csu) (s : State) : (s.withCsu f).lst = s.lst := rfl
@[simp] theorem State.withCsu_msu (f : Csu → Csu) (s : State) : (s.withCsu f).msu = s.msu := rfl
@[simp] theorem State.withCsu_csu (f : Csu → Csu) (s : State) : (s.withCsu f).csu = f s.csu := rfl
@[simp] theorem State.withCsu_plu (f : Csu → Csu) (s : State) : (s.withCsu f).plu = s.plu := rfl
@[simp] theorem State.withCsu_znm (f : Csu → Csu) (s : State) : (s.withCsu f).znm = s.znm := rfl
@[simp] theorem State.withCsu_srm (f : Csu → Csu) (s : State) : (s.withCsu f).srm = s.srm := rfl
@[simp] theorem State.withCsu_alc (f : Csu → Csu) (s : State) : (s.withCsu f).alc = s.alc := rfl
@[simp] theorem State.withCsu_clu (f : Csu → Csu) (s : State) : (s.withCsu f).clu = s.clu := rfl
@[simp] theorem State.withCsu_fnc (f : Csu → Csu) (s : State) : (s.withCsu f).fnc = s.fnc := rfl
@[simp] theorem State.withCsu_slk (f : Csu → Csu) (s : State) : (s.withCsu f).slk = s.slk := rfl
@[simp] theorem State.withCsu_choices (f : Csu → Csu) (s : State) : (s.withCsu f).choices = s.choices := rfl
@[simp] theorem State.withCsu_pending (f : Csu → Csu) (s : State) : (s.withCsu f).pending = s.pending := rfl

@[simp] theorem State.setElectrode_now (i : Fin 8) (e : Electrode) (s : State) : (s.setElectrode i e).now = s.now := rfl
@[simp] theorem State.setElectrode_mdc (i : Fin 8) (e : Electrode) (s : State) : (s.setElectrode i e).mdc = s.mdc := rfl
@[simp] theorem State.setElectrode_lst (i : Fin 8) (e : Electrode) (s : State) : (s.setElectrode i e).lst = s.lst := rfl
@[simp] theorem State.setElectrode_msu (i : Fin 8) (e : Electrode) (s : State) : (s.setElectrode i e).msu = s.msu := rfl
@[simp] theorem State.setElectrode_csu (i : Fin 8) (e : Electrode) (s : State) : (s.setElectrode i e).csu = { s.csu with electrodes := s.csu.electrodes.set i e } := rfl
@[simp] theorem State.setElectrode_plu (i : Fin 8) (e : Electrode) (s : State) : (s.setElectrode i e).plu = s.plu := rfl
@[simp] theorem State.setElectrode_znm (i : Fin 8) (e : Electrode) (s : State) : (s.setElectrode i e).znm = s.znm := rfl
@[simp] theorem State.setElectrode_srm (i : Fin 8) (e : Electrode) (s : State) : (s.setElectrode i e).srm = s.srm := rfl
@[simp] theorem State.setElectrode_alc (i : Fin 8) (e : Electrode) (s : State) : (s.setElectrode i e).alc = s.alc := rfl
@[simp] theorem State.setElectrode_clu (i : Fin 8) (e : Electrode) (s : State) : (s.setElectrode i e).clu = s.clu := rfl
@[simp] theorem State.setElectrode_fnc (i : Fin 8) (e : Electrode) (s : State) : (s.setElectrode i e).fnc = s.fnc := rfl
@[simp] theorem State.setElectrode_slk (i : Fin 8) (e : Electrode) (s : State) : (s.setElectrode i e).slk = s.slk := rfl
@[simp] theorem State.setElectrode_choices (i : Fin 8) (e : Electrode) (s : State) : (s.setElectrode i e).choices = s.choices := rfl
@[simp] theorem State.setElectrode_pending (i : Fin 8) (e : Electrode) (s : State) : (s.setElectrode i e).pending = s.pending := rfl

@[simp] theorem State.setGroup_now (g : Fin 3) (r : Group) (s : State) : (s.setGroup g r).now = s.now := rfl
@[simp] theorem State.setGroup_mdc (g : Fin 3) (r : Group) (s : State) : (s.setGroup g r).mdc = s.mdc := rfl
@[simp] theorem State.setGroup_lst (g : Fin 3) (r : Group) (s : State) : (s.setGroup g r).lst = s.lst := rfl
@[simp] theorem State.setGroup_msu (g : Fin 3) (r : Group) (s : State) : (s.setGroup g r).msu = s.msu := rfl
@[simp] theorem State.setGroup_csu (g : Fin 3) (r : Group) (s : State) : (s.setGroup g r).csu = { s.csu with groups := s.csu.groups.set g r } := rfl
@[simp] theorem State.setGroup_plu (g : Fin 3) (r : Group) (s : State) : (s.setGroup g r).plu = s.plu := rfl
@[simp] theorem State.setGroup_znm (g : Fin 3) (r : Group) (s : State) : (s.setGroup g r).znm = s.znm := rfl
@[simp] theorem State.setGroup_srm (g : Fin 3) (r : Group) (s : State) : (s.setGroup g r).srm = s.srm := rfl
@[simp] theorem State.setGroup_alc (g : Fin 3) (r : Group) (s : State) : (s.setGroup g r).alc = s.alc := rfl
@[simp] theorem State.setGroup_clu (g : Fin 3) (r : Group) (s : State) : (s.setGroup g r).clu = s.clu := rfl
@[simp] theorem State.setGroup_fnc (g : Fin 3) (r : Group) (s : State) : (s.setGroup g r).fnc = s.fnc := rfl
@[simp] theorem State.setGroup_slk (g : Fin 3) (r : Group) (s : State) : (s.setGroup g r).slk = s.slk := rfl
@[simp] theorem State.setGroup_choices (g : Fin 3) (r : Group) (s : State) : (s.setGroup g r).choices = s.choices := rfl
@[simp] theorem State.setGroup_pending (g : Fin 3) (r : Group) (s : State) : (s.setGroup g r).pending = s.pending := rfl

@[simp] theorem State.withZnm_now (f : Znm → Znm) (s : State) : (s.withZnm f).now = s.now := rfl
@[simp] theorem State.withZnm_mdc (f : Znm → Znm) (s : State) : (s.withZnm f).mdc = s.mdc := rfl
@[simp] theorem State.withZnm_lst (f : Znm → Znm) (s : State) : (s.withZnm f).lst = s.lst := rfl
@[simp] theorem State.withZnm_msu (f : Znm → Znm) (s : State) : (s.withZnm f).msu = s.msu := rfl
@[simp] theorem State.withZnm_csu (f : Znm → Znm) (s : State) : (s.withZnm f).csu = s.csu := rfl
@[simp] theorem State.withZnm_plu (f : Znm → Znm) (s : State) : (s.withZnm f).plu = s.plu := rfl
@[simp] theorem State.withZnm_znm (f : Znm → Znm) (s : State) : (s.withZnm f).znm = f s.znm := rfl
@[simp] theorem State.withZnm_srm (f : Znm → Znm) (s : State) : (s.withZnm f).srm = s.srm := rfl
@[simp] theorem State.withZnm_alc (f : Znm → Znm) (s : State) : (s.withZnm f).alc = s.alc := rfl
@[simp] theorem State.withZnm_clu (f : Znm → Znm) (s : State) : (s.withZnm f).clu = s.clu := rfl
@[simp] theorem State.withZnm_fnc (f : Znm → Znm) (s : State) : (s.withZnm f).fnc = s.fnc := rfl
@[simp] theorem State.withZnm_slk (f : Znm → Znm) (s : State) : (s.withZnm f).slk = s.slk := rfl
@[simp] theorem State.withZnm_choices (f : Znm → Znm) (s : State) : (s.withZnm f).choices = s.choices := rfl
@[simp] theorem State.withZnm_pending (f : Znm → Znm) (s : State) : (s.withZnm f).pending = s.pending := rfl

@[simp] theorem State.setZone_now (z : Fin 6) (r : Zone) (s : State) : (s.setZone z r).now = s.now := rfl
@[simp] theorem State.setZone_mdc (z : Fin 6) (r : Zone) (s : State) : (s.setZone z r).mdc = s.mdc := rfl
@[simp] theorem State.setZone_lst (z : Fin 6) (r : Zone) (s : State) : (s.setZone z r).lst = s.lst := rfl
@[simp] theorem State.setZone_msu (z : Fin 6) (r : Zone) (s : State) : (s.setZone z r).msu = s.msu := rfl
@[simp] theorem State.setZone_csu (z : Fin 6) (r : Zone) (s : State) : (s.setZone z r).csu = s.csu := rfl
@[simp] theorem State.setZone_plu (z : Fin 6) (r : Zone) (s : State) : (s.setZone z r).plu = s.plu := rfl
@[simp] theorem State.setZone_znm (z : Fin 6) (r : Zone) (s : State) : (s.setZone z r).znm = { s.znm with zones := s.znm.zones.set z r } := rfl
@[simp] theorem State.setZone_srm (z : Fin 6) (r : Zone) (s : State) : (s.setZone z r).srm = s.srm := rfl
@[simp] theorem State.setZone_alc (z : Fin 6) (r : Zone) (s : State) : (s.setZone z r).alc = s.alc := rfl
@[simp] theorem State.setZone_clu (z : Fin 6) (r : Zone) (s : State) : (s.setZone z r).clu = s.clu := rfl
@[simp] theorem State.setZone_fnc (z : Fin 6) (r : Zone) (s : State) : (s.setZone z r).fnc = s.fnc := rfl
@[simp] theorem State.setZone_slk (z : Fin 6) (r : Zone) (s : State) : (s.setZone z r).slk = s.slk := rfl
@[simp] theorem State.setZone_choices (z : Fin 6) (r : Zone) (s : State) : (s.setZone z r).choices = s.choices := rfl
@[simp] theorem State.setZone_pending (z : Fin 6) (r : Zone) (s : State) : (s.setZone z r).pending = s.pending := rfl

@[simp] theorem State.mapZones_now (f : Fin 6 → Zone → Zone) (s : State) : (s.mapZones f).now = s.now := rfl
@[simp] theorem State.mapZones_mdc (f : Fin 6 → Zone → Zone) (s : State) : (s.mapZones f).mdc = s.mdc := rfl
@[simp] theorem State.mapZones_lst (f : Fin 6 → Zone → Zone) (s : State) : (s.mapZones f).lst = s.lst := rfl
@[simp] theorem State.mapZones_msu (f : Fin 6 → Zone → Zone) (s : State) : (s.mapZones f).msu = s.msu := rfl
@[simp] theorem State.mapZones_csu (f : Fin 6 → Zone → Zone) (s : State) : (s.mapZones f).csu = s.csu := rfl
@[simp] theorem State.mapZones_plu (f : Fin 6 → Zone → Zone) (s : State) : (s.mapZones f).plu = s.plu := rfl
@[simp] theorem State.mapZones_znm (f : Fin 6 → Zone → Zone) (s : State) : (s.mapZones f).znm = { s.znm with zones := tabulate fun z => f z (s.znm.zones.get z) } := rfl
@[simp] theorem State.mapZones_srm (f : Fin 6 → Zone → Zone) (s : State) : (s.mapZones f).srm = s.srm := rfl
@[simp] theorem State.mapZones_alc (f : Fin 6 → Zone → Zone) (s : State) : (s.mapZones f).alc = s.alc := rfl
@[simp] theorem State.mapZones_clu (f : Fin 6 → Zone → Zone) (s : State) : (s.mapZones f).clu = s.clu := rfl
@[simp] theorem State.mapZones_fnc (f : Fin 6 → Zone → Zone) (s : State) : (s.mapZones f).fnc = s.fnc := rfl
@[simp] theorem State.mapZones_slk (f : Fin 6 → Zone → Zone) (s : State) : (s.mapZones f).slk = s.slk := rfl
@[simp] theorem State.mapZones_choices (f : Fin 6 → Zone → Zone) (s : State) : (s.mapZones f).choices = s.choices := rfl
@[simp] theorem State.mapZones_pending (f : Fin 6 → Zone → Zone) (s : State) : (s.mapZones f).pending = s.pending := rfl

@[simp] theorem State.withSrm_now (f : Srm → Srm) (s : State) : (s.withSrm f).now = s.now := rfl
@[simp] theorem State.withSrm_mdc (f : Srm → Srm) (s : State) : (s.withSrm f).mdc = s.mdc := rfl
@[simp] theorem State.withSrm_lst (f : Srm → Srm) (s : State) : (s.withSrm f).lst = s.lst := rfl
@[simp] theorem State.withSrm_msu (f : Srm → Srm) (s : State) : (s.withSrm f).msu = s.msu := rfl
@[simp] theorem State.withSrm_csu (f : Srm → Srm) (s : State) : (s.withSrm f).csu = s.csu := rfl
@[simp] theorem State.withSrm_plu (f : Srm → Srm) (s : State) : (s.withSrm f).plu = s.plu := rfl
@[simp] theorem State.withSrm_znm (f : Srm → Srm) (s : State) : (s.withSrm f).znm = s.znm := rfl
@[simp] theorem State.withSrm_srm (f : Srm → Srm) (s : State) : (s.withSrm f).srm = f s.srm := rfl
@[simp] theorem State.withSrm_alc (f : Srm → Srm) (s : State) : (s.withSrm f).alc = s.alc := rfl
@[simp] theorem State.withSrm_clu (f : Srm → Srm) (s : State) : (s.withSrm f).clu = s.clu := rfl
@[simp] theorem State.withSrm_fnc (f : Srm → Srm) (s : State) : (s.withSrm f).fnc = s.fnc := rfl
@[simp] theorem State.withSrm_slk (f : Srm → Srm) (s : State) : (s.withSrm f).slk = s.slk := rfl
@[simp] theorem State.withSrm_choices (f : Srm → Srm) (s : State) : (s.withSrm f).choices = s.choices := rfl
@[simp] theorem State.withSrm_pending (f : Srm → Srm) (s : State) : (s.withSrm f).pending = s.pending := rfl

@[simp] theorem State.setMode_now (m : Mode) (s : State) : (s.setMode m).now = s.now := rfl
@[simp] theorem State.setMode_mdc (m : Mode) (s : State) : (s.setMode m).mdc = { s.mdc with mode := m } := rfl
@[simp] theorem State.setMode_lst (m : Mode) (s : State) : (s.setMode m).lst = s.lst := rfl
@[simp] theorem State.setMode_msu (m : Mode) (s : State) : (s.setMode m).msu = s.msu := rfl
@[simp] theorem State.setMode_csu (m : Mode) (s : State) : (s.setMode m).csu = s.csu := rfl
@[simp] theorem State.setMode_plu (m : Mode) (s : State) : (s.setMode m).plu = s.plu := rfl
@[simp] theorem State.setMode_znm (m : Mode) (s : State) : (s.setMode m).znm = s.znm := rfl
@[simp] theorem State.setMode_srm (m : Mode) (s : State) : (s.setMode m).srm = s.srm := rfl
@[simp] theorem State.setMode_alc (m : Mode) (s : State) : (s.setMode m).alc = s.alc := rfl
@[simp] theorem State.setMode_clu (m : Mode) (s : State) : (s.setMode m).clu = s.clu := rfl
@[simp] theorem State.setMode_fnc (m : Mode) (s : State) : (s.setMode m).fnc = s.fnc := rfl
@[simp] theorem State.setMode_slk (m : Mode) (s : State) : (s.setMode m).slk = s.slk := rfl
@[simp] theorem State.setMode_choices (m : Mode) (s : State) : (s.setMode m).choices = s.choices := rfl
@[simp] theorem State.setMode_pending (m : Mode) (s : State) : (s.setMode m).pending = s.pending := rfl

@[simp] theorem State.setGuard_now (v : Bool) (s : State) : (s.setGuard v).now = s.now := rfl
@[simp] theorem State.setGuard_mdc (v : Bool) (s : State) : (s.setGuard v).mdc = { s.mdc with guardClaim := v } := rfl
@[simp] theorem State.setGuard_lst (v : Bool) (s : State) : (s.setGuard v).lst = s.lst := rfl
@[simp] theorem State.setGuard_msu (v : Bool) (s : State) : (s.setGuard v).msu = s.msu := rfl
@[simp] theorem State.setGuard_csu (v : Bool) (s : State) : (s.setGuard v).csu = s.csu := rfl
@[simp] theorem State.setGuard_plu (v : Bool) (s : State) : (s.setGuard v).plu = s.plu := rfl
@[simp] theorem State.setGuard_znm (v : Bool) (s : State) : (s.setGuard v).znm = s.znm := rfl
@[simp] theorem State.setGuard_srm (v : Bool) (s : State) : (s.setGuard v).srm = s.srm := rfl
@[simp] theorem State.setGuard_alc (v : Bool) (s : State) : (s.setGuard v).alc = s.alc := rfl
@[simp] theorem State.setGuard_clu (v : Bool) (s : State) : (s.setGuard v).clu = s.clu := rfl
@[simp] theorem State.setGuard_fnc (v : Bool) (s : State) : (s.setGuard v).fnc = s.fnc := rfl
@[simp] theorem State.setGuard_slk (v : Bool) (s : State) : (s.setGuard v).slk = s.slk := rfl
@[simp] theorem State.setGuard_choices (v : Bool) (s : State) : (s.setGuard v).choices = s.choices := rfl
@[simp] theorem State.setGuard_pending (v : Bool) (s : State) : (s.setGuard v).pending = s.pending := rfl

@[simp] theorem State.withLst_now (f : Lst → Lst) (s : State) : (s.withLst f).now = s.now := rfl
@[simp] theorem State.withLst_mdc (f : Lst → Lst) (s : State) : (s.withLst f).mdc = s.mdc := rfl
@[simp] theorem State.withLst_lst (f : Lst → Lst) (s : State) : (s.withLst f).lst = f s.lst := rfl
@[simp] theorem State.withLst_msu (f : Lst → Lst) (s : State) : (s.withLst f).msu = s.msu := rfl
@[simp] theorem State.withLst_csu (f : Lst → Lst) (s : State) : (s.withLst f).csu = s.csu := rfl
@[simp] theorem State.withLst_plu (f : Lst → Lst) (s : State) : (s.withLst f).plu = s.plu := rfl
@[simp] theorem State.withLst_znm (f : Lst → Lst) (s : State) : (s.withLst f).znm = s.znm := rfl
@[simp] theorem State.withLst_srm (f : Lst → Lst) (s : State) : (s.withLst f).srm = s.srm := rfl
@[simp] theorem State.withLst_alc (f : Lst → Lst) (s : State) : (s.withLst f).alc = s.alc := rfl
@[simp] theorem State.withLst_clu (f : Lst → Lst) (s : State) : (s.withLst f).clu = s.clu := rfl
@[simp] theorem State.withLst_fnc (f : Lst → Lst) (s : State) : (s.withLst f).fnc = s.fnc := rfl
@[simp] theorem State.withLst_slk (f : Lst → Lst) (s : State) : (s.withLst f).slk = s.slk := rfl
@[simp] theorem State.withLst_choices (f : Lst → Lst) (s : State) : (s.withLst f).choices = s.choices := rfl
@[simp] theorem State.withLst_pending (f : Lst → Lst) (s : State) : (s.withLst f).pending = s.pending := rfl

@[simp] theorem State.withSlk_now (f : Slk → Slk) (s : State) : (s.withSlk f).now = s.now := rfl
@[simp] theorem State.withSlk_mdc (f : Slk → Slk) (s : State) : (s.withSlk f).mdc = s.mdc := rfl
@[simp] theorem State.withSlk_lst (f : Slk → Slk) (s : State) : (s.withSlk f).lst = s.lst := rfl
@[simp] theorem State.withSlk_msu (f : Slk → Slk) (s : State) : (s.withSlk f).msu = s.msu := rfl
@[simp] theorem State.withSlk_csu (f : Slk → Slk) (s : State) : (s.withSlk f).csu = s.csu := rfl
@[simp] theorem State.withSlk_plu (f : Slk → Slk) (s : State) : (s.withSlk f).plu = s.plu := rfl
@[simp] theorem State.withSlk_znm (f : Slk → Slk) (s : State) : (s.withSlk f).znm = s.znm := rfl
@[simp] theorem State.withSlk_srm (f : Slk → Slk) (s : State) : (s.withSlk f).srm = s.srm := rfl
@[simp] theorem State.withSlk_alc (f : Slk → Slk) (s : State) : (s.withSlk f).alc = s.alc := rfl
@[simp] theorem State.withSlk_clu (f : Slk → Slk) (s : State) : (s.withSlk f).clu = s.clu := rfl
@[simp] theorem State.withSlk_fnc (f : Slk → Slk) (s : State) : (s.withSlk f).fnc = s.fnc := rfl
@[simp] theorem State.withSlk_slk (f : Slk → Slk) (s : State) : (s.withSlk f).slk = f s.slk := rfl
@[simp] theorem State.withSlk_choices (f : Slk → Slk) (s : State) : (s.withSlk f).choices = s.choices := rfl
@[simp] theorem State.withSlk_pending (f : Slk → Slk) (s : State) : (s.withSlk f).pending = s.pending := rfl

@[simp] theorem State.withPending_now (q : List Instr) (s : State) : (s.withPending q).now = s.now := rfl
@[simp] theorem State.withPending_mdc (q : List Instr) (s : State) : (s.withPending q).mdc = s.mdc := rfl
@[simp] theorem State.withPending_lst (q : List Instr) (s : State) : (s.withPending q).lst = s.lst := rfl
@[simp] theorem State.withPending_msu (q : List Instr) (s : State) : (s.withPending q).msu = s.msu := rfl
@[simp] theorem State.withPending_csu (q : List Instr) (s : State) : (s.withPending q).csu = s.csu := rfl
@[simp] theorem State.withPending_plu (q : List Instr) (s : State) : (s.withPending q).plu = s.plu := rfl
@[simp] theorem State.withPending_znm (q : List Instr) (s : State) : (s.withPending q).znm = s.znm := rfl
@[simp] theorem State.withPending_srm (q : List Instr) (s : State) : (s.withPending q).srm = s.srm := rfl
@[simp] theorem State.withPending_alc (q : List Instr) (s : State) : (s.withPending q).alc = s.alc := rfl
@[simp] theorem State.withPending_clu (q : List Instr) (s : State) : (s.withPending q).clu = s.clu := rfl
@[simp] theorem State.withPending_fnc (q : List Instr) (s : State) : (s.withPending q).fnc = s.fnc := rfl
@[simp] theorem State.withPending_slk (q : List Instr) (s : State) : (s.withPending q).slk = s.slk := rfl
@[simp] theorem State.withPending_choices (q : List Instr) (s : State) : (s.withPending q).choices = s.choices := rfl
@[simp] theorem State.withPending_pending (q : List Instr) (s : State) : (s.withPending q).pending = q := rfl

end Sys2Proof.Machine
end

