-- ==== Sys2Proof/Laws/Arbiter.lean ====
section
/-! SUPPORT. What the shared operations of arbiter and grant table do, in the words that the statements use: a measurement scan
that takes the front end, the entry of a raised domain, the GRANT notice. -/

namespace Sys2Proof.Machine

/-- Disabled channels are passed over. -/
theorem nextConversion_passes_over (channels : Vector Channel 16) (now : Nat) (skipped l : List (Fin 16))
    (h : ∀ x ∈ skipped, (channels.get x).enabled = false) :
    nextConversion channels now (skipped ++ l) = nextConversion channels now l := by
  induction skipped with
  | nil => rfl
  | cons x k ih => simp [nextConversion, h x (by simp), ih fun y hy => h y (by simp [hy])]

/-- With none but disabled channels left, no conversion is in progress. -/
theorem nextConversion_of_disabled (channels : Vector Channel 16) (now : Nat) (l : List (Fin 16))
    (h : ∀ x ∈ l, (channels.get x).enabled = false) :
    nextConversion channels now l = { todo := [], current := none } := by
  simpa [nextConversion] using nextConversion_passes_over channels now l [] h

/-- The measurement scan that waits takes the front end with its first enabled channel. -/
theorem beginMeasurement_measures (s : State) (m : MeasScan) (skipped : List (Fin 16)) (c : Fin 16) (l : List (Fin 16))
    (scan : s.msu.scan = some m) (todo : m.todo = skipped ++ c :: l)
    (off : ∀ x ∈ skipped, (s.msu.channels.get x).enabled = false) (on : (s.msu.channels.get c).enabled = true) :
    beginMeasurement s = { s with msu := s.msu.measures s.now c l } := by
  have next := nextConversion_passes_over s.msu.channels s.now skipped (c :: l) off
  cases kind : (s.msu.channels.get c).kind <;>
    simp [beginMeasurement, advanceScan, State.withMsu, scan, todo, next, nextConversion, on, Msu.measures, kind,
      conversionTime, ms]

/-- A domain that wants more than its grant has its entry. -/
theorem syncQueue_queueWith (i : Fin 6) (s : State) (d : Domain) (slot : s.alc.domains.get i = some d) (on : d.permit = .on)
    (short : d.held < d.wanted) : syncQueue i s = s.setQueue (s.queueWith i d) := by
  by_cases h : s.alc.queue.any (·.slot == i) = true <;>
    simp [syncQueue, slot, on, short, State.queueWith, h, State.setQueue, State.nowMs]

/-- The notice of a posting for a declared domain. -/
theorem postGrant_grantNotice (reason : GrantReason) (i : Fin 6) (s : State) (d : Domain)
    (slot : s.alc.domains.get i = some d) :
    postGrant reason i s = s.post (s.grantNotice i d reason (s.alc.round.causesFor i reason)) := by
  simp only [postGrant, slot]
  rfl

end Sys2Proof.Machine
end

