-- ==== Sys2Proof/Laws/Notices.lean ====
section
/-! SUPPORT. The notice queue under a posting, and the relation `Keeps` that every owner and every event of the part stays
in: the clock does not go back, the Limit Store, the waiting commands, the awaited RESTART and the link but for its notices stay,
and the invariants of the notice queue and of the modes are kept. -/

namespace Sys2Proof.Machine

theorem sameKey_iff (m n : Notice) : m.sameKey n = true ↔ m.key = n.key := by
  simp [Notice.sameKey, Notice.key, Prod.ext_iff]

theorem map_key_replace (n : Notice) (l : List Notice) :
    (l.map fun m => if m.sameKey n then n else m).map Notice.key = l.map Notice.key := by
  rw [List.map_map]
  apply List.map_congr_left
  intro m _
  by_cases h : m.sameKey n = true
  · simp [h, (sameKey_iff m n).mp h]
  · simp [h]

/-- A posting keeps the queue within its bound and its keys distinct (R176). -/
theorem noticesOk_post (n : Notice) (k : Slk) (h : NoticesOk k.notices) : NoticesOk (k.post n).notices := by
  unfold Slk.post
  split
  · exact ⟨by simpa using h.1, by rw [map_key_replace]; exact h.2⟩
  · rename_i hn
    split
    · rename_i hl
      refine ⟨by simp [noticeCapacity] at hl ⊢; omega, ?_⟩
      simp only [List.map_append, List.map_cons, List.map_nil]
      refine List.Nodup.append h.2 (by simp) ?_
      simp only [List.disjoint_singleton]
      intro hm
      obtain ⟨m, hm, hk⟩ := List.mem_map.mp hm
      exact hn (List.any_eq_true.mpr ⟨m, hm, (sameKey_iff m n).mpr hk⟩)
    · exact h

/-- A posting changes the notices and the dropped flag only. -/
theorem slk_post_eq (n : Notice) (k : Slk) :
    k.post n = { k with notices := (k.post n).notices, dropped := (k.post n).dropped } := by
  unfold Slk.post
  split
  · rfl
  · split <;> rfl

/-- After a posting the notice waits where its key did or there was room, and is dropped otherwise (R176). -/
theorem post_waits_or_drops (n : Notice) (k : Slk) :
    if k.notices.length < 16 ∨ ∃ m ∈ k.notices, m.key = n.key then n ∈ (k.post n).notices else (k.post n).dropped = true := by
  have any : k.notices.any (·.sameKey n) = true ↔ ∃ m ∈ k.notices, m.key = n.key := by
    simp only [List.any_eq_true, sameKey_iff]
  unfold Slk.post
  split
  · next h =>
    split
    · next e =>
      obtain ⟨m, hm, e⟩ := List.any_eq_true.mp e
      exact List.mem_map.mpr ⟨m, hm, by simp [e]⟩
    · next e =>
      have room : k.notices.length < noticeCapacity := h.resolve_right fun w => e (any.mpr w)
      simp [room]
  · next h =>
    rw [not_or] at h
    have full : ¬k.notices.length < noticeCapacity := h.1
    rw [if_neg fun e => h.2 (any.mp e), if_neg full]

/-- A notice that waits stays when another key is posted. -/
theorem mem_post {n m : Notice} {k : Slk} (hk : m.key ≠ n.key) (h : n ∈ k.notices) : n ∈ (k.post m).notices := by
  have ne : n.sameKey m = false := by
    rw [Bool.eq_false_iff, Ne, sameKey_iff]
    exact fun e => hk e.symm
  unfold Slk.post
  split
  · exact List.mem_map.mpr ⟨n, h, by simp [ne]⟩
  · split
    · exact List.mem_append_left _ h
    · exact h

/-- The dropped flag stays set. -/
theorem dropped_post (n : Notice) {k : Slk} (h : k.dropped = true) : (k.post n).dropped = true := by
  unfold Slk.post
  split
  · exact h
  · split
    · exact h
    · rfl

/-- What every owner and every event keeps. -/
structure Keeps (s t : State) : Prop where
  now : s.now ≤ t.now
  lst : t.lst = s.lst
  pending : t.pending = s.pending
  awaited : t.mdc.restartAwaited = s.mdc.restartAwaited
  link : t.slk = { s.slk with notices := t.slk.notices, dropped := t.slk.dropped }
  notices : NoticesOk s.slk.notices → NoticesOk t.slk.notices
  modes : ModeOk s → ModeOk t

namespace Keeps

theorem refl (s : State) : Keeps s s := ⟨le_refl _, rfl, rfl, rfl, rfl, id, id⟩

theorem trans {s t u : State} (h : Keeps s t) (k : Keeps t u) : Keeps s u where
  now := le_trans h.now k.now
  lst := k.lst.trans h.lst
  pending := k.pending.trans h.pending
  awaited := k.awaited.trans h.awaited
  link := by rw [k.link, h.link]
  notices := k.notices ∘ h.notices
  modes := k.modes ∘ h.modes

/-- An update that touches neither the clock, nor the Limit Store, nor the link, nor the modes. -/
theorem same {a s t : State} (h : Keeps a s) (h1 : t.now = s.now) (h2 : t.lst = s.lst) (h3 : t.pending = s.pending)
    (h4 : t.mdc = s.mdc) (h5 : t.slk = s.slk) (h6 : t.srm.setup = s.srm.setup) : Keeps a t :=
  h.trans
    { now := h1 ▸ le_refl _, lst := h2, pending := h3, awaited := by rw [h4], link := by rw [h5],
      notices := by rw [h5]; exact id
      modes := by unfold ModeOk State.managed; rw [h4, h2, h6]; exact id }

variable {a s : State}

theorem post (h : Keeps a s) (n : Notice) : Keeps a (s.post n) :=
  h.trans
    { now := le_refl _, lst := rfl, pending := rfl, awaited := rfl, link := slk_post_eq n s.slk
      notices := noticesOk_post n s.slk, modes := id }

theorem detect (h : Keeps a s) (k : FaultKind) (x : Nat) : Keeps a (detect k x s) := by
  have h' : Keeps a { s with mdc := { s.mdc with faults := modifyRow s.mdc.faults k.index (·.record x) } } :=
    h.trans { now := le_refl _, lst := rfl, pending := rfl, awaited := rfl, link := rfl, notices := id, modes := id }
  unfold Machine.detect
  dsimp only
  split
  · exact h'.post _
  · exact h'

theorem reach (h : Keeps a s) (t : Nat) : Keeps a (s.reach t) :=
  h.trans
    { now := le_max_left _ _, lst := rfl, pending := rfl, awaited := rfl, link := rfl, notices := id, modes := id }

theorem elapse (h : Keeps a s) (t : Nat) : Keeps a (s.elapse t) :=
  h.trans
    { now := Nat.le_add_right _ _, lst := rfl, pending := rfl, awaited := rfl, link := rfl, notices := id, modes := id }

theorem foldl {β : Type} {f : State → β → State} (hf : ∀ s b, Keeps a s → Keeps a (f s b)) (l : List β)
    (h : Keeps a s) : Keeps a (l.foldl f s) := by
  induction l generalizing s with
  | nil => exact h
  | cons b l ih => exact ih (hf s b h)

end Keeps

end Sys2Proof.Machine
end

