-- ==== Sys2Proof/Laws/Blocks.lean ====
section
/-! SUPPORT. Every shared operation of the blocks stays in `Keeps`: one lemma per operation, in the operations' own order. -/

namespace Sys2Proof.Machine.Keeps

set_option linter.unusedTactic false
set_option linter.unreachableTactic false
set_option linter.unnecessarySeqFocus false

variable {a s : State}

theorem withSrm (h : Keeps a s) (f : Srm → Srm) (hf : s.srm.setup.isSome → (f s.srm).setup.isSome := by exact id) :
    Keeps a (s.withSrm f) :=
  h.trans
    { now := le_refl _, lst := rfl, pending := rfl, awaited := rfl, link := rfl, notices := id
      modes := fun m => ⟨m.1, fun k => ⟨(m.2.1 k).1, hf (m.2.1 k).2⟩, m.2.2⟩ }

theorem takeChoice (h : Keeps a s) : Keeps a s.takeChoice := h.same rfl rfl rfl rfl rfl rfl

theorem inFreeOrder {agent : Nat → State → State} (h : Keeps a s) (n : Nat)
    (hf : ∀ i s, Keeps a s → Keeps a (agent i s)) : Keeps a (Machine.inFreeOrder n agent s) :=
  foldl (fun s b h => hf b s h) _ h.takeChoice

theorem setLine (h : Keeps a s) (n : Fin 6) (l : Line) : Keeps a (Machine.setLine n l s) := by
  unfold Machine.setLine
  try dsimp only [refuse]
  (repeat' split) <;> (repeat first | with_reducible exact h | exact h.same rfl rfl rfl rfl rfl rfl |
      with_reducible apply Keeps.post)

theorem addCause (h : Keeps a s) (c : ClampCause) (n : Fin 6) : Keeps a (Machine.addCause c n s) := by
  unfold Machine.addCause
  try dsimp only [refuse]
  repeat first | with_reducible exact h | with_reducible apply Keeps.setLine

theorem withdrawCause (h : Keeps a s) (c : ClampCause) (n : Fin 6) : Keeps a (Machine.withdrawCause c n s) := by
  unfold Machine.withdrawCause
  try dsimp only [refuse]
  repeat first | with_reducible exact h | with_reducible apply Keeps.setLine

theorem addCauseTo (h : Keeps a s) (lines : List (Fin 6)) (c : ClampCause) : Keeps a (Machine.addCauseTo lines c s) := by
  unfold Machine.addCauseTo
  repeat first | with_reducible exact h | with_reducible apply Keeps.addCause | with_reducible apply Keeps.foldl |
      intro _ _ h

theorem withdrawCauseFrom (h : Keeps a s) (lines : List (Fin 6)) (c : ClampCause) :
    Keeps a (Machine.withdrawCauseFrom lines c s) := by
  unfold Machine.withdrawCauseFrom
  repeat first | with_reducible exact h | with_reducible apply Keeps.withdrawCause | with_reducible apply Keeps.foldl |
      intro _ _ h

theorem assignLine (h : Keeps a s) (n : Fin 6) (d : Option (Fin 6)) :
    Keeps a (Machine.assignLine n d s) := h.same rfl rfl rfl rfl rfl rfl

theorem restartLines (h : Keeps a s) : Keeps a (Machine.restartLines s) := h.same rfl rfl rfl rfl rfl rfl

theorem clampForce (h : Keeps a s) (mask : Byte) (action : Option ClampAction) :
    Keeps a (Machine.clampForce mask action s).1 := by
  unfold Machine.clampForce
  try dsimp only [refuse]
  (repeat' split) <;> (repeat first | with_reducible exact h | with_reducible apply Keeps.withdrawCauseFrom |
      with_reducible apply Keeps.addCauseTo)

theorem lineSetup (h : Keeps a s) (f : LineFields) : Keeps a (Machine.lineSetup f s).1 := by
  unfold Machine.lineSetup
  try dsimp only [refuse]
  (repeat' split) <;> (repeat first | with_reducible exact h | with_reducible apply Keeps.setLine)

theorem setDomain (h : Keeps a s) (i : Fin 6) (d : Option Domain) :
    Keeps a (s.setDomain i d) := h.same rfl rfl rfl rfl rfl rfl

theorem postGrant (h : Keeps a s) (reason : GrantReason) (i : Fin 6) : Keeps a (Machine.postGrant reason i s) := by
  unfold Machine.postGrant
  (repeat' split) <;> (repeat first | with_reducible exact h | with_reducible apply Keeps.post)

theorem setQueue (h : Keeps a s) (q : List QueueEntry) : Keeps a (s.setQueue q) := h.same rfl rfl rfl rfl rfl rfl

theorem syncQueue (h : Keeps a s) (i : Fin 6) : Keeps a (Machine.syncQueue i s) := by
  unfold Machine.syncQueue
  (repeat' split) <;> (repeat first | with_reducible exact h | with_reducible apply Keeps.setQueue)

theorem reserve (h : Keeps a s) (amount : Nat) (holder : Option (Fin 6)) :
    Keeps a (s.reserve amount holder) := h.same rfl rfl rfl rfl rfl rfl

theorem adjustReservation (h : Keeps a s) (i : Fin 6) : Keeps a (Machine.adjustReservation i s) := by
  unfold Machine.adjustReservation
  (repeat' split) <;> (repeat first | with_reducible exact h | with_reducible apply Keeps.reserve)

theorem setB (h : Keeps a s) (b : Option Nat) : Keeps a (s.setB b) := h.same rfl rfl rfl rfl rfl rfl

theorem joinRound (h : Keeps a s) (c : RoundCause) (lowersNone : Bool) : Keeps a (Machine.joinRound c lowersNone s) := by
  unfold Machine.joinRound
  (repeat' split) <;> (repeat first | with_reducible exact h | exact h.same rfl rfl rfl rfl rfl rfl)

theorem listAffected (h : Keeps a s) (i : Fin 6) (old : Nat) :
    Keeps a (Machine.listAffected i old s) := h.same rfl rfl rfl rfl rfl rfl

theorem lowerOne (h : Keeps a s) (c : RoundCause) (target : Nat) (i : Fin 6) : Keeps a (Machine.lowerOne c target i s) := by
  unfold Machine.lowerOne
  (repeat' split) <;> (repeat first | with_reducible exact h | with_reducible apply Keeps.listAffected |
      with_reducible apply Keeps.syncQueue | with_reducible apply Keeps.postGrant | with_reducible apply Keeps.setDomain)

theorem lowerAll (h : Keeps a s) (c : RoundCause) (order : List (Fin 6)) (targets : Vector Nat 6) :
    Keeps a (Machine.lowerAll c order targets s) :=
  foldl (fun _ _ h => h.lowerOne _ _ _) _ (h.joinRound _ _)

theorem reduce (h : Keeps a s) (c : RoundCause) : Keeps a (Machine.reduce c s) := by
  unfold Machine.reduce
  try dsimp only [refuse]
  repeat first | with_reducible exact h | with_reducible apply Keeps.lowerAll | with_reducible apply Keeps.reserve

theorem raiseGrant (h : Keeps a s) (amount : Nat) (i : Fin 6) : Keeps a (Machine.raiseGrant amount i s) := by
  unfold Machine.raiseGrant
  (repeat' split) <;> (repeat first | with_reducible exact h | with_reducible apply Keeps.syncQueue |
      with_reducible apply Keeps.postGrant | with_reducible apply Keeps.setDomain)

theorem serveHeads (h : Keeps a s) (n : Nat) : Keeps a (Machine.serveHeads n s) := by
  induction n generalizing s with
  | zero => exact h
  | succ n ih =>
    unfold Machine.serveHeads
    dsimp only
    (repeat' split) <;> (repeat first | exact h | with_reducible apply ih | with_reducible apply Keeps.raiseGrant)

theorem preemptFor (h : Keeps a s) (i : Fin 6) (d : Domain) : Keeps a (Machine.preemptFor i d s) := by
  unfold Machine.preemptFor
  try dsimp only [refuse]
  (repeat' split) <;> (repeat first | with_reducible exact h | with_reducible apply Keeps.lowerAll |
      with_reducible apply Keeps.joinRound | with_reducible apply Keeps.reserve)

theorem weighPreemption (h : Keeps a s) : Keeps a (Machine.weighPreemption s) := by
  unfold Machine.weighPreemption
  (repeat' split) <;> (repeat first | with_reducible exact h | with_reducible apply Keeps.preemptFor)

theorem serve (h : Keeps a s) : Keeps a (Machine.serve s) := by
  unfold Machine.serve
  (repeat' split) <;> (repeat first | with_reducible exact h | with_reducible apply Keeps.weighPreemption |
      with_reducible apply Keeps.serveHeads)

theorem settleBudget (h : Keeps a s) (c : RoundCause) : Keeps a (Machine.settleBudget c s) := by
  unfold Machine.settleBudget
  (repeat' split) <;> (repeat first | with_reducible exact h | with_reducible apply Keeps.serve |
      with_reducible apply Keeps.reduce)

theorem recompute (h : Keeps a s) (c : RoundCause) : Keeps a (Machine.recompute c s) := by
  unfold Machine.recompute
  (repeat' split) <;> (repeat first | with_reducible exact h | with_reducible apply Keeps.settleBudget |
      with_reducible apply Keeps.setB)

theorem reformCeiling (h : Keeps a s) (i : Fin 6) : Keeps a (Machine.reformCeiling i s) := by
  unfold Machine.reformCeiling
  try dsimp only [refuse]
  (repeat' split) <;> (repeat first | with_reducible exact h | with_reducible apply Keeps.adjustReservation |
      with_reducible apply Keeps.syncQueue | with_reducible apply Keeps.postGrant | with_reducible apply Keeps.setDomain)

theorem reformCeilings (h : Keeps a s) : Keeps a (Machine.reformCeilings s) := by
  unfold Machine.reformCeilings
  repeat first | with_reducible exact h | with_reducible apply Keeps.reformCeiling | with_reducible apply Keeps.foldl |
      intro _ _ h

theorem recomputeCeilings (h : Keeps a s) (c : RoundCause) : Keeps a (Machine.recomputeCeilings c s) := by
  unfold Machine.recomputeCeilings
  try dsimp only
  split
  · exact (h.reformCeilings.recompute c).serve
  · exact h.reformCeilings.recompute c

theorem postRound (h : Keeps a s) : Keeps a (Machine.postRound s) := by
  unfold Machine.postRound
  repeat first | with_reducible exact h | with_reducible apply Keeps.post

theorem clearRound (h : Keeps a s) : Keeps a (Machine.clearRound s) := h.same rfl rfl rfl rfl rfl rfl

theorem grantReservation (h : Keeps a s) : Keeps a (Machine.grantReservation s) := by
  unfold Machine.grantReservation
  (repeat' split) <;> (repeat first | with_reducible exact h | with_reducible apply Keeps.raiseGrant |
      with_reducible apply Keeps.reserve)

theorem closeRound (h : Keeps a s) : Keeps a (Machine.closeRound s) := by
  unfold Machine.closeRound
  repeat first | with_reducible exact h | with_reducible apply Keeps.grantReservation |
      with_reducible apply Keeps.clearRound | with_reducible apply Keeps.postRound | with_reducible apply Keeps.serve

theorem closeIfDone (h : Keeps a s) : Keeps a (Machine.closeIfDone s) := by
  unfold Machine.closeIfDone
  (repeat' split) <;> (repeat first | with_reducible exact h | with_reducible apply Keeps.closeRound)

theorem withdrawOverdue (h : Keeps a s) (d : Domain) : Keeps a (Machine.withdrawOverdue d s) := by
  unfold Machine.withdrawOverdue
  (repeat' split) <;> (repeat first | with_reducible exact h | with_reducible apply Keeps.withdrawCause)

theorem settleDomain (h : Keeps a s) (i : Fin 6) (d : Domain) : Keeps a (Machine.settleDomain i d s) := by
  unfold Machine.settleDomain
  repeat first | with_reducible exact h | with_reducible apply Keeps.withdrawOverdue |
      with_reducible apply Keeps.postGrant | with_reducible apply Keeps.setDomain

theorem withBudget (h : Keeps a s) (f : Budget → Budget) : Keeps a (s.withBudget f) := h.same rfl rfl rfl rfl rfl rfl

theorem handReduction (h : Keeps a s) (z : Fin 6) (r : Nat) : Keeps a (Machine.handReduction z r s) := by
  unfold Machine.handReduction
  repeat first | with_reducible exact h | with_reducible apply Keeps.withBudget | with_reducible apply Keeps.recompute

theorem handSeverity (h : Keeps a s) (z : Fin 6) (v : Bool) : Keeps a (Machine.handSeverity z v s) := by
  unfold Machine.handSeverity
  repeat first | with_reducible exact h | with_reducible apply Keeps.withBudget | with_reducible apply Keeps.recompute

theorem handDerate (h : Keeps a s) (n : Fin 2) (v : Bool) : Keeps a (Machine.handDerate n v s) := by
  unfold Machine.handDerate
  repeat first | with_reducible exact h | with_reducible apply Keeps.withBudget | with_reducible apply Keeps.recompute

theorem handSource (h : Keeps a s) : Keeps a (Machine.handSource s) := by
  unfold Machine.handSource
  try dsimp only [refuse]
  (repeat' split) <;> (repeat first | with_reducible exact h | with_reducible apply Keeps.withBudget |
      with_reducible apply Keeps.recomputeCeilings | with_reducible apply Keeps.recompute)

theorem takeNewSet (h : Keeps a s) (c : RoundCause) : Keeps a (Machine.takeNewSet c s) := by
  unfold Machine.takeNewSet
  try dsimp only [refuse]
  repeat first | with_reducible exact h | with_reducible apply Keeps.withBudget |
      with_reducible apply Keeps.recomputeCeilings

theorem assignIfNamed (h : Keeps a s) (line : Option (Fin 6)) (d : Option (Fin 6)) :
    Keeps a (Machine.assignIfNamed line d s) := by
  unfold Machine.assignIfNamed
  (repeat' split) <;> (repeat first | with_reducible exact h | with_reducible apply Keeps.assignLine)

theorem enterDomain (h : Keeps a s) (i : Fin 6) (d : Domain) : Keeps a (Machine.enterDomain i d s) := by
  unfold Machine.enterDomain
  (repeat' split) <;> (repeat first | with_reducible exact h | with_reducible apply Keeps.assignIfNamed |
      with_reducible apply Keeps.recompute | with_reducible apply Keeps.postGrant | with_reducible apply Keeps.setDomain)

theorem domainDeclare (h : Keeps a s) (f : DomainFields) : Keeps a (Machine.domainDeclare f s).1 := by
  unfold Machine.domainDeclare
  try dsimp only [refuse]
  (repeat' split) <;> (repeat first | with_reducible exact h | with_reducible apply Keeps.enterDomain)

theorem unlist (h : Keeps a s) (i : Fin 6) : Keeps a (Machine.unlist i s) := h.same rfl rfl rfl rfl rfl rfl

theorem emptySlot (h : Keeps a s) (i : Fin 6) (d : Domain) : Keeps a (Machine.emptySlot i d s) := by
  unfold Machine.emptySlot
  repeat first | with_reducible exact h | with_reducible apply Keeps.unlist | with_reducible apply Keeps.assignIfNamed |
      with_reducible apply Keeps.withdrawOverdue | with_reducible apply Keeps.adjustReservation |
      with_reducible apply Keeps.syncQueue | with_reducible apply Keeps.setDomain

theorem refreshB (h : Keeps a s) : Keeps a (Machine.refreshB s) := by
  unfold Machine.refreshB
  repeat first | with_reducible exact h | with_reducible apply Keeps.setB

theorem retireManaged (h : Keeps a s) (i : Fin 6) (d : Domain) : Keeps a (Machine.retireManaged i d s) := by
  unfold Machine.retireManaged
  try dsimp only [refuse]
  (repeat' split) <;> (repeat first | with_reducible exact h | with_reducible apply Keeps.refreshB |
      with_reducible apply Keeps.emptySlot | with_reducible apply Keeps.closeIfDone | with_reducible apply Keeps.serve)

theorem domainRetire (h : Keeps a s) (slot : Nat) : Keeps a (Machine.domainRetire slot s).1 := by
  unfold Machine.domainRetire
  try dsimp only [refuse]
  (repeat' split) <;> (repeat first | with_reducible exact h | with_reducible apply Keeps.retireManaged |
      with_reducible apply Keeps.emptySlot)

theorem actOnRequest (h : Keeps a s) (i : Fin 6) (before d : Domain) : Keeps a (Machine.actOnRequest i before d s) := by
  unfold Machine.actOnRequest
  try dsimp only [refuse]
  (repeat' split) <;> (repeat first | with_reducible exact h | with_reducible apply Keeps.serve |
      with_reducible apply Keeps.adjustReservation | with_reducible apply Keeps.syncQueue |
      with_reducible apply Keeps.postGrant | with_reducible apply Keeps.setDomain)

theorem domainRequest (h : Keeps a s) (slot value : Nat) : Keeps a (Machine.domainRequest slot value s).1 := by
  unfold Machine.domainRequest
  try dsimp only [refuse]
  (repeat' split) <;> (repeat first | with_reducible exact h | with_reducible apply Keeps.actOnRequest |
      with_reducible apply Keeps.setDomain)

theorem permitOffManaged (h : Keeps a s) (i : Fin 6) (d : Domain) : Keeps a (Machine.permitOffManaged i d s) := by
  unfold Machine.permitOffManaged
  try dsimp only [refuse]
  (repeat' split) <;> (repeat first | with_reducible exact h | with_reducible apply Keeps.reduce |
      with_reducible apply Keeps.adjustReservation | with_reducible apply Keeps.syncQueue |
      with_reducible apply Keeps.postGrant | with_reducible apply Keeps.setDomain)

theorem permitOnManaged (h : Keeps a s) (i : Fin 6) (d : Domain) : Keeps a (Machine.permitOnManaged i d s) := by
  unfold Machine.permitOnManaged
  try dsimp only [refuse]
  (repeat' split) <;> (repeat first | with_reducible exact h | with_reducible apply Keeps.serve |
      with_reducible apply Keeps.syncQueue | with_reducible apply Keeps.postGrant | with_reducible apply Keeps.setDomain)

theorem domainPermitOff (h : Keeps a s) (slot : Nat) : Keeps a (Machine.domainPermitOff slot s).1 := by
  unfold Machine.domainPermitOff
  try dsimp only [refuse]
  (repeat' split) <;> (repeat first | with_reducible exact h | with_reducible apply Keeps.permitOffManaged |
      with_reducible apply Keeps.setDomain)

theorem domainPermitOn (h : Keeps a s) (slot : Nat) : Keeps a (Machine.domainPermitOn slot s).1 := by
  unfold Machine.domainPermitOn
  try dsimp only [refuse]
  (repeat' split) <;> (repeat first | with_reducible exact h | with_reducible apply Keeps.permitOnManaged |
      with_reducible apply Keeps.setDomain)

theorem domainPermitOther (h : Keeps a s) (slot : Nat) : Keeps a (Machine.domainPermitOther slot s).1 := by
  unfold Machine.domainPermitOther
  try dsimp only [refuse]
  (repeat' split) <;> (repeat first | with_reducible exact h)

theorem domainSettled (h : Keeps a s) (slot : Nat) : Keeps a (Machine.domainSettled slot s).1 := by
  unfold Machine.domainSettled
  try dsimp only [refuse, settledConflict]
  (repeat' split) <;> (repeat first | with_reducible exact h | with_reducible apply Keeps.settleDomain |
      with_reducible apply Keeps.closeIfDone)

theorem readGrants (h : Keeps a s) (first count : Nat) : Keeps a (Machine.readGrants first count s).1 := by
  unfold Machine.readGrants
  try dsimp only [refuse]
  (repeat' split) <;> (repeat first | with_reducible exact h)

theorem storeCap (h : Keeps a s) (cap : Option Nat) : Keeps a (Machine.storeCap cap s) := by
  unfold Machine.storeCap
  try dsimp only [refuse]
  (repeat' split) <;> (repeat first | with_reducible exact h | with_reducible apply Keeps.withBudget |
      with_reducible apply Keeps.recompute)

theorem sysCap (h : Keeps a s) (cap : Option Nat) : Keeps a (Machine.sysCap cap s).1 := by
  unfold Machine.sysCap
  try dsimp only [refuse]
  (repeat' split) <;> (repeat first | with_reducible exact h | with_reducible apply Keeps.storeCap)

theorem addOverdue (h : Keeps a s) (d : Domain) : Keeps a (Machine.addOverdue d s) := by
  unfold Machine.addOverdue
  (repeat' split) <;> (repeat first | with_reducible exact h | with_reducible apply Keeps.addCause)

theorem expireDeadline (h : Keeps a s) (i : Fin 6) : Keeps a (Machine.expireDeadline i s) := by
  unfold Machine.expireDeadline
  (repeat' split) <;> (repeat first | with_reducible exact h | with_reducible apply Keeps.addOverdue |
      with_reducible apply Keeps.closeIfDone | with_reducible apply Keeps.postGrant | with_reducible apply Keeps.setDomain |
      with_reducible apply Keeps.detect)

theorem manageDomain (h : Keeps a s) (i : Fin 6) : Keeps a (Machine.manageDomain i s) := by
  unfold Machine.manageDomain
  (repeat' split) <;> (repeat first | with_reducible exact h | with_reducible apply Keeps.postGrant |
      with_reducible apply Keeps.setDomain)

theorem allocatorRun (h : Keeps a s) : Keeps a (Machine.allocatorRun s) := by
  unfold Machine.allocatorRun
  try dsimp only [refuse]
  repeat first | with_reducible exact h | with_reducible apply Keeps.manageDomain | with_reducible apply Keeps.refreshB |
      with_reducible apply Keeps.withBudget | with_reducible apply Keeps.serve | with_reducible apply Keeps.syncQueue |
      with_reducible apply Keeps.foldl | intro _ _ h

theorem measureDomains (h : Keeps a s) (c : Completion) :
    Keeps a (Machine.measureDomains c s) := h.same rfl rfl rfl rfl rfl rfl

theorem checkHold (h : Keeps a s) (i : Fin 6) (d : Domain) (timeMs : Nat) (compliant : Bool) :
    Keeps a (Machine.checkHold i d timeMs compliant s) := by
  unfold Machine.checkHold
  (repeat' split) <;> (repeat first | with_reducible exact h | with_reducible apply Keeps.settleDomain |
      with_reducible apply Keeps.setDomain)

theorem checkDomain (h : Keeps a s) (timeMs : Nat) (i : Fin 6) : Keeps a (Machine.checkDomain timeMs i s) := by
  unfold Machine.checkDomain
  try dsimp only [refuse]
  (repeat' split) <;> (repeat first | with_reducible exact h | with_reducible apply Keeps.checkHold |
      with_reducible apply Keeps.settleDomain)

theorem updateBurst (h : Keeps a s) (c : Completion) (dtMs : Nat) : Keeps a (Machine.updateBurst c dtMs s) := by
  unfold Machine.updateBurst
  try dsimp only [refuse]
  (repeat' split) <;> (repeat first | with_reducible exact h | with_reducible apply Keeps.withBudget |
      with_reducible apply Keeps.recompute)

theorem allocatorCompletion (h : Keeps a s) (c : Completion) (dtMs : Nat) :
    Keeps a (Machine.allocatorCompletion c dtMs s) := by
  unfold Machine.allocatorCompletion
  repeat first | with_reducible exact h | with_reducible apply Keeps.updateBurst | with_reducible apply Keeps.checkDomain |
      with_reducible apply Keeps.measureDomains | with_reducible apply Keeps.closeIfDone |
      with_reducible apply Keeps.foldl | intro _ _ h

theorem restartAllocator (h : Keeps a s) : Keeps a (Machine.restartAllocator s) := h.same rfl rfl rfl rfl rfl rfl

theorem withFans (h : Keeps a s) (f : Vector Fan 2 → Vector Fan 2) :
    Keeps a (s.withFans f) := h.same rfl rfl rfl rfl rfl rfl

theorem setFan (h : Keeps a s) (n : Fin 2) (f : Fan) : Keeps a (Machine.setFan n f s) := by
  unfold Machine.setFan
  try dsimp only [refuse]
  (repeat' split) <;> (repeat first | with_reducible exact h | with_reducible apply Keeps.withFans |
      with_reducible apply Keeps.handDerate | with_reducible apply Keeps.post)

theorem applyTarget (h : Keeps a s) (n : Fin 2) : Keeps a (Machine.applyTarget n s) := by
  unfold Machine.applyTarget
  try dsimp only [refuse]
  (repeat' split) <;> (repeat first | with_reducible exact h | with_reducible apply Keeps.setFan)

theorem applyTargets (h : Keeps a s) : Keeps a (Machine.applyTargets s) := by
  unfold Machine.applyTargets
  repeat first | with_reducible exact h | with_reducible apply Keeps.applyTarget | with_reducible apply Keeps.foldl |
      intro _ _ h

theorem stallFan (h : Keeps a s) (n : Fin 2) : Keeps a (Machine.stallFan n s) := by
  unfold Machine.stallFan
  repeat first | with_reducible exact h | with_reducible apply Keeps.setFan | with_reducible apply Keeps.detect

theorem fanSetup (h : Keeps a s) (fan : Nat) (enabled : Bool) (ppr minDuty : Nat) :
    Keeps a (Machine.fanSetup fan enabled ppr minDuty s).1 := by
  unfold Machine.fanSetup
  try dsimp only [refuse]
  (repeat' split) <;> (repeat first | with_reducible exact h | with_reducible apply Keeps.applyTarget |
      with_reducible apply Keeps.setFan)

theorem fanRetry (h : Keeps a s) (fan : Nat) : Keeps a (Machine.fanRetry fan s).1 := by
  unfold Machine.fanRetry
  try dsimp only [refuse]
  (repeat' split) <;> (repeat first | with_reducible exact h | with_reducible apply Keeps.setFan)

theorem readFans (h : Keeps a s) : Keeps a (Machine.readFans s).1 := by
  unfold Machine.readFans
  try dsimp only [refuse]
  repeat first | with_reducible exact h

theorem restartFans (h : Keeps a s) : Keeps a (Machine.restartFans s) := by
  unfold Machine.restartFans
  repeat first | with_reducible exact h | with_reducible apply Keeps.setFan | with_reducible apply Keeps.foldl | intro _ _ h

theorem withPlu (h : Keeps a s) (f : Plu → Plu) : Keeps a (s.withPlu f) := h.same rfl rfl rfl rfl rfl rfl

theorem newCandidate (h : Keeps a s) (p : SetId) : Keeps a (Machine.newCandidate p s) := by
  unfold Machine.newCandidate
  (repeat' split) <;> (repeat first | with_reducible exact h | with_reducible apply Keeps.withPlu)

theorem evaluateCandidate (h : Keeps a s) : Keeps a (Machine.evaluateCandidate s) := by
  unfold Machine.evaluateCandidate
  (repeat' split) <;> (repeat first | with_reducible exact h | with_reducible apply Keeps.newCandidate)

theorem updateEvidence (h : Keeps a s) (f : Evidence → Evidence) : Keeps a (Machine.updateEvidence f s) := by
  unfold Machine.updateEvidence
  repeat first | with_reducible exact h | with_reducible apply Keeps.evaluateCandidate | with_reducible apply Keeps.withPlu

theorem takeReport (h : Keeps a s) (report : Vector TouchClass 8) : Keeps a (Machine.takeReport report s) := by
  unfold Machine.takeReport
  repeat first | with_reducible exact h | with_reducible apply Keeps.updateEvidence

theorem changeLid (h : Keeps a s) : Keeps a (Machine.changeLid s) := by
  unfold Machine.changeLid
  try dsimp only [refuse]
  repeat first | with_reducible exact h | with_reducible apply Keeps.updateEvidence | with_reducible apply Keeps.withPlu

theorem changeMotion (h : Keeps a s) : Keeps a (Machine.changeMotion s) := by
  unfold Machine.changeMotion
  try dsimp only [refuse]
  (repeat' split) <;> (repeat first | with_reducible exact h | with_reducible apply Keeps.updateEvidence |
      with_reducible apply Keeps.withPlu)

theorem becomeStill (h : Keeps a s) : Keeps a (Machine.becomeStill s) := by
  unfold Machine.becomeStill
  repeat first | with_reducible exact h | with_reducible apply Keeps.updateEvidence | with_reducible apply Keeps.withPlu

theorem withMsu (h : Keeps a s) (f : Msu → Msu) : Keeps a (s.withMsu f) := h.same rfl rfl rfl rfl rfl rfl

theorem setChannel (h : Keeps a s) (c : Fin 16) (r : Channel) : Keeps a (s.setChannel c r) := by
  unfold State.setChannel
  repeat first | with_reducible exact h | with_reducible apply Keeps.withMsu

theorem convertChannel (h : Keeps a s) (c : Fin 16) (raw gain : Nat) (offset : Int) :
    Keeps a (Machine.convertChannel c raw gain offset s) := by
  unfold Machine.convertChannel
  try dsimp only [refuse]
  (repeat' split) <;> (repeat first | with_reducible exact h | with_reducible apply Keeps.setChannel |
      with_reducible apply Keeps.detect)

theorem setupChannel (h : Keeps a s) (c : Fin 16) (f : ChannelFields) (k : ChannelKind) :
    Keeps a (Machine.setupChannel c f k s) := by
  unfold Machine.setupChannel
  repeat first | with_reducible exact h | with_reducible apply Keeps.withMsu

theorem channelSetup (h : Keeps a s) (f : ChannelFields) : Keeps a (Machine.channelSetup f s).1 := by
  unfold Machine.channelSetup
  try dsimp only [refuse]
  (repeat' split) <;> (repeat first | with_reducible exact h | with_reducible apply Keeps.setupChannel)

theorem scanListOwner (h : Keeps a s) (l : List Nat) : Keeps a (Machine.scanListOwner l s).1 := by
  unfold Machine.scanListOwner
  try dsimp only [refuse]
  (repeat' split) <;> (repeat first | with_reducible exact h | with_reducible apply Keeps.withMsu)

theorem readChannels (h : Keeps a s) (first count : Nat) : Keeps a (Machine.readChannels first count s).1 := by
  unfold Machine.readChannels
  try dsimp only [refuse]
  (repeat' split) <;> (repeat first | with_reducible exact h)

theorem calOverrideSet (h : Keeps a s) (channel gain : Nat) (offset : Int) :
    Keeps a (Machine.calOverrideSet channel gain offset s).1 := by
  unfold Machine.calOverrideSet
  try dsimp only [refuse]
  (repeat' split) <;> (repeat first | with_reducible exact h | with_reducible apply Keeps.setChannel)

theorem calOverrideRestore (h : Keeps a s) (channel : Nat) : Keeps a (Machine.calOverrideRestore channel s).1 := by
  unfold Machine.calOverrideRestore
  try dsimp only [refuse]
  (repeat' split) <;> (repeat first | with_reducible exact h | with_reducible apply Keeps.setChannel)

theorem calOverrideOther (h : Keeps a s) (channel : Nat) : Keeps a (Machine.calOverrideOther channel s).1 := by
  unfold Machine.calOverrideOther
  try dsimp only [refuse]
  (repeat' split) <;> (repeat first | with_reducible exact h)

theorem advanceScan (h : Keeps a s) : Keeps a (Machine.advanceScan s) := by
  unfold Machine.advanceScan
  repeat first | with_reducible exact h | with_reducible apply Keeps.withMsu

theorem beginMeasurement (h : Keeps a s) : Keeps a (Machine.beginMeasurement s) := by
  unfold Machine.beginMeasurement
  repeat first | with_reducible exact h | with_reducible apply Keeps.advanceScan | with_reducible apply Keeps.withMsu

theorem freeFrontEnd (h : Keeps a s) : Keeps a (Machine.freeFrontEnd s) := by
  unfold Machine.freeFrontEnd
  (repeat' split) <;> (repeat first | with_reducible exact h | with_reducible apply Keeps.beginMeasurement |
      with_reducible apply Keeps.withMsu)

theorem restartChannels (h : Keeps a s) : Keeps a (Machine.restartChannels s) := by
  unfold Machine.restartChannels
  repeat first | with_reducible exact h | with_reducible apply Keeps.withMsu

theorem withCsu (h : Keeps a s) (f : Csu → Csu) : Keeps a (s.withCsu f) := h.same rfl rfl rfl rfl rfl rfl

theorem setElectrode (h : Keeps a s) (i : Fin 8) (e : Electrode) : Keeps a (s.setElectrode i e) := by
  unfold State.setElectrode
  repeat first | with_reducible exact h | with_reducible apply Keeps.withCsu

theorem convertElectrode (h : Keeps a s) (i : Fin 8) (raw : Nat) : Keeps a (Machine.convertElectrode i raw s) := by
  unfold Machine.convertElectrode
  try dsimp only [refuse]
  (repeat' split) <;> (repeat first | with_reducible exact h | with_reducible apply Keeps.setElectrode |
      with_reducible apply Keeps.detect)

theorem setGroup (h : Keeps a s) (g : Fin 3) (r : Group) : Keeps a (s.setGroup g r) := by
  unfold State.setGroup
  repeat first | with_reducible exact h | with_reducible apply Keeps.withCsu

theorem endRebase (h : Keeps a s) (st : Status) : Keeps a (Machine.endRebase st s) := by
  unfold Machine.endRebase
  repeat first | with_reducible exact h | with_reducible apply Keeps.withCsu | with_reducible apply Keeps.post

theorem learnGroups (h : Keeps a s) : Keeps a (Machine.learnGroups s) := by
  unfold Machine.learnGroups
  try dsimp only [refuse]
  (repeat' split) <;> (repeat first | with_reducible exact h | with_reducible apply Keeps.endRebase |
      with_reducible apply Keeps.withCsu)

theorem startGroups (h : Keeps a s) : Keeps a (Machine.startGroups s) := by
  unfold Machine.startGroups
  repeat first | with_reducible exact h | with_reducible apply Keeps.learnGroups | with_reducible apply Keeps.withCsu

theorem leaveElectrodes (h : Keeps a s) : Keeps a (Machine.leaveElectrodes s) := by
  unfold Machine.leaveElectrodes
  (repeat' split) <;> (repeat first | with_reducible exact h | with_reducible apply Keeps.startGroups)

theorem learnCompletion (h : Keeps a s) (origin : LearnOrigin) (count : Nat) (measured : List (Fin 3)) :
    Keeps a (Machine.learnCompletion origin count measured s) := by
  unfold Machine.learnCompletion
  try dsimp only [refuse]
  (repeat' split) <;> (repeat first | with_reducible exact h | with_reducible apply Keeps.endRebase |
      with_reducible apply Keeps.withCsu)

theorem reportScan (h : Keeps a s) (grouped : Bool) (measured : List (Fin 3)) :
    Keeps a (Machine.reportScan grouped measured s) := by
  unfold Machine.reportScan
  (repeat' split) <;> (repeat first | with_reducible exact h | with_reducible apply Keeps.learnCompletion |
      with_reducible apply Keeps.takeReport)

theorem completeContact (h : Keeps a s) (grouped : Bool) (measured : List (Fin 3)) :
    Keeps a (Machine.completeContact grouped measured s) := by
  unfold Machine.completeContact
  repeat first | with_reducible exact h | with_reducible apply Keeps.reportScan | with_reducible apply Keeps.leaveElectrodes

theorem setClaim (h : Keeps a s) (k : Claim) : Keeps a (s.setClaim k) := by
  unfold State.setClaim
  repeat first | with_reducible exact h | with_reducible apply Keeps.withMsu

theorem endContact (h : Keeps a s) (grouped : Bool) (measured : List (Fin 3)) :
    Keeps a (Machine.endContact grouped measured s) := by
  unfold Machine.endContact
  repeat first | with_reducible exact h | with_reducible apply Keeps.setClaim | with_reducible apply Keeps.completeContact |
      with_reducible apply Keeps.withCsu | with_reducible apply Keeps.freeFrontEnd

theorem continueContact (h : Keeps a s) : Keeps a (Machine.continueContact s) := by
  unfold Machine.continueContact
  (repeat' split) <;> (repeat first | with_reducible exact h | with_reducible apply Keeps.endContact |
      with_reducible apply Keeps.withCsu | with_reducible apply Keeps.withMsu)

theorem afterContactConversion (h : Keeps a s) : Keeps a (Machine.afterContactConversion s) := by
  unfold Machine.afterContactConversion
  (repeat' split) <;> (repeat first | with_reducible exact h | with_reducible apply Keeps.continueContact |
      with_reducible apply Keeps.setClaim | with_reducible apply Keeps.beginMeasurement)

theorem stopContact (h : Keeps a s) : Keeps a (Machine.stopContact s) := by
  unfold Machine.stopContact
  try dsimp only [refuse]
  (repeat' split) <;> (repeat first | with_reducible exact h | with_reducible apply Keeps.setClaim |
      with_reducible apply Keeps.withCsu | with_reducible apply Keeps.freeFrontEnd)

theorem handOnFrontEnd (h : Keeps a s) : Keeps a (Machine.handOnFrontEnd s) := by
  unfold Machine.handOnFrontEnd
  try dsimp only [refuse]
  (repeat' split) <;> (repeat first | with_reducible exact h | with_reducible apply Keeps.continueContact |
      with_reducible apply Keeps.setClaim | with_reducible apply Keeps.withMsu)

theorem contactTrigger (h : Keeps a s) : Keeps a (Machine.contactTrigger s) := by
  unfold Machine.contactTrigger
  try dsimp only [refuse]
  (repeat' split) <;> (repeat first | with_reducible exact h | with_reducible apply Keeps.continueContact |
      with_reducible apply Keeps.setClaim | with_reducible apply Keeps.completeContact |
      with_reducible apply Keeps.withCsu)

theorem reloadContactTimer (h : Keeps a s) (due : Nat) : Keeps a (Machine.reloadContactTimer due s) := by
  unfold Machine.reloadContactTimer
  repeat first | with_reducible exact h | with_reducible apply Keeps.withCsu

theorem abandonRebase (h : Keeps a s) : Keeps a (Machine.abandonRebase s) := by
  unfold Machine.abandonRebase
  (repeat' split) <;> (repeat first | with_reducible exact h | with_reducible apply Keeps.endRebase |
      with_reducible apply Keeps.withCsu)

theorem dozeContact (h : Keeps a s) : Keeps a (Machine.dozeContact s) := by
  unfold Machine.dozeContact
  repeat first | with_reducible exact h | with_reducible apply Keeps.abandonRebase | with_reducible apply Keeps.withCsu

theorem wakeContact (h : Keeps a s) : Keeps a (Machine.wakeContact s) := by
  unfold Machine.wakeContact
  repeat first | with_reducible exact h | with_reducible apply Keeps.withCsu

theorem restartContact (h : Keeps a s) (wasDozing : Bool) : Keeps a (Machine.restartContact wasDozing s) := by
  unfold Machine.restartContact
  try dsimp only [refuse]
  (repeat' split) <;> (repeat first | with_reducible exact h | with_reducible apply Keeps.wakeContact |
      with_reducible apply Keeps.stopContact | with_reducible apply Keeps.withCsu)

theorem resumeRebase (h : Keeps a s) : Keeps a (Machine.resumeRebase s) := by
  unfold Machine.resumeRebase
  (repeat' split) <;> (repeat first | with_reducible exact h | with_reducible apply Keeps.learnGroups |
      with_reducible apply Keeps.withCsu)

theorem setupElectrode (h : Keeps a s) (i : Fin 8) (enabled : Bool) (f : ElectrodeFields) :
    Keeps a (Machine.setupElectrode i enabled f s) := by
  unfold Machine.setupElectrode
  try dsimp only [refuse]
  (repeat' split) <;> (repeat first | with_reducible exact h | with_reducible apply Keeps.resumeRebase |
      with_reducible apply Keeps.setElectrode | with_reducible apply Keeps.withCsu)

theorem electrodeSetup (h : Keeps a s) (f : ElectrodeFields) : Keeps a (Machine.electrodeSetup f s).1 := by
  unfold Machine.electrodeSetup
  try dsimp only [refuse]
  (repeat' split) <;> (repeat first | with_reducible exact h | with_reducible apply Keeps.setupElectrode)

theorem changeResolution (h : Keeps a s) (resolution : Nat) : Keeps a (Machine.changeResolution resolution s) := by
  unfold Machine.changeResolution
  repeat first | with_reducible exact h | with_reducible apply Keeps.resumeRebase | with_reducible apply Keeps.stopContact |
      with_reducible apply Keeps.withCsu

theorem rebaseOwner (h : Keeps a s) : Keeps a (Machine.rebaseOwner s).1 := by
  unfold Machine.rebaseOwner
  try dsimp only [refuse]
  (repeat' split) <;> (repeat first | with_reducible exact h | with_reducible apply Keeps.leaveElectrodes |
      with_reducible apply Keeps.withCsu)

theorem readElectrodes (h : Keeps a s) (first count : Nat) : Keeps a (Machine.readElectrodes first count s).1 := by
  unfold Machine.readElectrodes
  try dsimp only [refuse]
  (repeat' split) <;> (repeat first | with_reducible exact h)

theorem withZnm (h : Keeps a s) (f : Znm → Znm) : Keeps a (s.withZnm f) := h.same rfl rfl rfl rfl rfl rfl

theorem setZone (h : Keeps a s) (z : Fin 6) (r : Zone) : Keeps a (s.setZone z r) := by
  unfold State.setZone
  repeat first | with_reducible exact h | with_reducible apply Keeps.withZnm

theorem mapZones (h : Keeps a s) (f : Fin 6 → Zone → Zone) : Keeps a (s.mapZones f) := by
  unfold State.mapZones
  repeat first | with_reducible exact h | with_reducible apply Keeps.withZnm

theorem deriveZones (h : Keeps a s) (c : Completion) : Keeps a (Machine.deriveZones c s) := by
  unfold Machine.deriveZones
  repeat first | with_reducible exact h | with_reducible apply Keeps.mapZones

theorem handDemand (h : Keeps a s) (z : Fin 6) (n : Fin 2) : Keeps a (Machine.handDemand z n s) := by
  unfold Machine.handDemand
  try dsimp only [refuse]
  (repeat' split) <;> (repeat first | with_reducible exact h | with_reducible apply Keeps.setZone |
      with_reducible apply Keeps.applyTarget)

theorem handDemands (h : Keeps a s) (z : Fin 6) : Keeps a (Machine.handDemands z s) := by
  unfold Machine.handDemands
  repeat first | with_reducible exact h | with_reducible apply Keeps.handDemand | with_reducible apply Keeps.foldl |
      intro _ _ h

theorem reformDemands (h : Keeps a s) : Keeps a (Machine.reformDemands s) := by
  unfold Machine.reformDemands
  repeat first | with_reducible exact h | with_reducible apply Keeps.mapZones | with_reducible apply Keeps.applyTargets

theorem postZone (h : Keeps a s) (z : Fin 6) : Keeps a (Machine.postZone z s) := by
  unfold Machine.postZone
  try dsimp only [refuse]
  repeat first | with_reducible exact h | with_reducible apply Keeps.post

theorem updateThermalClaim (h : Keeps a s) : Keeps a (Machine.updateThermalClaim s) := by
  unfold Machine.updateThermalClaim
  (repeat' split) <;> (repeat first | with_reducible exact h | with_reducible apply Keeps.withZnm |
      with_reducible apply Keeps.withdrawCauseFrom | with_reducible apply Keeps.addCauseTo)

theorem handSevere (h : Keeps a s) (z : Fin 6) (old : ZoneState) : Keeps a (Machine.handSevere z old s) := by
  unfold Machine.handSevere
  dsimp only
  split
  · exact h.updateThermalClaim
  · refine Keeps.foldl (fun u n h => ?_) _ (h.handSeverity _ _).updateThermalClaim
    split
    · exact h.applyTarget _
    · exact h

/-- RUNNING and DOZING may follow each other. -/
theorem setMode (h : Keeps a s) (m : Mode) (hs : s.managed = true) (hm : m.managed = true) : Keeps a (s.setMode m) :=
  h.trans
    { now := le_refl _, lst := rfl, pending := rfl, awaited := rfl, link := rfl, notices := id
      modes := by
        rintro ⟨h1, h2, h3⟩
        have n1 : s.mdc.mode ≠ .prepare := by intro e; simp [State.managed, e, Mode.managed] at hs
        have n2 : m ≠ .prepare := by intro e; simp [e, Mode.managed] at hm
        have n3 : s.mdc.guardClaim = false := by
          cases hg : s.mdc.guardClaim
          · rfl
          · simp [State.managed, h3 hg, Mode.managed] at hs
        refine ⟨⟨fun e => absurd e n2, fun e => absurd (h1.mpr e) n1⟩, fun _ => h2 hs, fun e => ?_⟩
        simp [State.setMode, n3] at e }

theorem wakeUp (h : Keeps a s) (hs : s.managed = true) : Keeps a (Machine.wakeUp s) :=
  ((h.setMode .running hs rfl).stopContact.wakeContact).reformDemands

theorem goDozing (h : Keeps a s) (hs : s.managed = true) : Keeps a (Machine.goDozing s) :=
  ((h.setMode .dozing hs rfl).stopContact.dozeContact.mapZones _).reformDemands

theorem zoneChanged (h : Keeps a s) (z : Fin 6) (old : ZoneState) (wakes : Bool) (hw : wakes = true → s.managed = true) :
    Keeps a (Machine.zoneChanged z old wakes s) := by
  unfold Machine.zoneChanged
  apply Keeps.handSevere
  split
  · exact (h.postZone z).wakeUp (hw (by assumption))
  · exact h.postZone z

theorem evaluateZone (h : Keeps a s) (z : Fin 6) : Keeps a (Machine.evaluateZone z s) := by
  unfold Machine.evaluateZone
  dsimp only
  split
  · exact h
  · rename_i hm
    simp only [Bool.or_eq_true, Bool.not_eq_true', not_or, Bool.not_eq_false] at hm
    split
    · exact h.handDemands z
    · exact ((h.setZone z _).zoneChanged _ _ _ fun _ => hm.1).handDemands z

theorem stepZone (h : Keeps a s) (z : Fin 6) : Keeps a (Machine.stepZone z s) := by
  unfold Machine.stepZone
  try dsimp only [refuse]
  (repeat' split) <;> (repeat first | with_reducible exact h | with_reducible apply Keeps.setZone |
      with_reducible apply Keeps.handReduction)

theorem zonesRun (h : Keeps a s) : Keeps a (Machine.zonesRun s) := by
  unfold Machine.zonesRun
  dsimp only
  refine Keeps.foldl (fun u n h => ?_) _ (h.mapZones _)
  split
  · exact h.postZone _
  · exact h

theorem restartZones (h : Keeps a s) : Keeps a (Machine.restartZones s) := by
  unfold Machine.restartZones
  repeat first | with_reducible exact h | with_reducible apply Keeps.mapZones | with_reducible apply Keeps.withZnm

theorem zoneSetup (h : Keeps a s) (f : ZoneFields) : Keeps a (Machine.zoneSetup f s).1 := by
  unfold Machine.zoneSetup
  try dsimp only [refuse]
  (repeat' split) <;> (repeat first | with_reducible exact h | with_reducible apply Keeps.setZone)

theorem readZones (h : Keeps a s) (first count : Nat) : Keeps a (Machine.readZones first count s).1 := by
  unfold Machine.readZones
  try dsimp only [refuse]
  (repeat' split) <;> (repeat first | with_reducible exact h)

theorem formLimit (h : Keeps a s) : Keeps a (Machine.formLimit s) := by
  unfold Machine.formLimit
  repeat first | with_reducible exact h | with_reducible apply Keeps.withSrm | exact fun h => h | exact fun _ => rfl

theorem updateSeverity (h : Keeps a s) : Keeps a (Machine.updateSeverity s) := by
  unfold Machine.updateSeverity
  try dsimp only [refuse]
  (repeat' split) <;> (repeat first | with_reducible exact h | with_reducible apply Keeps.withdrawCauseFrom |
      with_reducible apply Keeps.addCauseTo | with_reducible apply Keeps.withSrm | exact fun h => h | exact fun _ => rfl)

theorem postSource (h : Keeps a s) : Keeps a (Machine.postSource s) := by
  unfold Machine.postSource
  repeat first | with_reducible exact h | with_reducible apply Keeps.post

theorem sourceChanged (h : Keeps a s) : Keeps a (Machine.sourceChanged s) := by
  unfold Machine.sourceChanged
  repeat first | with_reducible exact h | with_reducible apply Keeps.postSource |
      with_reducible apply Keeps.updateSeverity | with_reducible apply Keeps.formLimit |
      with_reducible apply Keeps.handSource

theorem deliverAdapter (h : Keeps a s) (here : Bool) : Keeps a (Machine.deliverAdapter here s) := by
  unfold Machine.deliverAdapter
  (repeat' split) <;> (repeat first | with_reducible exact h | with_reducible apply Keeps.sourceChanged |
      with_reducible apply Keeps.withSrm | exact fun h => h | exact fun _ => rfl)

theorem changeAdp (h : Keeps a s) : Keeps a (Machine.changeAdp s) := by
  unfold Machine.changeAdp
  try dsimp only [refuse]
  repeat first | with_reducible exact h | with_reducible apply Keeps.deliverAdapter | with_reducible apply Keeps.withPlu

theorem sourceCompletion (h : Keeps a s) (c : Completion) : Keeps a (Machine.sourceCompletion c s) := by
  unfold Machine.sourceCompletion
  try dsimp only [refuse]
  (repeat' split) <;> (repeat first | with_reducible exact h | with_reducible apply Keeps.sourceChanged |
      with_reducible apply Keeps.withSrm | exact fun h => h | exact fun _ => rfl)

theorem sourceRun (h : Keeps a s) : Keeps a (Machine.sourceRun s) := by
  unfold Machine.sourceRun
  try dsimp only [refuse]
  (repeat' split) <;> (repeat first | with_reducible exact h | with_reducible apply Keeps.postSource |
      with_reducible apply Keeps.updateSeverity | with_reducible apply Keeps.formLimit |
      with_reducible apply Keeps.withSrm | exact fun h => h | exact fun _ => rfl)

theorem restartSource (h : Keeps a s) : Keeps a (Machine.restartSource s) := by
  unfold Machine.restartSource
  repeat first | with_reducible exact h | with_reducible apply Keeps.formLimit | with_reducible apply Keeps.withSrm |
      exact fun h => h | exact fun _ => rfl

theorem storeSource (h : Keeps a s) (u : SourceSetup) : Keeps a (Machine.storeSource u s) := by
  unfold Machine.storeSource
  repeat first | with_reducible exact h | with_reducible apply Keeps.formLimit | with_reducible apply Keeps.handSource |
      with_reducible apply Keeps.withSrm | exact fun h => h | exact fun _ => rfl

theorem sourceSetup (h : Keeps a s) (f : SourceFields) : Keeps a (Machine.sourceSetup f s).1 := by
  unfold Machine.sourceSetup
  try dsimp only [refuse]
  (repeat' split) <;> (repeat first | with_reducible exact h | with_reducible apply Keeps.storeSource)

theorem setConsumer (h : Keeps a s) (cause : RoundCause) (n : Nat) : Keeps a (Machine.setConsumer cause n s) := by
  unfold Machine.setConsumer
  (repeat' split) <;>
    (repeat first | with_reducible exact h | with_reducible apply Keeps.takeNewSet |
        with_reducible apply Keeps.evaluateZone |
      with_reducible apply Keeps.applyTargets)

theorem handSet (h : Keeps a s) (cause : RoundCause) : Keeps a (Machine.handSet cause s) := by
  unfold Machine.handSet
  split
  · exact h.inFreeOrder 8 fun i s h => h.setConsumer cause i
  · exact h

/-- The guard claim is cleared in any mode, and set only in LOCKED. -/
theorem setGuard (h : Keeps a s) (v : Bool) (hv : v = true → s.mdc.mode = .locked) : Keeps a (s.setGuard v) :=
  h.trans
    { now := le_refl _, lst := rfl, pending := rfl, awaited := rfl, link := rfl, notices := id
      modes := fun m => ⟨m.1, m.2.1, hv⟩ }

theorem judgeGuard (h : Keeps a s) (c : Completion) (hs : s.mdc.mode = .locked) : Keeps a (Machine.judgeGuard c s) := by
  unfold Machine.judgeGuard
  dsimp only
  (repeat' split) <;>
    (repeat first | with_reducible exact h | with_reducible apply Keeps.withdrawCauseFrom |
        with_reducible apply Keeps.addCauseTo |
      with_reducible apply Keeps.setGuard | exact fun _ => hs)

theorem completionConsumer (h : Keeps a s) (c : Completion) (dtMs : Nat) (n : Nat) :
    Keeps a (Machine.completionConsumer c dtMs n s) := by
  unfold Machine.completionConsumer
  (repeat' split) <;>
    (repeat first | with_reducible exact h | with_reducible apply Keeps.sourceCompletion |
      with_reducible apply Keeps.allocatorCompletion | with_reducible apply Keeps.evaluateZone)

theorem consume (h : Keeps a s) (c : Completion) (dtMs : Nat) : Keeps a (Machine.consume c dtMs s) := by
  unfold Machine.consume
  split
  · exact h
  · exact h.judgeGuard c (by assumption)
  · exact h.inFreeOrder 8 fun i s h => h.completionConsumer c dtMs i

theorem completeMeasurement (h : Keeps a s) : Keeps a (Machine.completeMeasurement s) := by
  unfold Machine.completeMeasurement
  try dsimp only [refuse]
  repeat first | with_reducible exact h | with_reducible apply Keeps.consume | with_reducible apply Keeps.deriveZones |
      with_reducible apply Keeps.withMsu

theorem finishScan (h : Keeps a s) : Keeps a (Machine.finishScan s) := by
  unfold Machine.finishScan
  (repeat' split) <;> (repeat first | with_reducible exact h | with_reducible apply Keeps.completeMeasurement |
      with_reducible apply Keeps.handOnFrontEnd)

theorem finishNew (h : Keeps a s) (r : State) : Keeps a (Machine.finishNew r s) := by
  unfold Machine.finishNew
  split
  · exact h
  · exact h.finishScan

theorem finishing {owner : State → State × Answer} (h : Keeps a (owner s).1) : Keeps a (Machine.finishing owner s).1 :=
  h.finishNew s

theorem reloadSequenceTimer (h : Keeps a s) (due : Nat) : Keeps a (Machine.reloadSequenceTimer due s) := by
  unfold Machine.reloadSequenceTimer
  repeat first | with_reducible exact h | with_reducible apply Keeps.withMsu

theorem dropLeft (h : Keeps a s) : Keeps a (Machine.dropLeft s) := by
  unfold Machine.dropLeft
  (repeat' split) <;> (repeat first | with_reducible exact h | with_reducible apply Keeps.withMsu)

theorem takeTrigger (h : Keeps a s) : Keeps a (Machine.takeTrigger s) := by
  unfold Machine.takeTrigger
  try dsimp only [refuse]
  (repeat' split) <;> (repeat first | with_reducible exact h | with_reducible apply Keeps.dropLeft |
      with_reducible apply Keeps.finishScan | with_reducible apply Keeps.completeMeasurement |
      with_reducible apply Keeps.beginMeasurement | with_reducible apply Keeps.withMsu)

theorem endChannelConversion (h : Keeps a s) (raw : Nat) (v : ChannelConversion) :
    Keeps a (Machine.endChannelConversion raw v s) := by
  unfold Machine.endChannelConversion
  (repeat' split) <;> (repeat first | with_reducible exact h | with_reducible apply Keeps.finishScan |
      with_reducible apply Keeps.advanceScan | with_reducible apply Keeps.convertChannel)

theorem noteMeasured (h : Keeps a s) (g : Option (Fin 3)) : Keeps a (Machine.noteMeasured g s) := by
  unfold Machine.noteMeasured
  repeat first | with_reducible exact h | with_reducible apply Keeps.withCsu

theorem endElectrodeConversion (h : Keeps a s) (i : Fin 8) (raw : Nat) (v : ContactConversion) :
    Keeps a (Machine.endElectrodeConversion i raw v s) := by
  unfold Machine.endElectrodeConversion
  try dsimp only [refuse]
  (repeat' split) <;> (repeat first | with_reducible exact h | with_reducible apply Keeps.noteMeasured |
      with_reducible apply Keeps.finishScan | with_reducible apply Keeps.afterContactConversion |
      with_reducible apply Keeps.convertElectrode)

theorem endGroupConversion (h : Keeps a s) (g : Fin 3) (raw : Nat) : Keeps a (Machine.endGroupConversion g raw s) := by
  unfold Machine.endGroupConversion
  try dsimp only [refuse]
  repeat first | with_reducible exact h | with_reducible apply Keeps.noteMeasured | with_reducible apply Keeps.finishScan |
      with_reducible apply Keeps.afterContactConversion | with_reducible apply Keeps.withCsu

theorem electrodeSetupResolution (h : Keeps a s) (resolution : Nat) :
    Keeps a (Machine.electrodeSetupResolution resolution s).1 := by
  unfold Machine.electrodeSetupResolution
  try dsimp only [refuse]
  (repeat' split) <;> (repeat first | with_reducible exact h | with_reducible apply Keeps.changeResolution)

theorem zoneFeed (h : Keeps a s) (zone : Nat) (v : Option Int) : Keeps a (Machine.zoneFeed zone v s).1 := by
  unfold Machine.zoneFeed
  try dsimp only [refuse]
  (repeat' split) <;> (repeat first | with_reducible exact h | with_reducible apply Keeps.evaluateZone |
      with_reducible apply Keeps.setZone)

theorem staleZone (h : Keeps a s) (z : Fin 6) : Keeps a (Machine.staleZone z s) := by
  unfold Machine.staleZone
  try dsimp only [refuse]
  repeat first | with_reducible exact h | with_reducible apply Keeps.finishNew | with_reducible apply Keeps.evaluateZone |
      with_reducible apply Keeps.setZone | with_reducible apply Keeps.detect

theorem postPlacement (h : Keeps a s) (previous : Placement) : Keeps a (Machine.postPlacement previous s) := by
  unfold Machine.postPlacement
  repeat first | with_reducible exact h | with_reducible apply Keeps.post

theorem reportPlacement (h : Keeps a s) (previous : Placement) : Keeps a (Machine.reportPlacement previous s) := by
  unfold Machine.reportPlacement
  (repeat' split) <;> (repeat first | with_reducible exact h | with_reducible apply Keeps.handSet)

theorem tellPlacement (h : Keeps a s) (previous : Placement) : Keeps a (Machine.tellPlacement previous s) := by
  unfold Machine.tellPlacement
  repeat first | with_reducible exact h | with_reducible apply Keeps.reportPlacement |
      with_reducible apply Keeps.postPlacement

theorem expireDwell (h : Keeps a s) : Keeps a (Machine.expireDwell s) := by
  unfold Machine.expireDwell
  (repeat' split) <;> (repeat first | with_reducible exact h | with_reducible apply Keeps.tellPlacement |
      with_reducible apply Keeps.finishNew | with_reducible apply Keeps.withPlu)

theorem pinPlacement (h : Keeps a s) (p : SetId) (timeout : Option Nat) : Keeps a (Machine.pinPlacement p timeout s) := by
  unfold Machine.pinPlacement
  repeat first | with_reducible exact h | with_reducible apply Keeps.tellPlacement | with_reducible apply Keeps.withPlu

theorem placementPin (h : Keeps a s) (code : Nat) (timeout : Option Nat) :
    Keeps a (Machine.placementPin code timeout s).1 := by
  unfold Machine.placementPin
  try dsimp only [refuse]
  (repeat' split) <;> (repeat first | with_reducible exact h | with_reducible apply Keeps.pinPlacement)

theorem endPin (h : Keeps a s) : Keeps a (Machine.endPin s) := by
  unfold Machine.endPin
  repeat first | with_reducible exact h | with_reducible apply Keeps.tellPlacement | with_reducible apply Keeps.withPlu

theorem placementUnpin (h : Keeps a s) : Keeps a (Machine.placementUnpin s).1 := by
  unfold Machine.placementUnpin
  try dsimp only [refuse]
  (repeat' split) <;> (repeat first | with_reducible exact h | with_reducible apply Keeps.endPin)

theorem restartPlacement (h : Keeps a s) : Keeps a (Machine.restartPlacement s) := by
  unfold Machine.restartPlacement
  repeat first | with_reducible exact h | with_reducible apply Keeps.withPlu

theorem redeliverAdapter (h : Keeps a s) : Keeps a (Machine.redeliverAdapter s) := by
  unfold Machine.redeliverAdapter
  repeat first | with_reducible exact h | with_reducible apply Keeps.deliverAdapter

theorem readChassis (h : Keeps a s) : Keeps a (Machine.readChassis s).1 := by
  unfold Machine.readChassis
  try dsimp only [refuse]
  repeat first | with_reducible exact h

theorem readSet (h : Keeps a s) (selector : Nat) : Keeps a (Machine.readSet selector s).1 := by
  unfold Machine.readSet
  try dsimp only [refuse]
  (repeat' split) <;> (repeat first | with_reducible exact h | with_reducible apply Keeps.readChassis)

theorem identifyOwner (h : Keeps a s) : Keeps a (Machine.identifyOwner s).1 := by
  unfold Machine.identifyOwner
  try dsimp only [refuse]
  repeat first | with_reducible exact h

theorem statusOwner (h : Keeps a s) : Keeps a (Machine.statusOwner s).1 :=
  h.trans
    { now := le_refl _, lst := rfl, pending := rfl, awaited := rfl, link := rfl, notices := id, modes := id }

theorem dropGuard (h : Keeps a s) : Keeps a (Machine.dropGuard s) :=
  (h.setGuard false nofun).withdrawCauseFrom six .guard

theorem faultsOwner (h : Keeps a s) (clear : Word) (report : Option Word) :
    Keeps a (Machine.faultsOwner clear report s).1 := by
  unfold Machine.faultsOwner
  split
  · exact h
  · exact h.trans
      { now := le_refl _, lst := rfl, pending := rfl, awaited := rfl, link := rfl, notices := id, modes := id }

end Sys2Proof.Machine.Keeps
end

