-- ==== Sys2Proof/Laws/Tables.lean ====
section
/-! SUPPORT. Reading tables after a change: `get` of a changed row, of a built table, of a table of equal rows. -/

namespace Sys2Proof

@[simp] theorem get_set {n : Nat} {α : Type} (v : Vector α n) (i j : Fin n) (x : α) :
    (v.set i x).get j = if i = j then x else v.get j := by
  rw [Vector.get_eq_getElem, Vector.getElem_set]
  by_cases h : i = j
  · subst h; simp
  · rw [if_neg h, if_neg fun h' => h (Fin.ext h')]; rfl

@[simp] theorem get_tabulate {n : Nat} {α : Type} (f : Fin n → α) (i : Fin n) : (tabulate f).get i = f i := by
  simp [tabulate, Vector.get_eq_getElem]

@[simp] theorem get_replicate {n : Nat} {α : Type} (x : α) (i : Fin n) : (Vector.replicate n x).get i = x := by
  simp [Vector.get_eq_getElem]

@[simp] theorem get_modifyRow {n : Nat} {α : Type} (v : Vector α n) (i j : Fin n) (f : α → α) :
    (modifyRow v i f).get j = if i = j then f (v.get i) else v.get j := by simp [modifyRow]

/-- Two tables with equal rows are equal. -/
theorem table_ext {n : Nat} {α : Type} {v w : Vector α n} (h : ∀ i : Fin n, v.get i = w.get i) : v = w := by
  ext i hi
  exact h ⟨i, hi⟩

/-- A number below `n` names its row. -/
@[simp] theorem index?_val {n : Nat} (i : Fin n) : Machine.index? n i.val = some i := by simp [Machine.index?, i.isLt]

theorem index?_none {n k : Nat} (h : n ≤ k) : Machine.index? n k = none := by simp [Machine.index?, Nat.not_lt.mpr h]

/-- What the index of a number is. -/
theorem index?_eq_some {n k : Nat} {i : Fin n} (h : Machine.index? n k = some i) : k = i.val := by
  unfold Machine.index? at h
  split at h
  · cases h; rfl
  · cases h

end Sys2Proof
end

