-- ==== Sys2Proof/Laws/ContactScan.lean ====
section
/-! SUPPORT. The completion of a contact scan: the model's operations do what the statements spell out (Safety.lean), one lemma per
operation. -/

namespace Sys2Proof.Machine

/-- Group learning begins with the groups that the statements name. -/
theorem Csu.groupAtStart_groupsBegun (c : Csu) : tabulate c.groupAtStart = c.groupsBegun := by
  unfold Csu.groupsBegun
  congr 1
  funext g
  have h : (groupPins g).filter c.eligible = c.membersNow g := by
    fin_cases g <;> rfl
  simp only [Csu.groupAtStart, h, List.isEmpty_iff]
  rfl

@[simp] theorem Csu.groupsBegun_members (c : Csu) (g : Fin 3) : (c.groupsBegun.get g).members = c.membersNow g := by
  simp [Csu.groupsBegun]

@[simp] theorem Csu.groupsBegun_learnSum (c : Csu) (g : Fin 3) : (c.groupsBegun.get g).learnSum = 0 := by
  simp [Csu.groupsBegun]

/-- The GROUPS phase begins as the statements say. -/
theorem startGroups_beginsGroups (s : State) : startGroups s = s.beginsGroups := by
  have hb : ({ s.csu with rebase := .groups } : Csu).beginLearning .rebase =
      { s.csu with rebase := .groups, groups := s.csu.groupsBegun, learning := .learning .rebase 0 } := by
    simp only [Csu.beginLearning, Csu.groupAtStart_groupsBegun]
    rfl
  have drop : tabulate (fun g => { s.csu.groupsBegun.get g with learnSum := 0 }) = s.csu.groupsBegun :=
    table_ext fun g => by simp [Csu.groupsBegun]
  have none_ : ({ s.csu with rebase := .groups, groups := s.csu.groupsBegun, learning := .learning .rebase 0 } : Csu).noMembers
      = true ↔ ∀ g, s.csu.membersNow g = [] := by
    simp [Csu.noMembers, three, Fin.forall_fin_succ]
  unfold startGroups learnGroups State.beginsGroups
  simp only [State.withCsu, hb, none_]
  split
  · simp only [Csu.dropLearning, endRebase, State.withCsu, drop]
  · rfl

/-- The highest class among some electrodes, from a class on. -/
theorem foldl_max (f : Fin 8 → TouchClass) (l : List (Fin 8)) (k : TouchClass) :
    l.foldl (fun k i => TouchClass.max k (f i)) k =
      if (k == .contact || l.any fun i => f i == .contact) then TouchClass.contact
      else if (k == .near || l.any fun i => f i == .near) then .near else .noTouch := by
  induction l generalizing k with
  | nil => cases k <;> rfl
  | cons a l ih =>
    rw [List.foldl_cons, ih]
    cases k <;> cases h : f a <;> simp [TouchClass.max, TouchClass.rank, h]

/-- The eighth completion as the statements say. -/
theorem Csu.finishLearning_learned (c : Csu) : c.finishLearning = c.learned := by
  have highest : ∀ l, c.highestClass l =
      if l.any fun i => (c.electrodes.get i).confirmed == .contact then TouchClass.contact
      else if l.any fun i => (c.electrodes.get i).confirmed == .near then .near else .noTouch := fun l => by
    rw [Csu.highestClass, foldl_max (fun i => (c.electrodes.get i).confirmed)]; rfl
  have groups : tabulate c.groupLearned = c.learned.groups := by
    unfold Csu.learned
    refine congrArg tabulate (funext fun g => ?_)
    simp only [Csu.groupLearned, List.isEmpty_iff, highest]
    rfl
  have electrodes : c.finishLearning.electrodes = c.learned.electrodes := by
    refine table_ext fun i => ?_
    simp only [Csu.finishLearning, three, List.foldl_cons, List.foldl_nil, applyClass, get_tabulate, Csu.learned,
      Csu.groupLearned, List.isEmpty_iff, ← highest]
    by_cases h2 : i ∈ (c.groups.get 2).members <;> by_cases h1 : i ∈ (c.groups.get 1).members <;>
      by_cases h0 : i ∈ (c.groups.get 0).members <;>
      simp [h0, h1, h2, apply_ite] <;> (intro e; simp [e] at h0 h1 h2)
  have h : c.finishLearning = { c.learned with groups := tabulate c.groupLearned, electrodes := c.finishLearning.electrodes } := rfl
  rw [h, groups, electrodes]

/-- What a completed contact scan hands on, as the statements say. -/
theorem reportScan_contactActed (grouped : Bool) (measured : List (Fin 3)) (s : State) :
    reportScan grouped measured s = s.contactActed grouped measured := by
  have summed : (tabulate fun g => (s.csu.groups.get g).addLearn (measured.contains g)) = s.csu.summed measured := by
    refine table_ext fun g => ?_
    by_cases h : g ∈ measured <;> simp [Csu.summed, Group.addLearn, h]
  unfold reportScan State.contactActed
  cases grouped
  · rfl
  · cases s.csu.learning with
    | idle => rfl
    | learning origin count =>
      simp only [learnCompletion, State.withCsu, summed, Csu.finishLearning_learned]
      by_cases n : count = 7 <;> cases origin <;> simp [n, endRebase, State.withCsu]

/-- The end of the ELECTRODES phase, as the statements say. -/
theorem leaveElectrodes_rebaseGoesOn (s : State) : leaveElectrodes s = s.rebaseGoesOn := by
  have h : s.csu.anyLearning = true ↔
      ∃ i : Fin 8, (s.csu.electrodes.get i).enabled = true ∧ (s.csu.electrodes.get i).state = .learning := by
    simp [Csu.anyLearning, eight, Fin.exists_fin_succ]
  unfold leaveElectrodes State.rebaseGoesOn
  rw [startGroups_beginsGroups]
  simp only [← h]
  by_cases r : s.csu.rebase = .electrodes <;> cases s.csu.anyLearning <;> simp [r]

/-- The completion of a contact scan, as the statements say. -/
theorem completeContact_contactCompleted (grouped : Bool) (measured : List (Fin 3)) (s : State) :
    completeContact grouped measured s = s.contactCompleted grouped measured := by
  rw [completeContact, reportScan_contactActed, leaveElectrodes_rebaseGoesOn, State.contactCompleted]

end Sys2Proof.Machine
end

