-- ==== Sys2Proof/Laws/Grants.lean ====
section
/-! SUPPORT. What the Allocator's operations can change: the grants, the round, the raise queue and B, causes on clamp lines,
and notices; never a domain's setup, permit or request, nor another input of the budget. One lemma per operation. -/

namespace Sys2Proof.Machine

/-- The state after an allocation. -/
structure Grants (s t : State) : Prop where
  only : s.grantsOnly t
  budget : t.alc.budget = { s.alc.budget with effective := t.alc.budget.effective }
  cores : ∀ i, t.alc.coreOf i = s.alc.coreOf i
  lines : ∀ n, t.clu.get n = { s.clu.get n with causes := (t.clu.get n).causes }

namespace Grants

set_option linter.unusedTactic false
set_option linter.unreachableTactic false
set_option linter.unnecessarySeqFocus false

theorem refl (s : State) : Grants s s := ⟨rfl, rfl, fun _ => rfl, fun _ => rfl⟩

theorem trans {s t u : State} (h : Grants s t) (k : Grants t u) : Grants s u where
  only := by
    have h1 := h.only; have k1 := k.only
    rw [State.grantsOnly] at *
    rw [k1, h1]
  budget := by rw [k.budget, h.budget]
  cores := fun i => (k.cores i).trans (h.cores i)
  lines := fun n => by rw [k.lines n, h.lines n]

variable {a s : State}

/-- A change of the Allocator that leaves the domains, and the budget but for B. -/
theorem alcSame {t : State} (h : Grants a s) (h1 : t.alc.domains = s.alc.domains)
    (h2 : t.alc.budget = { s.alc.budget with effective := t.alc.budget.effective }) (h3 : t = { s with alc := t.alc }) :
    Grants a t := by
  refine h.trans ⟨?_, h2, fun i => by simp [Alc.coreOf, h1], fun n => ?_⟩
  · rw [State.grantsOnly, h3]
  · rw [h3]

/-- A domain's record changes outside its core. -/
theorem setDomain (h : Grants a s) {i : Fin 6} {d d' : Domain} (hd : s.alc.domains.get i = some d) (hc : d'.core = d.core) :
    Grants a (s.setDomain i (some d')) :=
  h.trans
    { only := rfl, budget := rfl, lines := fun _ => rfl
      cores := fun j => by
        simp only [Alc.coreOf, State.setDomain, get_set]
        split
        · rename_i e
          subst e
          simp [hd, hc]
        · rfl }

theorem post (h : Grants a s) (n : Notice) : Grants a (s.post n) :=
  h.trans ⟨by unfold State.grantsOnly State.post; rw [slk_post_eq], rfl, fun _ => rfl, fun _ => rfl⟩

/-- A line changes its causes. -/
theorem setLine (h : Grants a s) (n : Fin 6) (l : Line) (hl : l = { s.clu.get n with causes := l.causes }) :
    Grants a (Machine.setLine n l s) := by
  have h' : Grants a { s with clu := s.clu.set n l } :=
    h.trans ⟨rfl, rfl, fun _ => rfl, fun m => by
      dsimp only
      rw [get_set]
      split
      · rename_i e
        subst e
        exact hl
      · rfl⟩
  unfold Machine.setLine
  dsimp only
  split
  · exact h'
  · exact h'.post _

theorem foldl {β : Type} {f : State → β → State} (hf : ∀ s b, Grants a s → Grants a (f s b)) (l : List β)
    (h : Grants a s) : Grants a (l.foldl f s) := by
  induction l generalizing s with
  | nil => exact h
  | cons b l ih => exact ih (hf s b h)

theorem addCause (h : Grants a s) (c : ClampCause) (n : Fin 6) : Grants a (Machine.addCause c n s) := by
  unfold Machine.addCause
  try dsimp only
  repeat first | with_reducible exact h | with_reducible apply Grants.setLine | assumption | rfl

theorem withdrawCause (h : Grants a s) (c : ClampCause) (n : Fin 6) : Grants a (Machine.withdrawCause c n s) := by
  unfold Machine.withdrawCause
  try dsimp only
  repeat first | with_reducible exact h | with_reducible apply Grants.setLine | assumption | rfl

theorem addCauseTo (h : Grants a s) (lines : List (Fin 6)) (c : ClampCause) : Grants a (Machine.addCauseTo lines c s) := by
  unfold Machine.addCauseTo
  repeat first | with_reducible exact h | with_reducible apply Grants.addCause | with_reducible apply Grants.foldl |
      intro _ _ h

theorem withdrawCauseFrom (h : Grants a s) (lines : List (Fin 6)) (c : ClampCause) :
    Grants a (Machine.withdrawCauseFrom lines c s) := by
  unfold Machine.withdrawCauseFrom
  repeat first | with_reducible exact h | with_reducible apply Grants.withdrawCause | with_reducible apply Grants.foldl |
      intro _ _ h

theorem postGrant (h : Grants a s) (reason : GrantReason) (i : Fin 6) : Grants a (Machine.postGrant reason i s) := by
  unfold Machine.postGrant
  (repeat' split) <;> (repeat first | with_reducible exact h | with_reducible apply Grants.post)

theorem setQueue (h : Grants a s) (q : List QueueEntry) : Grants a (s.setQueue q) := h.alcSame rfl rfl rfl

theorem syncQueue (h : Grants a s) (i : Fin 6) : Grants a (Machine.syncQueue i s) := by
  unfold Machine.syncQueue
  (repeat' split) <;> (repeat first | with_reducible exact h | with_reducible apply Grants.setQueue)

theorem reserve (h : Grants a s) (amount : Nat) (holder : Option (Fin 6)) :
    Grants a (s.reserve amount holder) := h.alcSame rfl rfl rfl

theorem adjustReservation (h : Grants a s) (i : Fin 6) : Grants a (Machine.adjustReservation i s) := by
  unfold Machine.adjustReservation
  (repeat' split) <;> (repeat first | with_reducible exact h | with_reducible apply Grants.reserve)

theorem setB (h : Grants a s) (b : Option Nat) : Grants a (s.setB b) := h.alcSame rfl rfl rfl

theorem joinRound (h : Grants a s) (c : RoundCause) (lowersNone : Bool) : Grants a (Machine.joinRound c lowersNone s) := by
  unfold Machine.joinRound
  (repeat' split) <;> (repeat first | with_reducible exact h | exact h.alcSame rfl rfl rfl)

theorem listAffected (h : Grants a s) (i : Fin 6) (old : Nat) :
    Grants a (Machine.listAffected i old s) := h.alcSame rfl rfl rfl

theorem lowerOne (h : Grants a s) (c : RoundCause) (target : Nat) (i : Fin 6) :
    Grants a (Machine.lowerOne c target i s) := by
  unfold Machine.lowerOne
  (repeat' split) <;> (repeat first | with_reducible exact h | with_reducible apply Grants.listAffected |
      with_reducible apply Grants.syncQueue | with_reducible apply Grants.postGrant |
      with_reducible apply Grants.setDomain | assumption | rfl)

theorem lowerAll (h : Grants a s) (c : RoundCause) (order : List (Fin 6)) (targets : Vector Nat 6) :
    Grants a (Machine.lowerAll c order targets s) :=
  foldl (fun _ _ h => h.lowerOne _ _ _) _ (h.joinRound _ _)

theorem reduce (h : Grants a s) (c : RoundCause) : Grants a (Machine.reduce c s) := by
  unfold Machine.reduce
  try dsimp only
  repeat first | with_reducible exact h | with_reducible apply Grants.lowerAll | with_reducible apply Grants.reserve

theorem raiseGrant (h : Grants a s) (amount : Nat) (i : Fin 6) : Grants a (Machine.raiseGrant amount i s) := by
  unfold Machine.raiseGrant
  (repeat' split) <;> (repeat first | with_reducible exact h | with_reducible apply Grants.syncQueue |
      with_reducible apply Grants.postGrant | with_reducible apply Grants.setDomain | assumption | rfl)

theorem serveHeads (h : Grants a s) (n : Nat) : Grants a (Machine.serveHeads n s) := by
  induction n generalizing s with
  | zero => exact h
  | succ n ih =>
    unfold Machine.serveHeads
    dsimp only
    (repeat' split) <;> (repeat first | with_reducible exact h | with_reducible apply ih |
        with_reducible apply Grants.raiseGrant)

theorem preemptFor (h : Grants a s) (i : Fin 6) (d : Domain) : Grants a (Machine.preemptFor i d s) := by
  unfold Machine.preemptFor
  try dsimp only
  (repeat' split) <;> (repeat first | with_reducible exact h | with_reducible apply Grants.lowerAll |
      with_reducible apply Grants.joinRound | with_reducible apply Grants.reserve)

theorem weighPreemption (h : Grants a s) : Grants a (Machine.weighPreemption s) := by
  unfold Machine.weighPreemption
  (repeat' split) <;> (repeat first | with_reducible exact h | with_reducible apply Grants.preemptFor)

theorem serve (h : Grants a s) : Grants a (Machine.serve s) := by
  unfold Machine.serve
  (repeat' split) <;> (repeat first | with_reducible exact h | with_reducible apply Grants.weighPreemption |
      with_reducible apply Grants.serveHeads)

theorem settleBudget (h : Grants a s) (c : RoundCause) : Grants a (Machine.settleBudget c s) := by
  unfold Machine.settleBudget
  (repeat' split) <;> (repeat first | with_reducible exact h | with_reducible apply Grants.serve |
      with_reducible apply Grants.reduce)

theorem recompute (h : Grants a s) (c : RoundCause) : Grants a (Machine.recompute c s) := by
  unfold Machine.recompute
  (repeat' split) <;> (repeat first | with_reducible exact h | with_reducible apply Grants.settleBudget |
      with_reducible apply Grants.setB)

theorem reformCeiling (h : Grants a s) (i : Fin 6) : Grants a (Machine.reformCeiling i s) := by
  unfold Machine.reformCeiling
  try dsimp only
  (repeat' split) <;> (repeat first | with_reducible exact h | with_reducible apply Grants.adjustReservation |
      with_reducible apply Grants.syncQueue | with_reducible apply Grants.postGrant |
      with_reducible apply Grants.setDomain | assumption | rfl)

theorem reformCeilings (h : Grants a s) : Grants a (Machine.reformCeilings s) := by
  unfold Machine.reformCeilings
  repeat first | with_reducible exact h | with_reducible apply Grants.reformCeiling | with_reducible apply Grants.foldl |
      intro _ _ h

theorem recomputeCeilings (h : Grants a s) (c : RoundCause) : Grants a (Machine.recomputeCeilings c s) := by
  unfold Machine.recomputeCeilings
  try dsimp only
  split
  · exact (h.reformCeilings.recompute c).serve
  · exact h.reformCeilings.recompute c

theorem postRound (h : Grants a s) : Grants a (Machine.postRound s) := by
  unfold Machine.postRound
  repeat first | with_reducible exact h | with_reducible apply Grants.post

theorem clearRound (h : Grants a s) : Grants a (Machine.clearRound s) := h.alcSame rfl rfl rfl

theorem grantReservation (h : Grants a s) : Grants a (Machine.grantReservation s) := by
  unfold Machine.grantReservation
  (repeat' split) <;> (repeat first | with_reducible exact h | with_reducible apply Grants.raiseGrant |
      with_reducible apply Grants.reserve)

theorem closeRound (h : Grants a s) : Grants a (Machine.closeRound s) := by
  unfold Machine.closeRound
  repeat first | with_reducible exact h | with_reducible apply Grants.grantReservation |
      with_reducible apply Grants.clearRound | with_reducible apply Grants.postRound | with_reducible apply Grants.serve

theorem closeIfDone (h : Grants a s) : Grants a (Machine.closeIfDone s) := by
  unfold Machine.closeIfDone
  (repeat' split) <;> (repeat first | with_reducible exact h | with_reducible apply Grants.closeRound)

theorem withdrawOverdue (h : Grants a s) (d : Domain) : Grants a (Machine.withdrawOverdue d s) := by
  unfold Machine.withdrawOverdue
  (repeat' split) <;> (repeat first | with_reducible exact h | with_reducible apply Grants.withdrawCause)

theorem settleDomain (h : Grants a s) (i : Fin 6) {d : Domain} (hd : s.alc.domains.get i = some d) :
    Grants a (Machine.settleDomain i d s) := by
  unfold Machine.settleDomain
  exact ((h.setDomain hd (by rfl)).withdrawOverdue d).postGrant .round i

theorem refreshB (h : Grants a s) : Grants a (Machine.refreshB s) := by
  unfold Machine.refreshB
  repeat first | with_reducible exact h | with_reducible apply Grants.setB

theorem addOverdue (h : Grants a s) (d : Domain) : Grants a (Machine.addOverdue d s) := by
  unfold Machine.addOverdue
  (repeat' split) <;> (repeat first | with_reducible exact h | with_reducible apply Grants.addCause)

theorem checkHold (h : Grants a s) (i : Fin 6) {d : Domain} (hd : s.alc.domains.get i = some d) (timeMs : Nat)
    (compliant : Bool) : Grants a (Machine.checkHold i d timeMs compliant s) := by
  unfold Machine.checkHold
  (repeat' split) <;>
    (repeat first | with_reducible exact h | exact h.setDomain hd (by rfl) | exact h.settleDomain i hd)

theorem checkDomain (h : Grants a s) (timeMs : Nat) (i : Fin 6) : Grants a (Machine.checkDomain timeMs i s) := by
  unfold Machine.checkDomain
  dsimp only
  (repeat' split) <;>
    (repeat first | with_reducible exact h | exact h.settleDomain i (by assumption) |
        exact h.checkHold i (by assumption) _ _)

end Grants

end Sys2Proof.Machine
end

