-- ==== Sys2Proof/Laws/Fixed.lean ====
section
/-! SUPPORT. What a hand-over to zones, fans and the Allocator leaves as it is: the clock, the limits, the placement, the
source record, the channels and electrodes, the zones' setup, the domains' setup, permit and request. One lemma per
operation. -/

namespace Sys2Proof.Machine

/-- The setup fields of a zone (R80). -/
def Zone.setup? (z : Zone) : Bool × ZoneSource × List (Fin 16) × List (Fin 2) := (z.enabled, z.source, z.channels, z.fanMap)

/-- The state after a hand-over. -/
structure Fixed (s t : State) : Prop where
  now : t.now = s.now
  lst : t.lst = s.lst
  plu : t.plu = s.plu
  srm : t.srm = s.srm
  pending : t.pending = s.pending
  channels : t.msu.channels = s.msu.channels
  scanList : t.msu.scanList = s.msu.scanList
  last : t.msu.last = s.msu.last
  electrodes : t.csu.electrodes = s.csu.electrodes
  mdc : { t.mdc with mode := s.mdc.mode } = s.mdc
  link : t.slk = { s.slk with notices := t.slk.notices, dropped := t.slk.dropped }
  cores : ∀ i, t.alc.coreOf i = s.alc.coreOf i
  lines : ∀ n, t.clu.get n = { s.clu.get n with causes := (t.clu.get n).causes }
  zones : ∀ z, (t.znm.zones.get z).setup? = (s.znm.zones.get z).setup?

namespace Fixed

set_option linter.unusedTactic false
set_option linter.unreachableTactic false
set_option linter.unnecessarySeqFocus false

theorem refl (s : State) : Fixed s s :=
  ⟨rfl, rfl, rfl, rfl, rfl, rfl, rfl, rfl, rfl, rfl, rfl, fun _ => rfl, fun _ => rfl, fun _ => rfl⟩

variable {a s t : State}

theorem trans (h : Fixed a s) (k : Fixed s t) : Fixed a t where
  now := k.now.trans h.now
  lst := k.lst.trans h.lst
  plu := k.plu.trans h.plu
  srm := k.srm.trans h.srm
  pending := k.pending.trans h.pending
  channels := k.channels.trans h.channels
  scanList := k.scanList.trans h.scanList
  last := k.last.trans h.last
  electrodes := k.electrodes.trans h.electrodes
  mdc := by rw [← h.mdc, ← k.mdc]
  link := by rw [k.link, h.link]
  cores := fun i => (k.cores i).trans (h.cores i)
  lines := fun n => by rw [k.lines n, h.lines n]
  zones := fun z => (k.zones z).trans (h.zones z)

theorem step (h : Fixed a s) (h1 : t.now = s.now) (h2 : t.lst = s.lst) (h3 : t.plu = s.plu) (h4 : t.srm = s.srm)
    (h5 : t.pending = s.pending) (h6 : t.msu.channels = s.msu.channels) (h7 : t.msu.scanList = s.msu.scanList)
    (h8 : t.msu.last = s.msu.last) (h9 : t.csu.electrodes = s.csu.electrodes)
    (h10 : { t.mdc with mode := s.mdc.mode } = s.mdc)
    (h11 : t.slk = { s.slk with notices := t.slk.notices, dropped := t.slk.dropped })
    (h12 : ∀ i, t.alc.coreOf i = s.alc.coreOf i)
    (h13 : ∀ n, t.clu.get n = { s.clu.get n with causes := (t.clu.get n).causes })
    (h14 : ∀ z, (t.znm.zones.get z).setup? = (s.znm.zones.get z).setup?) : Fixed a t :=
  h.trans ⟨h1, h2, h3, h4, h5, h6, h7, h8, h9, h10, h11, h12, h13, h14⟩

/-- An allocation is a hand-over. -/
theorem grants (h : Fixed a s) (g : Grants s t) : Fixed a t := by
  have e := g.only
  refine h.step ?_ ?_ ?_ ?_ ?_ ?_ ?_ ?_ ?_ ?_ ?_ g.cores g.lines ?_ <;> rw [e]
  intro z
  rfl

theorem post (h : Fixed a s) (n : Notice) : Fixed a (s.post n) := h.grants ((Grants.refl s).post n)

theorem recompute (h : Fixed a s) (c : RoundCause) :
    Fixed a (Machine.recompute c s) := h.grants ((Grants.refl s).recompute c)

theorem recomputeCeilings (h : Fixed a s) (c : RoundCause) : Fixed a (Machine.recomputeCeilings c s) :=
  h.grants ((Grants.refl s).recomputeCeilings c)

theorem addCauseTo (h : Fixed a s) (l : List (Fin 6)) (c : ClampCause) : Fixed a (Machine.addCauseTo l c s) :=
  h.grants ((Grants.refl s).addCauseTo l c)

theorem withdrawCauseFrom (h : Fixed a s) (l : List (Fin 6)) (c : ClampCause) :
    Fixed a (Machine.withdrawCauseFrom l c s) :=
  h.grants ((Grants.refl s).withdrawCauseFrom l c)

theorem foldl {β : Type} {f : State → β → State} (hf : ∀ s b, Fixed a s → Fixed a (f s b)) (l : List β)
    (h : Fixed a s) : Fixed a (l.foldl f s) := by
  induction l generalizing s with
  | nil => exact h
  | cons b l ih => exact ih (hf s b h)

theorem inFreeOrder {agent : Nat → State → State} (h : Fixed a s) (n : Nat)
    (hf : ∀ i s, Fixed a s → Fixed a (agent i s)) : Fixed a (Machine.inFreeOrder n agent s) :=
  foldl (fun s b h => hf b s h) _
    (h.step rfl rfl rfl rfl rfl rfl rfl rfl rfl rfl rfl (fun _ => rfl) (fun _ => rfl) (fun _ => rfl))

theorem withBudget (h : Fixed a s) (f : Budget → Budget) : Fixed a (s.withBudget f) :=
  h.step rfl rfl rfl rfl rfl rfl rfl rfl rfl rfl rfl (fun _ => rfl) (fun _ => rfl) (fun _ => rfl)

theorem handReduction (h : Fixed a s) (z : Fin 6) (r : Nat) : Fixed a (Machine.handReduction z r s) := by
  unfold Machine.handReduction
  repeat first | with_reducible exact h | with_reducible apply Fixed.withBudget | with_reducible apply Fixed.recompute |
      exact h.step rfl rfl rfl rfl rfl rfl rfl rfl rfl rfl rfl (fun _ => rfl) (fun _ => rfl) (fun _ => rfl) | exact rfl

theorem handSeverity (h : Fixed a s) (z : Fin 6) (v : Bool) : Fixed a (Machine.handSeverity z v s) := by
  unfold Machine.handSeverity
  repeat first | with_reducible exact h | with_reducible apply Fixed.withBudget | with_reducible apply Fixed.recompute |
      exact h.step rfl rfl rfl rfl rfl rfl rfl rfl rfl rfl rfl (fun _ => rfl) (fun _ => rfl) (fun _ => rfl) | exact rfl

theorem handDerate (h : Fixed a s) (n : Fin 2) (v : Bool) : Fixed a (Machine.handDerate n v s) := by
  unfold Machine.handDerate
  repeat first | with_reducible exact h | with_reducible apply Fixed.withBudget | with_reducible apply Fixed.recompute |
      exact h.step rfl rfl rfl rfl rfl rfl rfl rfl rfl rfl rfl (fun _ => rfl) (fun _ => rfl) (fun _ => rfl) | exact rfl

theorem takeNewSet (h : Fixed a s) (c : RoundCause) : Fixed a (Machine.takeNewSet c s) := by
  unfold Machine.takeNewSet
  try dsimp only
  repeat first | with_reducible exact h | with_reducible apply Fixed.withBudget |
      with_reducible apply Fixed.recomputeCeilings |
      exact h.step rfl rfl rfl rfl rfl rfl rfl rfl rfl rfl rfl (fun _ => rfl) (fun _ => rfl) (fun _ => rfl) | exact rfl

theorem withFans (h : Fixed a s) (f : Vector Fan 2 → Vector Fan 2) : Fixed a (s.withFans f) :=
  h.step rfl rfl rfl rfl rfl rfl rfl rfl rfl rfl rfl (fun _ => rfl) (fun _ => rfl) (fun _ => rfl)

theorem setFan (h : Fixed a s) (n : Fin 2) (f : Fan) : Fixed a (Machine.setFan n f s) := by
  unfold Machine.setFan
  try dsimp only
  (repeat' split) <;> (repeat first | with_reducible exact h | with_reducible apply Fixed.withFans |
      with_reducible apply Fixed.handDerate | with_reducible apply Fixed.post |
      exact h.step rfl rfl rfl rfl rfl rfl rfl rfl rfl rfl rfl (fun _ => rfl) (fun _ => rfl) (fun _ => rfl) | exact rfl)

theorem applyTarget (h : Fixed a s) (n : Fin 2) : Fixed a (Machine.applyTarget n s) := by
  unfold Machine.applyTarget
  try dsimp only
  (repeat' split) <;> (repeat first | with_reducible exact h | with_reducible apply Fixed.setFan |
      exact h.step rfl rfl rfl rfl rfl rfl rfl rfl rfl rfl rfl (fun _ => rfl) (fun _ => rfl) (fun _ => rfl) | exact rfl)

theorem applyTargets (h : Fixed a s) : Fixed a (Machine.applyTargets s) := by
  unfold Machine.applyTargets
  repeat first | with_reducible exact h | with_reducible apply Fixed.applyTarget |
      exact h.step rfl rfl rfl rfl rfl rfl rfl rfl rfl rfl rfl (fun _ => rfl) (fun _ => rfl) (fun _ => rfl) |
      with_reducible apply Fixed.foldl | intro _ _ h | exact rfl

theorem advanceScan (h : Fixed a s) : Fixed a (Machine.advanceScan s) := by
  unfold Machine.advanceScan
  repeat first | with_reducible exact h |
      exact h.step rfl rfl rfl rfl rfl rfl rfl rfl rfl rfl rfl (fun _ => rfl) (fun _ => rfl) (fun _ => rfl) | exact rfl

theorem beginMeasurement (h : Fixed a s) : Fixed a (Machine.beginMeasurement s) := by
  unfold Machine.beginMeasurement
  repeat first | with_reducible exact h | with_reducible apply Fixed.advanceScan |
      exact h.step rfl rfl rfl rfl rfl rfl rfl rfl rfl rfl rfl (fun _ => rfl) (fun _ => rfl) (fun _ => rfl) | exact rfl

theorem freeFrontEnd (h : Fixed a s) : Fixed a (Machine.freeFrontEnd s) := by
  unfold Machine.freeFrontEnd
  (repeat' split) <;> (repeat first | with_reducible exact h | with_reducible apply Fixed.beginMeasurement |
      exact h.step rfl rfl rfl rfl rfl rfl rfl rfl rfl rfl rfl (fun _ => rfl) (fun _ => rfl) (fun _ => rfl) | exact rfl)

theorem setClaim (h : Fixed a s) (k : Claim) : Fixed a (s.setClaim k) :=
  h.step rfl rfl rfl rfl rfl rfl rfl rfl rfl rfl rfl (fun _ => rfl) (fun _ => rfl) (fun _ => rfl)

theorem stopContact (h : Fixed a s) : Fixed a (Machine.stopContact s) := by
  unfold Machine.stopContact
  try dsimp only
  (repeat' split) <;> (repeat first | with_reducible exact h | with_reducible apply Fixed.setClaim |
      with_reducible apply Fixed.freeFrontEnd |
      exact h.step rfl rfl rfl rfl rfl rfl rfl rfl rfl rfl rfl (fun _ => rfl) (fun _ => rfl) (fun _ => rfl) | exact rfl)

theorem wakeContact (h : Fixed a s) : Fixed a (Machine.wakeContact s) := by
  refine h.step rfl rfl rfl rfl rfl rfl rfl rfl ?_ rfl rfl (fun _ => rfl) (fun _ => rfl) (fun _ => rfl)
  simp only [Machine.wakeContact, State.withCsu_csu, Csu.clearGroupPending, Csu.dropDozeLearning]
  split <;> rfl

theorem setZone (h : Fixed a s) (z : Fin 6) (r : Zone) (hr : r.setup? = (s.znm.zones.get z).setup? := by rfl) :
    Fixed a (s.setZone z r) :=
  h.step rfl rfl rfl rfl rfl rfl rfl rfl rfl rfl rfl (fun _ => rfl) (fun _ => rfl) (fun y => by
    simp only [State.setZone_znm, get_set]
    split
    · rename_i e
      subst e
      exact hr
    · rfl)

theorem mapZones (h : Fixed a s) (f : Fin 6 → Zone → Zone)
    (hf : ∀ z r, (f z r).setup? = r.setup? := by exact fun _ _ => rfl) : Fixed a (s.mapZones f) :=
  h.step rfl rfl rfl rfl rfl rfl rfl rfl rfl rfl rfl (fun _ => rfl) (fun _ => rfl) (fun z => by simp [hf])

theorem handDemand (h : Fixed a s) (z : Fin 6) (n : Fin 2) : Fixed a (Machine.handDemand z n s) := by
  unfold Machine.handDemand
  dsimp only
  split
  · exact h
  · exact (h.setZone z _).applyTarget n

theorem handDemands (h : Fixed a s) (z : Fin 6) : Fixed a (Machine.handDemands z s) := by
  unfold Machine.handDemands
  repeat first | with_reducible exact h | with_reducible apply Fixed.handDemand |
      exact h.step rfl rfl rfl rfl rfl rfl rfl rfl rfl rfl rfl (fun _ => rfl) (fun _ => rfl) (fun _ => rfl) |
      with_reducible apply Fixed.foldl | intro _ _ h | exact rfl

theorem reformDemands (h : Fixed a s) : Fixed a (Machine.reformDemands s) := by
  unfold Machine.reformDemands
  exact (h.mapZones _).applyTargets

theorem setMode (h : Fixed a s) (m : Mode) : Fixed a (s.setMode m) :=
  h.step rfl rfl rfl rfl rfl rfl rfl rfl rfl rfl rfl (fun _ => rfl) (fun _ => rfl) (fun _ => rfl)

theorem wakeUp (h : Fixed a s) : Fixed a (Machine.wakeUp s) := by
  unfold Machine.wakeUp
  repeat first | with_reducible exact h | with_reducible apply Fixed.setMode | with_reducible apply Fixed.reformDemands |
      with_reducible apply Fixed.wakeContact | with_reducible apply Fixed.stopContact |
      exact h.step rfl rfl rfl rfl rfl rfl rfl rfl rfl rfl rfl (fun _ => rfl) (fun _ => rfl) (fun _ => rfl) | exact rfl

theorem postZone (h : Fixed a s) (z : Fin 6) : Fixed a (Machine.postZone z s) := by
  unfold Machine.postZone
  try dsimp only
  repeat first | with_reducible exact h | with_reducible apply Fixed.post |
      exact h.step rfl rfl rfl rfl rfl rfl rfl rfl rfl rfl rfl (fun _ => rfl) (fun _ => rfl) (fun _ => rfl) | exact rfl

theorem updateThermalClaim (h : Fixed a s) : Fixed a (Machine.updateThermalClaim s) := by
  unfold Machine.updateThermalClaim
  (repeat' split) <;> (repeat first | with_reducible exact h | with_reducible apply Fixed.withdrawCauseFrom |
      with_reducible apply Fixed.addCauseTo |
      exact h.step rfl rfl rfl rfl rfl rfl rfl rfl rfl rfl rfl (fun _ => rfl) (fun _ => rfl) (fun _ => rfl) | exact rfl)

theorem handSevere (h : Fixed a s) (z : Fin 6) (old : ZoneState) : Fixed a (Machine.handSevere z old s) := by
  unfold Machine.handSevere
  dsimp only
  split
  · exact h.updateThermalClaim
  · refine Fixed.foldl (fun u n h => ?_) _ (h.handSeverity _ _).updateThermalClaim
    split
    · exact h.applyTarget _
    · exact h

theorem zoneChanged (h : Fixed a s) (z : Fin 6) (old : ZoneState) (wakes : Bool) :
    Fixed a (Machine.zoneChanged z old wakes s) := by
  unfold Machine.zoneChanged
  (repeat' split) <;> (repeat first | with_reducible exact h | with_reducible apply Fixed.handSevere |
      with_reducible apply Fixed.postZone | with_reducible apply Fixed.wakeUp |
      exact h.step rfl rfl rfl rfl rfl rfl rfl rfl rfl rfl rfl (fun _ => rfl) (fun _ => rfl) (fun _ => rfl) | exact rfl)

theorem evaluateZone (h : Fixed a s) (z : Fin 6) : Fixed a (Machine.evaluateZone z s) := by
  unfold Machine.evaluateZone
  dsimp only
  split
  · exact h
  · split
    · exact h.handDemands z
    · exact ((h.setZone z _).zoneChanged _ _ _).handDemands z

theorem stepZone (h : Fixed a s) (z : Fin 6) : Fixed a (Machine.stepZone z s) := by
  unfold Machine.stepZone
  dsimp only
  split
  · exact h.setZone z _
  · exact (h.setZone z _).handReduction z _

theorem setConsumer (h : Fixed a s) (cause : RoundCause) (n : Nat) : Fixed a (Machine.setConsumer cause n s) := by
  unfold Machine.setConsumer
  (repeat' split) <;>
    (repeat first | with_reducible exact h | with_reducible apply Fixed.takeNewSet |
        with_reducible apply Fixed.evaluateZone |
      with_reducible apply Fixed.applyTargets)

theorem handSet (h : Fixed a s) (cause : RoundCause) : Fixed a (Machine.handSet cause s) := by
  unfold Machine.handSet
  split
  · exact h.inFreeOrder 8 fun i s h => h.setConsumer cause i
  · exact h

end Fixed

end Sys2Proof.Machine
end

