-- ==== Sys2Proof/Laws/Requests.lean ====
section
/-! SUPPORT. Requests: what the link does with a request row, and each row's kind and owner. `exec_X` is the row X. -/

namespace Sys2Proof.Machine

/-- A request that the link takes is answered by its owner. -/
theorem acceptRequest_takes {kind tag : Byte} {owner : State → State × Answer} {s : State} (h : s.takes) :
    acceptRequest kind tag owner s = (owner s).1.answered kind tag (owner s).2 := by
  obtain ⟨h1, h2, h3⟩ := h
  simp [acceptRequest, h1, h3, Nat.not_le.mpr h2, State.answered, answeredSlot]

/-- With both slots occupied it is lost. -/
theorem acceptRequest_full {kind tag : Byte} {owner : State → State × Answer} {s : State} (h1 : s.slk.breakActive = false)
    (h2 : 2 ≤ s.slk.slots.length) : acceptRequest kind tag owner s = detect .linkOverrun 0 s := by
  simp [acceptRequest, h1, h2]

/-- While a RESTART is awaited it is held. -/
theorem acceptRequest_awaited {kind tag : Byte} {owner : State → State × Answer} {s : State}
    (h1 : s.slk.breakActive = false) (h2 : s.slk.slots.length < 2) (h3 : s.mdc.restartAwaited = true) :
    acceptRequest kind tag owner s = s.occupy { kind := kind, tag := tag, reply := none, sending := false } := by
  simp [acceptRequest, h1, h3, Nat.not_le.mpr h2]

/-- In a break it is not taken. -/
theorem acceptRequest_break {kind tag : Byte} {owner : State → State × Answer} {s : State} (h : s.slk.breakActive = true) :
    acceptRequest kind tag owner s = s := by simp [acceptRequest, h]

/-- Time does not change whether a request is taken. -/
theorem takes_elapse {s : State} (h : s.takes) (dt : Nat) : (s.elapse dt).takes := h

/-- A request whose owner keeps the link leaves the link in order (R174). -/
theorem linkOk_acceptRequest {kind tag : Byte} {owner : State → State × Answer} {s : State}
    (h : ∀ st, (owner st).1.slk.slots = st.slk.slots ∧ (owner st).1.slk.tx = st.slk.tx ∧ (owner st).1.slk.cut = st.slk.cut ∧
      (owner st).1.slk.txStart = st.slk.txStart)
    (hs : LinkOk s.slk) :
    LinkOk (acceptRequest kind tag owner s).slk := by
  obtain ⟨h1, h2, h3⟩ := hs
  unfold acceptRequest
  split
  · exact ⟨h1, h2, h3⟩
  · split
    · have k := ((Keeps.refl s).detect .linkOverrun 0).link
      rw [k]
      exact ⟨h1, h2, h3⟩
    · rename_i hl
      have hl : s.slk.slots.length < 2 := Nat.not_le.mp hl
      split
      · refine ⟨?_, ?_, ?_⟩
        · simp only [State.occupy_slk, List.length_append, List.length_singleton]
          omega
        · simp only [State.occupy_slk, List.countP_append]
          exact h2
        · simpa using h3
      · obtain ⟨e1, e2, e3, e4⟩ := h s
        refine ⟨?_, ?_, ?_⟩
        · simp only [State.occupy_slk, e1, List.length_append, List.length_singleton]
          omega
        · simp only [State.occupy_slk, e1, e2, List.countP_append]
          exact h2
        · simpa [e1, e2, e3, e4] using h3

theorem exec_identify (dt : Nat) (tag : Byte) (s : State) :
    exec (.identify dt tag) s = .next (acceptRequest 0x01 tag identifyOwner (s.elapse dt)) := rfl

theorem exec_status (dt : Nat) (tag : Byte) (s : State) :
    exec (.status dt tag) s = .next (acceptRequest 0x02 tag statusOwner (s.elapse dt)) := rfl

theorem exec_restart (dt : Nat) (tag : Byte) (s : State) :
    exec (.restart dt tag) s = .next (acceptRequest 0x03 tag restartOwner (s.elapse dt)) := rfl

theorem exec_run (dt : Nat) (tag : Byte) (s : State) :
    exec (.run dt tag) s = .next (acceptRequest 0x04 tag (finishing runOwner) (s.elapse dt)) := rfl

theorem exec_doze (dt : Nat) (tag : Byte) (s : State) :
    exec (.doze dt tag) s = .next (acceptRequest 0x05 tag (finishing dozeOwner) (s.elapse dt)) := rfl

theorem exec_wake (dt : Nat) (tag : Byte) (s : State) :
    exec (.wake dt tag) s = .next (acceptRequest 0x06 tag (finishing wakeOwner) (s.elapse dt)) := rfl

theorem exec_chassisLimits (dt : Nat) (tag : Byte) (f : ChassisLimits) (s : State) :
    exec (.chassisLimits dt tag f) s = .next (acceptRequest 0x08 tag (finishing (chassisLimits f)) (s.elapse dt)) := rfl

theorem exec_loadSet (dt : Nat) (tag : Byte) (number : Nat) (f : LimitSet) (s : State) :
    exec (.loadSet dt tag number f) s = .next (acceptRequest 0x09 tag (finishing (loadSet number f)) (s.elapse dt)) := rfl

theorem exec_readSet (dt : Nat) (tag : Byte) (selector : Nat) (s : State) :
    exec (.readSet dt tag selector) s = .next (acceptRequest 0x0A tag (readSet selector) (s.elapse dt)) := rfl

theorem exec_readSetChassis (dt : Nat) (tag : Byte) (s : State) :
    exec (.readSetChassis dt tag) s = .next (acceptRequest 0x0A tag readChassis (s.elapse dt)) := rfl

theorem exec_channelSetup (dt : Nat) (tag : Byte) (f : ChannelFields) (s : State) :
    exec (.channelSetup dt tag f) s = .next (acceptRequest 0x10 tag (channelSetup f) (s.elapse dt)) := rfl

theorem exec_scanList (dt : Nat) (tag : Byte) (channels : List Nat) (s : State) :
    exec (.scanList dt tag channels) s = .next (acceptRequest 0x11 tag (scanListOwner channels) (s.elapse dt)) := rfl

theorem exec_readChannels (dt : Nat) (tag : Byte) (first count : Nat) (s : State) :
    exec (.readChannels dt tag first count) s = .next (acceptRequest 0x12 tag (readChannels first count) (s.elapse dt)) := rfl

theorem exec_calOverrideSet (dt : Nat) (tag : Byte) (channel gain : Nat) (offset : Int) (s : State) :
    exec (.calOverrideSet dt tag channel gain offset) s = .next (acceptRequest 0x13 tag (calOverrideSet channel gain offset) (s.elapse dt)) := rfl

theorem exec_calOverrideRestore (dt : Nat) (tag : Byte) (channel : Nat) (s : State) :
    exec (.calOverrideRestore dt tag channel) s = .next (acceptRequest 0x13 tag (calOverrideRestore channel) (s.elapse dt)) := rfl

theorem exec_electrodeSetup (dt : Nat) (tag : Byte) (f : ElectrodeFields) (s : State) :
    exec (.electrodeSetup dt tag f) s = .next (acceptRequest 0x18 tag (electrodeSetup f) (s.elapse dt)) := rfl

theorem exec_electrodeSetupResolution (dt : Nat) (tag : Byte) (resolution : Nat) (s : State) :
    exec (.electrodeSetupResolution dt tag resolution) s = .next (acceptRequest 0x18 tag (finishing (electrodeSetupResolution resolution)) (s.elapse dt)) := rfl

theorem exec_readElectrodes (dt : Nat) (tag : Byte) (first count : Nat) (s : State) :
    exec (.readElectrodes dt tag first count) s = .next (acceptRequest 0x19 tag (readElectrodes first count) (s.elapse dt)) := rfl

theorem exec_rebase (dt : Nat) (tag : Byte) (s : State) :
    exec (.rebase dt tag) s = .next (acceptRequest 0x1A tag rebaseOwner (s.elapse dt)) := rfl

theorem exec_zoneSetup (dt : Nat) (tag : Byte) (f : ZoneFields) (s : State) :
    exec (.zoneSetup dt tag f) s = .next (acceptRequest 0x20 tag (zoneSetup f) (s.elapse dt)) := rfl

theorem exec_zoneFeed (dt : Nat) (tag : Byte) (zone : Nat) (v : Option Int) (s : State) :
    exec (.zoneFeed dt tag zone v) s = .next (acceptRequest 0x21 tag (finishing (zoneFeed zone v)) (s.elapse dt)) := rfl

theorem exec_readZones (dt : Nat) (tag : Byte) (first count : Nat) (s : State) :
    exec (.readZones dt tag first count) s = .next (acceptRequest 0x22 tag (readZones first count) (s.elapse dt)) := rfl

theorem exec_sourceSetup (dt : Nat) (tag : Byte) (f : SourceFields) (s : State) :
    exec (.sourceSetup dt tag f) s = .next (acceptRequest 0x28 tag (sourceSetup f) (s.elapse dt)) := rfl

theorem exec_sysCap (dt : Nat) (tag : Byte) (cap : Option Nat) (s : State) :
    exec (.sysCap dt tag cap) s = .next (acceptRequest 0x29 tag (sysCap cap) (s.elapse dt)) := rfl

theorem exec_clampForceSet (dt : Nat) (tag mask : Byte) (s : State) :
    exec (.clampForceSet dt tag mask) s = .next (acceptRequest 0x2A tag (clampForce mask (some .set)) (s.elapse dt)) := rfl

theorem exec_clampForceClear (dt : Nat) (tag mask : Byte) (s : State) :
    exec (.clampForceClear dt tag mask) s = .next (acceptRequest 0x2A tag (clampForce mask (some .clear)) (s.elapse dt)) := rfl

theorem exec_lineSetup (dt : Nat) (tag : Byte) (f : LineFields) (s : State) :
    exec (.lineSetup dt tag f) s = .next (acceptRequest 0x2B tag (lineSetup f) (s.elapse dt)) := rfl

theorem exec_domainDeclare (dt : Nat) (tag : Byte) (f : DomainFields) (s : State) :
    exec (.domainDeclare dt tag f) s = .next (acceptRequest 0x30 tag (domainDeclare f) (s.elapse dt)) := rfl

theorem exec_domainRetire (dt : Nat) (tag : Byte) (slot : Nat) (s : State) :
    exec (.domainRetire dt tag slot) s = .next (acceptRequest 0x31 tag (domainRetire slot) (s.elapse dt)) := rfl

theorem exec_domainRequest (dt : Nat) (tag : Byte) (slot value : Nat) (s : State) :
    exec (.domainRequest dt tag slot value) s = .next (acceptRequest 0x32 tag (domainRequest slot value) (s.elapse dt)) := rfl

theorem exec_domainSettled (dt : Nat) (tag : Byte) (slot : Nat) (s : State) :
    exec (.domainSettled dt tag slot) s = .next (acceptRequest 0x33 tag (domainSettled slot) (s.elapse dt)) := rfl

theorem exec_domainPermitOff (dt : Nat) (tag : Byte) (slot : Nat) (s : State) :
    exec (.domainPermitOff dt tag slot) s = .next (acceptRequest 0x34 tag (domainPermitOff slot) (s.elapse dt)) := rfl

theorem exec_domainPermitOn (dt : Nat) (tag : Byte) (slot : Nat) (s : State) :
    exec (.domainPermitOn dt tag slot) s = .next (acceptRequest 0x34 tag (domainPermitOn slot) (s.elapse dt)) := rfl

theorem exec_readGrants (dt : Nat) (tag : Byte) (first count : Nat) (s : State) :
    exec (.readGrants dt tag first count) s = .next (acceptRequest 0x35 tag (readGrants first count) (s.elapse dt)) := rfl

theorem exec_placementPin (dt : Nat) (tag : Byte) (code : Nat) (timeout : Option Nat) (s : State) :
    exec (.placementPin dt tag code timeout) s = .next (acceptRequest 0x38 tag (finishing (placementPin code timeout)) (s.elapse dt)) := rfl

theorem exec_placementUnpin (dt : Nat) (tag : Byte) (s : State) :
    exec (.placementUnpin dt tag) s = .next (acceptRequest 0x39 tag (finishing placementUnpin) (s.elapse dt)) := rfl

theorem exec_fanSetup (dt : Nat) (tag : Byte) (fan : Nat) (enabled : Bool) (ppr minDuty : Nat) (s : State) :
    exec (.fanSetup dt tag fan enabled ppr minDuty) s = .next (acceptRequest 0x3C tag (fanSetup fan enabled ppr minDuty) (s.elapse dt)) := rfl

theorem exec_fanRetry (dt : Nat) (tag : Byte) (fan : Nat) (s : State) :
    exec (.fanRetry dt tag fan) s = .next (acceptRequest 0x3D tag (fanRetry fan) (s.elapse dt)) := rfl

theorem exec_readFans (dt : Nat) (tag : Byte) (s : State) :
    exec (.readFans dt tag) s = .next (acceptRequest 0x3E tag readFans (s.elapse dt)) := rfl

theorem exec_faults (dt : Nat) (tag : Byte) (clear : Word) (report : Option Word) (s : State) :
    exec (.faults dt tag clear report) s = .next (acceptRequest 0x3F tag (faultsOwner clear report) (s.elapse dt)) := rfl

end Sys2Proof.Machine
end

