-- ==== Sys2Proof/Laws/Link.lean ====
section
/-! SUPPORT. The System Link's own operations: what the receiver, breaks and the transmitter leave as it is, what a waiting
sample of RXD can do, what the link's order rests on, and the levels of TXD. -/

namespace Sys2Proof.Machine

/-- The link's order rests on slots, transmitter, the beginning of a frame and its cut alone. -/
theorem linkOk_congr {k l : Slk} (h : LinkOk k) (hs : l.slots = k.slots) (ht : l.tx = k.tx) (hc : l.cut = k.cut)
    (hb : l.txStart = k.txStart) : LinkOk l := by
  unfold LinkOk at h ⊢; rw [hs, ht, hc, hb]; exact h

@[simp] theorem takeBreak_slk (s : State) :
    (takeBreak s).slk = { s.slk with
      startBit := none, heard := [], rx := .hunt, gapTimer := none, breakActive := true
      cut := if s.slk.tx = .idle then none else some s.now
      slots := s.slk.slots.filter fun r => r.reply.isNone || r.sending } := rfl

/-- A break keeps the link in order. -/
theorem linkOk_takeBreak {s : State} (h : LinkOk s.slk) : LinkOk (takeBreak s).slk := by
  obtain ⟨h1, h2, h3, _, h5⟩ := h
  refine ⟨le_trans (List.length_filter_le _ _) h1, ?_, ?_, fun h => ?_, h5⟩
  · refine Eq.trans ?_ h2
    change ((s.slk.slots.filter _).countP _ = _)
    rw [List.countP_filter]
    exact List.countP_congr fun r _ => by cases r.sending <;> simp
  · change ((s.slk.slots.filter _).all _ = true)
    exact List.all_eq_true.mpr fun r hr => List.all_eq_true.mp h3 r (List.mem_of_mem_filter hr)
  · intro idle
    exact h (by simp only [takeBreak_slk]; exact if_pos idle)

/-! ## Receiver -/

@[simp] theorem setReceiver_slk (r : Receiver) (gap : Option Nat) (s : State) :
    (setReceiver r gap s).slk = { s.slk with rx := r, gapTimer := gap } := rfl

@[simp] theorem startByte_slk (s : State) :
    (startByte s).slk =
      { s.slk with startBit := some s.now, heard := [.low], gapTimer := none, rxd := s.slk.rxd.settle .low } := rfl

@[simp] theorem endByte_slk (s : State) :
    (endByte s).slk = { s.slk with startBit := none, heard := [], rxd := s.slk.rxd.settle .high } := rfl

/-- The end of a check byte leaves the byte open or ends it. -/
theorem endCheckByte_eq (s : State) : endCheckByte s = s ∨ endCheckByte s = endByte s := by
  unfold endCheckByte; split
  · exact .inl rfl
  · exact .inr rfl

/-- Everything a byte does but a check byte: it ends, and the receiver and its gap timer move. -/
theorem takeByte_other {b : Byte} {stop : Nat} {s : State} (h : ∀ n l, s.slk.rx ≠ .check n l) :
    ∃ r g, takeByte b stop s = setReceiver r g (endByte s) := by
  have same : endByte s = setReceiver s.slk.rx s.slk.gapTimer (endByte s) := rfl
  unfold takeByte assemble
  cases e : s.slk.rx with
  | check n l => exact absurd e (h n l)
  | hunt => simp only [endByte_slk, e]; split; exacts [⟨_, _, rfl⟩, ⟨_, _, same⟩]
  | length => simp only [endByte_slk, e]; split <;> exact ⟨_, _, rfl⟩
  | body n l c => simp only [endByte_slk, e]; split <;> exact ⟨_, _, rfl⟩

/-- What a check byte does: the receiver goes to HUNT, and the frame is taken. -/
theorem takeByte_check {b : Byte} {stop : Nat} {s : State} {n : Nat} {l : List Byte} (h : s.slk.rx = .check n l) :
    takeByte b stop s = takeFrame n l b (setReceiver .hunt none (endCheckByte s)) := by
  unfold takeByte; rw [h]
  rcases endCheckByte_eq s with e | e <;> simp [assemble, e, h]

/-- Everything a framing error can do: nothing in HUNT, else the frame is abandoned and LINK_CHECK detected. -/
theorem frameError_eq (s : State) :
    frameError s = s ∨ frameError s = detect .linkCheck 0 (setReceiver .hunt none s) := by
  unfold frameError; split
  · exact .inl rfl
  · exact .inr rfl

/-! ## Samples -/

/-- Everything a sample can do to the receiver, by the accepted level: nothing, a level heard, a byte, a framing error, a
break or its end, or a start bit. -/
theorem receiveSample_cases (before after : Level) (s : State) :
    let t := s.withSlk fun k => { k with heard := k.heard ++ [after] }
    receiveSample before after s ∈
      [s, t, takeByte (byteHeard s.slk.heard) s.stopBitEnd t, frameError (endByte s), takeBreak s, s.withSlk (·.endBreak), startByte s] := by
  unfold receiveSample hearSample
  split_ifs <;> simp

/-- Everything a step does with no command waiting: nothing, or the first waiting sample at its time. -/
theorem takeSample_cases (s : State) :
    takeSample s = s ∨ ∃ level rest, s.slk.rxdWaiting = level :: rest ∧
      takeSample s = sampleRxd level (s.withSlk fun k => { k with rxdWaiting := rest }) := by
  unfold takeSample
  cases e : s.slk.rxdWaiting with
  | nil => exact .inl rfl
  | cons level rest => exact .inr ⟨level, rest, rfl, rfl⟩

/-! ## Transmitter -/

/-- What begins when the oldest waiting reply does: that slot, the first with a reply not being sent. -/
theorem startOldest_eq {l m : List RequestSlot} (h : startOldest l = some m) :
    ∃ a b r, l = a ++ r :: b ∧ m = a ++ { r with sending := true } :: b ∧ r.reply.isSome = true ∧ r.sending = false ∧
      ∀ x ∈ a, (x.reply.isSome && !x.sending) = false := by
  induction l generalizing m with
  | nil => simp [startOldest] at h
  | cons x l ih =>
    unfold startOldest at h
    split at h
    · rename_i hx
      simp only [Bool.and_eq_true, Bool.not_eq_true'] at hx
      exact ⟨[], l, x, rfl, (Option.some.inj h).symm, hx.1, hx.2, by simp⟩
    · rename_i hx
      cases e : startOldest l with
      | none => simp [e] at h
      | some k =>
        obtain ⟨a, b, r, rfl, rfl, hr, hs, ha⟩ := ih e
        rw [e] at h
        refine ⟨x :: a, b, r, rfl, (Option.some.inj h).symm, hr, hs, ?_⟩
        intro y hy
        rcases List.mem_cons.mp hy with rfl | hy
        · simpa using hx
        · exact ha y hy

/-- No reply begins exactly when none waits. -/
theorem startOldest_none (l : List RequestSlot) :
    startOldest l = none ↔ ∀ r ∈ l, (r.reply.isSome && !r.sending) = false := by
  induction l with
  | nil => simp [startOldest]
  | cons x l ih =>
    unfold startOldest
    split
    · rename_i hx; exact ⟨fun h => absurd h (by simp), fun h => absurd (h x (by simp)) (by rw [hx]; decide)⟩
    · rename_i hx
      rw [Option.map_eq_none_iff, ih]
      simp only [List.mem_cons, forall_eq_or_imp]
      exact ⟨fun h => ⟨by simpa using hx, h⟩, And.right⟩

/-! ## TXD -/

/-- A byte takes ten bit times. -/
@[simp] theorem byteLevels_length (b : Byte) : (byteLevels b).length = 10 := by simp [byteLevels]

/-- A frame takes ten bit times a byte. -/
@[simp] theorem frameLevels_length (f : List Byte) : (f.flatMap byteLevels).length = 10 * f.length := by
  induction f with
  | nil => rfl
  | cons b l ih => simp [ih]; omega

/-- The level of one bit time of a frame. -/
theorem frameLevels_getElem? (f : List Byte) (n k : Nat) (h : k < 10) :
    (f.flatMap byteLevels)[10 * n + k]? = f[n]?.bind fun b => (byteLevels b)[k]? := by
  induction f generalizing n with
  | nil => simp
  | cons b l ih =>
    rw [List.flatMap_cons]
    cases n with
    | zero => rw [List.getElem?_append_left (by simpa using h)]; simp
    | succ n =>
      rw [List.getElem?_append_right (by simp; omega), byteLevels_length,
        show 10 * (n + 1) + k - 10 = 10 * n + k by omega, ih]
      simp

/-- TXD is high while nothing is sent. -/
theorem txd_idle {s : State} (h : s.slk.txStart = none) : s.txd = .high := by simp [State.txd, h]

/-- A byte as the format spells it, sampled sixteen times a bit, is the byte that the receiver hears. -/
theorem byteHeard_byteLevels (b : Byte) : byteHeard ((byteLevels b).flatMap (List.replicate 16)) = b := by
  revert b
  decide +kernel

end Sys2Proof.Machine
end

