-- ==== Sys2Proof/Laws/Order.lean ====
section
/-! SUPPORT. The free order of blocks inside a step, the order in which power is taken from domains, and the raise queue: what
each leaves and reaches. -/

namespace Sys2Proof.Machine

/-! ## The free order (log 3) -/

theorem mem_firsts {a : Nat} {l : List Nat} : a ∈ firsts l ↔ a ∈ l := by
  induction l with
  | nil => simp [firsts]
  | cons b l ih => by_cases h : a = b <;> simp [firsts, h, ih]

theorem nodup_firsts (l : List Nat) : (firsts l).Nodup := by
  induction l with
  | nil => simp [firsts]
  | cons b l ih => simpa [firsts] using ih.filter _

/-- Every agent acts. -/
@[simp] theorem mem_orderOf {n k : Nat} {choice : List Nat} : k ∈ orderOf n choice ↔ k < n := by
  simp [orderOf, mem_firsts]

/-- No agent acts twice. -/
theorem nodup_orderOf (n : Nat) (choice : List Nat) : (orderOf n choice).Nodup := nodup_firsts _

/-- What every agent keeps is kept, whatever the order. -/
theorem inFreeOrder_keeps {P : State → Prop} {n : Nat} {agent : Nat → State → State} {s : State} (start : P s.takeChoice)
    (keep : ∀ i t, i < n → P t → P (agent i t)) : P (inFreeOrder n agent s) := by
  have h : ∀ (l : List Nat) (t : State), (∀ i ∈ l, i < n) → P t → P (l.foldl (fun u a => agent a u) t) := by
    intro l
    induction l with
    | nil => exact fun _ _ h => h
    | cons a l ih =>
      intro t hl ht
      exact ih _ (fun i hi => hl i (List.mem_cons_of_mem _ hi)) (keep a t (hl a List.mem_cons_self) ht)
  exact h _ _ (fun i hi => mem_orderOf.mp hi) start

/-- What one agent makes, and every agent keeps, holds at the end, whatever the order. -/
theorem inFreeOrder_makes {P Q : State → Prop} {n k : Nat} {agent : Nat → State → State} {s : State} (hk : k < n)
    (start : P s.takeChoice) (keep : ∀ i t, i < n → P t → P (agent i t)) (make : ∀ t, P t → Q (agent k t))
    (hold : ∀ i t, i < n → P t → Q t → Q (agent i t)) : Q (inFreeOrder n agent s) := by
  have h : ∀ (l : List Nat) (t : State), (∀ i ∈ l, i < n) → P t → (Q t ∨ k ∈ l) → Q (l.foldl (fun u a => agent a u) t) := by
    intro l
    induction l with
    | nil => exact fun _ _ _ h => h.elim id (by simp)
    | cons a l ih =>
      intro t hl ht hq
      have ha := hl a List.mem_cons_self
      refine ih _ (fun i hi => hl i (List.mem_cons_of_mem _ hi)) (keep a t ha ht) ?_
      rcases hq with hq | hq
      · exact .inl (hold a t ha ht hq)
      · rcases List.mem_cons.mp hq with rfl | hq
        · exact .inl (make t ht)
        · exact .inr hq
  exact h _ _ (fun i hi => mem_orderOf.mp hi) start (.inr (mem_orderOf.mpr hk))

/-! ## Taking power (R133, R140) -/

/-- A slot outside the order keeps its grant. -/
theorem takeFrom_get_of_not_mem (floorOf : Fin 6 → Nat) {l : List (Fin 6)} {i : Fin 6} (hi : i ∉ l) (need : Nat)
    (g : Vector Nat 6) : (takeFrom floorOf l need g).get i = g.get i := by
  induction l generalizing need g with
  | nil => rfl
  | cons j l ih =>
    have hj : j ≠ i := fun h => hi (h ▸ List.mem_cons_self)
    simp [takeFrom, ih (fun h => hi (List.mem_cons_of_mem _ h)), hj]

/-- No grant rises. -/
theorem takeFrom_le (floorOf : Fin 6 → Nat) (l : List (Fin 6)) (need : Nat) (g : Vector Nat 6) (i : Fin 6) :
    (takeFrom floorOf l need g).get i ≤ g.get i := by
  induction l generalizing need g with
  | nil => exact le_rfl
  | cons j l ih =>
    refine (ih _ _).trans ?_
    by_cases h : j = i
    · subst h; simp
    · simp [h]

/-- No grant falls below its floor. -/
theorem takeFrom_floor (floorOf : Fin 6 → Nat) (l : List (Fin 6)) (need : Nat) (g : Vector Nat 6) (i : Fin 6)
    (h : floorOf i ≤ g.get i) : floorOf i ≤ (takeFrom floorOf l need g).get i := by
  induction l generalizing need g with
  | nil => exact h
  | cons j l ih =>
    refine ih _ _ ?_
    by_cases e : j = i
    · subst e; simp; omega
    · simpa [e] using h

/-- A slot with no more than its floor keeps its grant. -/
theorem takeFrom_get_of_le_floor (floorOf : Fin 6 → Nat) (l : List (Fin 6)) (need : Nat) {g : Vector Nat 6} {i : Fin 6}
    (h : g.get i ≤ floorOf i) : (takeFrom floorOf l need g).get i = g.get i := by
  induction l generalizing need g with
  | nil => rfl
  | cons j l ih =>
    have same : (g.set j (g.get j - min (g.get j - floorOf j) need)).get i = g.get i := by
      rw [get_set]
      split
      · next e =>
        subst e
        omega
      · rfl
    rw [takeFrom, ih _ (by rw [same]; exact h), same]

/-- With nothing needed nothing is taken. -/
theorem takeFrom_zero (floorOf : Fin 6 → Nat) (l : List (Fin 6)) (g : Vector Nat 6) : takeFrom floorOf l 0 g = g := by
  induction l generalizing g with
  | nil => rfl
  | cons j l ih =>
    have : g.set j (g.get j - 0) = g := table_ext fun i => by rw [get_set]; split <;> simp_all
    simp only [takeFrom, Nat.min_zero, Nat.sub_zero] at *
    rw [this, ih]

/-- A slot of the order is taken from only when every slot before it is at its floor. -/
theorem takeFrom_order (floorOf : Fin 6 → Nat) (a b : List (Fin 6)) (i j : Fin 6) (need : Nat) (g : Vector Nat 6)
    (nodup : (a ++ i :: b).Nodup) (floor : floorOf i ≤ g.get i)
    (taken : (takeFrom floorOf (a ++ i :: b) need g).get j < g.get j) (hj : j ∈ b) :
    (takeFrom floorOf (a ++ i :: b) need g).get i = floorOf i := by
  induction a generalizing need g with
  | nil =>
    simp only [List.nil_append, List.nodup_cons] at nodup taken ⊢
    simp only [takeFrom] at taken ⊢
    have hij : i ≠ j := fun h => nodup.1 (h ▸ hj)
    rw [takeFrom_get_of_not_mem _ nodup.1]
    by_cases hn : g.get i - floorOf i ≤ need
    · simp [Nat.min_eq_left hn]; omega
    · rw [Nat.min_eq_right (by omega), Nat.sub_self, takeFrom_zero] at taken
      simp [hij] at taken
  | cons k a ih =>
    simp only [List.cons_append, List.nodup_cons, List.mem_append, List.mem_cons, not_or] at nodup
    simp only [List.cons_append, takeFrom] at taken ⊢
    have hki : k ≠ i := nodup.1.2.1
    have hkj : k ≠ j := fun h => nodup.1.2.2 (h ▸ hj)
    exact ih _ _ nodup.2 (by simpa [hki] using floor) (by simpa [hkj] using taken)

/-- What is taken, over the order: the need, as far as the grants above their floors go. -/
theorem takeFrom_sum (floorOf : Fin 6 → Nat) (l : List (Fin 6)) (need : Nat) (g : Vector Nat 6) (nodup : l.Nodup)
    (floors : ∀ i ∈ l, floorOf i ≤ g.get i) :
    (l.map fun i => (takeFrom floorOf l need g).get i).sum + min need (l.map fun i => g.get i - floorOf i).sum =
      (l.map fun i => g.get i).sum := by
  induction l generalizing need g with
  | nil => simp
  | cons j l ih =>
    simp only [List.nodup_cons] at nodup
    have hf := floors j List.mem_cons_self
    have keep : ∀ f : Nat → Fin 6 → Nat, ∀ x, (l.map fun i => f ((g.set j x).get i) i) = l.map fun i => f (g.get i) i := by
      intro f x
      refine List.map_congr_left fun i hi => ?_
      have : j ≠ i := fun h => nodup.1 (h ▸ hi)
      simp [this]
    have h := ih (need - min (g.get j - floorOf j) need) (g.set j (g.get j - min (g.get j - floorOf j) need)) nodup.2
      (fun i hi => by
        have : j ≠ i := fun h => nodup.1 (h ▸ hi)
        simpa [this] using floors i (List.mem_cons_of_mem _ hi))
    rw [keep (fun x i => x - floorOf i), keep (fun x _ => x)] at h
    have hj := takeFrom_get_of_not_mem floorOf nodup.1 (need - min (g.get j - floorOf j) need)
      (g.set j (g.get j - min (g.get j - floorOf j) need))
    simp only [List.map_cons, List.sum_cons, takeFrom]
    rw [hj]
    simp only [get_set, if_true]
    omega

/-! ## The order of taking (R133, R140) -/

theorem mem_ofPriority {a : Alc} {p : Nat} {i : Fin 6} :
    i ∈ a.ofPriority p ↔ ∃ d, a.domains.get i = some d ∧ d.priority = p := by
  have : i ∈ six.reverse := by revert i; decide
  simp only [Alc.ofPriority, List.mem_filter, this, true_and]
  split <;> simp_all

/-- The slots power is taken from: those of the domains of the priorities meant. -/
theorem mem_takeOrder {a : Alc} {least : Nat} {i : Fin 6} :
    i ∈ a.takeOrder least ↔ ∃ d, a.domains.get i = some d ∧ least ≤ d.priority ∧ d.priority ≤ 3 := by
  simp only [Alc.takeOrder, List.mem_flatMap, List.mem_filter, mem_ofPriority, decide_eq_true_eq]
  constructor
  · rintro ⟨p, ⟨hp, hl⟩, d, hd, rfl⟩
    refine ⟨d, hd, hl, ?_⟩
    simp only [List.mem_cons, List.not_mem_nil, or_false] at hp
    omega
  · rintro ⟨d, hd, hl, h3⟩
    refine ⟨d.priority, ⟨?_, hl⟩, d, hd, rfl⟩
    simp only [List.mem_cons, List.not_mem_nil, or_false]
    omega

/-- A slot stands before another in the order: the higher priority number first, and in it the higher slot. -/
def Alc.before (a : Alc) (i j : Fin 6) : Prop :=
  ∃ d e, a.domains.get i = some d ∧ a.domains.get j = some e ∧
    (e.priority < d.priority ∨ (e.priority = d.priority ∧ j < i))

theorem pairwise_takeOrder (a : Alc) (least : Nat) : (a.takeOrder least).Pairwise a.before := by
  rw [Alc.takeOrder, List.pairwise_flatMap]
  constructor
  · intro p _
    have h : (a.ofPriority p).Pairwise (fun i j => j < i) :=
      List.Pairwise.filter _ (by decide : six.reverse.Pairwise fun i j => j < i)
    refine h.imp_of_mem fun {i j} hi hj hlt => ?_
    obtain ⟨d, hd, rfl⟩ := mem_ofPriority.mp hi
    obtain ⟨e, he, hp⟩ := mem_ofPriority.mp hj
    exact ⟨d, e, hd, he, .inr ⟨hp, hlt⟩⟩
  · have h : ([3, 2, 1, 0].filter (least ≤ ·) : List Nat).Pairwise (fun p q => q < p) :=
      List.Pairwise.filter _ (by decide)
    refine h.imp fun {p q} hlt i hi j hj => ?_
    obtain ⟨d, hd, rfl⟩ := mem_ofPriority.mp hi
    obtain ⟨e, he, rfl⟩ := mem_ofPriority.mp hj
    exact ⟨d, e, hd, he, .inl hlt⟩

theorem nodup_takeOrder (a : Alc) (least : Nat) : (a.takeOrder least).Nodup := by
  refine (pairwise_takeOrder a least).imp fun {i j} h e => ?_
  subst e
  obtain ⟨d, e, hd, he, h⟩ := h
  rw [hd] at he
  cases he
  rcases h with h | ⟨_, h⟩ <;> omega

/-! ## The raise queue (R130) -/

theorem QueueEntry.before_trans {a b c : QueueEntry} (h : a.before b = true) (k : b.before c = true) : a.before c = true := by
  simp only [QueueEntry.before, Bool.or_eq_true, Bool.and_eq_true, decide_eq_true_eq, beq_iff_eq, Fin.lt_def] at *
  omega

/-- Of two entries of different slots one is before the other. -/
theorem QueueEntry.before_total {a b : QueueEntry} (h : a.slot ≠ b.slot) (k : ¬a.before b = true) : b.before a = true := by
  have h' : a.slot.val ≠ b.slot.val := fun e => h (Fin.ext e)
  simp only [QueueEntry.before, Bool.or_eq_true, Bool.and_eq_true, decide_eq_true_eq, beq_iff_eq, Fin.lt_def] at *
  omega

@[simp] theorem mem_enqueue {e x : QueueEntry} {l : List QueueEntry} : x ∈ enqueue e l ↔ x = e ∨ x ∈ l := by
  induction l with
  | nil => simp [enqueue]
  | cons a l ih =>
    rw [enqueue]
    split
    · simp
    · simp [ih, or_left_comm]

/-- An entry for a slot that has none takes its place in the order. -/
theorem pairwise_enqueue {e : QueueEntry} {l : List QueueEntry} (h : l.Pairwise fun a b => a.before b = true)
    (hs : ∀ a ∈ l, e.slot ≠ a.slot) : (enqueue e l).Pairwise fun a b => a.before b = true := by
  induction l with
  | nil => simp [enqueue]
  | cons a l ih =>
    rw [List.pairwise_cons] at h
    rw [enqueue]
    split
    · next he =>
      refine List.pairwise_cons.mpr ⟨fun b hb => ?_, List.pairwise_cons.mpr h⟩
      rcases List.mem_cons.mp hb with rfl | hb
      · exact he
      · exact QueueEntry.before_trans he (h.1 b hb)
    · next he =>
      refine List.pairwise_cons.mpr ⟨fun b hb => ?_, ih h.2 fun x hx => hs x (List.mem_cons_of_mem _ hx)⟩
      rcases mem_enqueue.mp hb with rfl | hb
      · exact QueueEntry.before_total (hs a List.mem_cons_self) he
      · exact h.1 b hb

/-- Keeping one slot's entry in step changes nothing but the queue. -/
theorem syncQueue_eq (i : Fin 6) (s : State) : ∃ q, syncQueue i s = s.setQueue q := by
  unfold syncQueue
  split
  · exact ⟨_, rfl⟩
  · split
    · split
      · exact ⟨s.alc.queue, rfl⟩
      · exact ⟨_, rfl⟩
    · exact ⟨_, rfl⟩

/-- The entries of the other slots stay. -/
theorem mem_syncQueue_other {i : Fin 6} {s : State} {e : QueueEntry} (h : e.slot ≠ i) :
    e ∈ (syncQueue i s).alc.queue ↔ e ∈ s.alc.queue := by
  have he : ∀ p t, e ≠ ⟨i, p, t⟩ := fun p t k => h (by rw [k])
  unfold syncQueue
  split
  · simp [State.setQueue, dropEntry, h]
  · split
    · split
      · rfl
      · simp [State.setQueue, he]
    · simp [State.setQueue, dropEntry, h]

/-- The slot then has an entry exactly when its domain waits. -/
theorem syncQueue_waits (i : Fin 6) (s : State) :
    (∃ e ∈ (syncQueue i s).alc.queue, e.slot = i) ↔ ∃ d, s.alc.domains.get i = some d ∧ d.permit = .on ∧ d.held < d.wanted := by
  unfold syncQueue
  split
  · next h => simp [State.setQueue, dropEntry, h]
  · next d h =>
    split
    · next hw =>
      refine iff_of_true ?_ ⟨d, h, hw⟩
      split
      · next hq =>
        obtain ⟨e, he, hs⟩ := List.any_eq_true.mp hq
        exact ⟨e, he, by simpa using hs⟩
      · exact ⟨_, mem_enqueue.mpr (.inl rfl), rfl⟩
    · next hw =>
      refine iff_of_false (by simp [State.setQueue, dropEntry]) ?_
      rintro ⟨d', hd, hw'⟩
      rw [h] at hd
      cases hd
      exact hw hw'

/-- Keeping an entry in step keeps the queue in its order. -/
theorem pairwise_syncQueue {i : Fin 6} {s : State} (h : s.alc.queue.Pairwise fun a b => a.before b = true) :
    (syncQueue i s).alc.queue.Pairwise fun a b => a.before b = true := by
  unfold syncQueue
  split
  · exact h.filter _
  · split
    · split
      · exact h
      · next hq =>
        refine pairwise_enqueue h fun a ha e => hq ?_
        exact List.any_eq_true.mpr ⟨a, ha, by simpa using e.symm⟩
    · exact h.filter _

end Sys2Proof.Machine
end

