-- ==== Sys2Proof/Laws/Spared.lean ====
section
/-! SUPPORT. A slot that the Allocator passes over: EMPTY, or with a domain at its floor that wants no more. No recomputation,
serving or close of a round changes its record or posts a GRANT notice for it; and where queue, round and beneficiary do not
name it, they do not name it after: one lemma per operation. Then what a retirement leaves of the Allocator's records, and what a
serving does to the round. -/

namespace Sys2Proof.Machine

/-- A slot's content gives no reason to raise or to lower it: EMPTY, or a domain with no more than its floor, no less than it
wants, and within its ceiling. -/
def Rests (x : Option Domain) : Prop :=
  ∀ d, x = some d → d.held ≤ d.floor ∧ d.wanted ≤ d.held ∧ d.held ≤ d.effCeiling.getD d.held

/-- What the link shows holds whatever is posted but a GRANT notice for the slot. -/
def Holds (i : Fin 6) (k : Slk → Prop) : Prop := ∀ (l : Slk) (n : Notice), n.key ≠ (0x41, i.val) → k l → k (l.post n)

theorem holds_notice {i : Fin 6} {n : Notice} (hn : n.key = (0x41, i.val)) : Holds i (n ∈ ·.notices) :=
  fun _ _ hm h => mem_post (by rw [hn]; exact hm) h

theorem holds_dropped (i : Fin 6) : Holds i (·.dropped = true) := fun _ n _ h => dropped_post n h

theorem holds_true (i : Fin 6) : Holds i (fun _ => True) := fun _ _ _ _ => trivial

/-- Neither raise queue nor round names a slot. -/
def Alc.unnamed (a : Alc) (i : Fin 6) : Prop :=
  (∀ e ∈ a.queue, e.slot ≠ i) ∧ (∀ e ∈ a.round.affected, e.slot ≠ i) ∧ a.round.beneficiary ≠ some i

/-- A slot is passed over: its content is `x`, the link shows `k`, and given `unnamed` neither raise queue nor round names it. -/
structure Spared (i : Fin 6) (x : Option Domain) (k : Slk → Prop) (unnamed : Prop) (s : State) : Prop where
  slot : s.alc.domains.get i = x
  link : k s.slk
  names : unnamed → s.alc.unnamed i

namespace Spared

variable {i : Fin 6} {x : Option Domain} {k : Slk → Prop} {un : Prop} {s : State}

/-- A change of the Allocator that leaves domains, raise queue, affected list and beneficiary. -/
theorem alcSame {t : State} (h : Spared i x k un s) (h1 : t.alc.domains = s.alc.domains) (h2 : t.slk = s.slk)
    (h3 : t.alc.queue = s.alc.queue) (h4 : t.alc.round.affected = s.alc.round.affected)
    (h5 : t.alc.round.beneficiary = s.alc.round.beneficiary) : Spared i x k un t :=
  ⟨by rw [h1, h.slot], by rw [h2]; exact h.link, fun q => by rw [Alc.unnamed, h3, h4, h5]; exact h.names q⟩

theorem setDomain (h : Spared i x k un s) {j : Fin 6} (hj : j ≠ i) (d : Option Domain) :
    Spared i x k un (s.setDomain j d) :=
  ⟨by simp only [State.setDomain, get_set, if_neg hj]; exact h.slot, h.link, h.names⟩

theorem post (hk : Holds i k) (h : Spared i x k un s) (n : Notice) (hn : n.key ≠ (0x41, i.val)) : Spared i x k un (s.post n) :=
  ⟨h.slot, hk _ n hn h.link, h.names⟩

theorem postGrant (hk : Holds i k) (h : Spared i x k un s) (reason : GrantReason) {j : Fin 6} (hj : j ≠ i) :
    Spared i x k un (Machine.postGrant reason j s) := by
  unfold Machine.postGrant
  split
  · exact h
  · exact h.post hk _ fun e => hj (Fin.ext (by simpa [Notice.key, Notice.subject] using congrArg Prod.snd e))

theorem syncQueue (h : Spared i x k un s) {j : Fin 6} (hj : j ≠ i) : Spared i x k un (Machine.syncQueue j s) := by
  have names : un → ∀ e ∈ (Machine.syncQueue j s).alc.queue, e.slot ≠ i := fun q e he hs =>
    (h.names q).1 e ((mem_syncQueue_other (by rw [hs]; exact hj.symm)).mp he) hs
  obtain ⟨q, hq⟩ := syncQueue_eq j s
  rw [hq] at names ⊢
  exact ⟨h.slot, h.link, fun u => ⟨names u, (h.names u).2⟩⟩

theorem reserve (h : Spared i x k un s) (amount : Nat) {holder : Option (Fin 6)} (hh : holder ≠ some i) :
    Spared i x k un (s.reserve amount holder) :=
  ⟨h.slot, h.link, fun u => ⟨(h.names u).1, (h.names u).2.1, hh⟩⟩

theorem joinRound (h : Spared i x k un s) (c : RoundCause) (lowersNone : Bool) :
    Spared i x k un (Machine.joinRound c lowersNone s) := by
  unfold Machine.joinRound
  split
  · exact h
  · refine ⟨h.slot, h.link, fun u => ⟨(h.names u).1, ?_, ?_⟩⟩
    · unfold Round.join
      split
      · exact (h.names u).2.1
      · simp
    · unfold Round.join
      split <;> exact (h.names u).2.2

theorem listAffected (h : Spared i x k un s) {j : Fin 6} (hj : j ≠ i) (old : Nat) :
    Spared i x k un (Machine.listAffected j old s) := by
  refine ⟨h.slot, h.link, fun u => ⟨(h.names u).1, ?_, ?_⟩⟩
  · intro e he
    simp only [Machine.listAffected, Round.list] at he
    split at he
    · exact (h.names u).2.1 e he
    · rcases List.mem_append.mp he with he | he
      · exact (h.names u).2.1 e he
      · rw [List.mem_singleton.mp he]
        exact hj
  · have := (h.names u).2.2
    simp only [Machine.listAffected, Round.list]
    split <;> exact this

theorem lowerOne (hk : Holds i k) (h : Spared i x k un s) (c : RoundCause) (target : Nat) {j : Fin 6} (hj : j ≠ i) :
    Spared i x k un (Machine.lowerOne c target j s) := by
  unfold Machine.lowerOne
  split
  · exact h
  · exact ((((h.setDomain hj _).listAffected hj _).syncQueue hj).postGrant hk _ hj)

theorem lowerAll (hk : Holds i k) (h : Spared i x k un s) (c : RoundCause) {order : List (Fin 6)} (ho : i ∉ order)
    (targets : Vector Nat 6) : Spared i x k un (Machine.lowerAll c order targets s) := by
  unfold Machine.lowerAll
  have h := h.joinRound c order.isEmpty
  revert h
  generalize Machine.joinRound c order.isEmpty s = t
  intro h
  induction order generalizing t with
  | nil => exact h
  | cons j l ih =>
    simp only [List.mem_cons, not_or] at ho
    exact ih ho.2 _ (h.lowerOne hk c _ (Ne.symm ho.1))

/-- A slot that rests has no more than its floor. -/
theorem grants_le_floorOf (hx : Rests x) (h : Spared i x k un s) : s.alc.grants.get i ≤ s.alc.floorOf i := by
  simp only [Alc.grants, get_tabulate, Alc.floorOf, h.slot]
  cases x with
  | none => simp
  | some d => exact (hx d rfl).1

theorem reduce (hx : Rests x) (hk : Holds i k) (h : Spared i x k un s) (c : RoundCause) :
    Spared i x k un (Machine.reduce c s) := by
  unfold Machine.reduce
  refine (h.reserve 0 (by simp)).lowerAll hk c ?_ _
  have trimmed : s.alc.trimmed.get i = s.alc.grants.get i := by
    simp only [Alc.trimmed, Alc.grants, get_tabulate, h.slot]
    cases x with
    | none => rfl
    | some d => exact Nat.min_eq_left (hx d rfl).2.2
  have notOver : i ∉ s.alc.overCeiling := by
    simp only [Alc.overCeiling, List.mem_filter, h.slot]
    cases x with
    | none => simp
    | some d => simpa using fun _ => (hx d rfl).2.2
  have floor := h.grants_le_floorOf hx
  simp only [Alc.reductionOrder, List.mem_append, List.mem_filter, not_or, not_and]
  refine ⟨notOver, fun _ => ?_⟩
  have kept : (s.alc.reducedGrants (s.alc.budget.effective.getD 0)).get i = s.alc.grants.get i := by
    rw [Alc.reducedGrants, takeFrom_get_of_le_floor _ _ _ (by rw [trimmed]; exact floor), trimmed]
  simp [kept]

theorem raiseGrant (hk : Holds i k) (h : Spared i x k un s) (amount : Nat) {j : Fin 6} (hj : j ≠ i) :
    Spared i x k un (Machine.raiseGrant amount j s) := by
  unfold Machine.raiseGrant
  split
  · exact h
  · exact ((h.setDomain hj _).postGrant hk _ hj).syncQueue hj

theorem serveHeads (hx : Rests x) (hk : Holds i k) (h : Spared i x k un s) (n : Nat) :
    Spared i x k un (Machine.serveHeads n s) := by
  induction n generalizing s with
  | zero => exact h
  | succ n ih =>
    unfold Machine.serveHeads
    split
    · exact h
    · next e _ _ =>
      split
      · exact h
      · next d hd =>
        have t : Spared i x k un
            (if min s.alc.spare d.shortfall = 0 then s else Machine.raiseGrant (min s.alc.spare d.shortfall) e.slot s) := by
          split
          · exact h
          · next hm =>
            refine h.raiseGrant hk _ fun he => hm ?_
            rw [he, h.slot] at hd
            have := (hx d hd).2.1
            simp only [Domain.shortfall]
            omega
        dsimp only
        split
        · exact ih t
        · exact t

theorem preemptFor (hx : Rests x) (hk : Holds i k) (h : Spared i x k un s) {j : Fin 6} {d : Domain}
    (hd : s.alc.domains.get j = some d) : Spared i x k un (Machine.preemptFor j d s) := by
  unfold Machine.preemptFor
  dsimp only
  split
  · exact h
  · next hs =>
    have hj : j ≠ i := by
      rintro rfl
      rw [h.slot] at hd
      have := (hx d hd).2.1
      simp only [Domain.shortfall] at hs
      omega
    refine ((h.joinRound .preempt false).reserve _ (by simpa using hj)).lowerAll hk .preempt ?_ _
    simp only [List.mem_filter, decide_eq_true_eq, not_and, not_lt]
    intro _
    rw [takeFrom_get_of_le_floor _ _ _ (h.grants_le_floorOf hx)]

theorem serve (hx : Rests x) (hk : Holds i k) (h : Spared i x k un s) : Spared i x k un (Machine.serve s) := by
  unfold Machine.serve
  split
  · exact h
  · have t := h.serveHeads hx hk (s.alc.queue.length + 1)
    unfold Machine.weighPreemption
    split
    · exact t
    · split
      · exact t
      · next hd => exact t.preemptFor hx hk hd

theorem setB (h : Spared i x k un s) (b : Option Nat) : Spared i x k un (s.setB b) := h.alcSame rfl rfl rfl rfl rfl

theorem recompute (hx : Rests x) (hk : Holds i k) (h : Spared i x k un s) (c : RoundCause) :
    Spared i x k un (Machine.recompute c s) := by
  unfold Machine.recompute Machine.settleBudget
  split
  · split
    · exact (h.setB _).reduce hx hk c
    · split
      · exact (h.setB _).serve hx hk
      · exact h.setB _
  · exact h

theorem closeRound (hx : Rests x) (hk : Holds i k) (h : Spared i x k un s) (hu : un) :
    Spared i x k un (Machine.closeRound s) := by
  have granted : Spared i x k un (grantReservation s) := by
    unfold grantReservation
    split
    · exact h
    · next j hj =>
      refine (h.reserve 0 (by simp)).raiseGrant hk _ ?_
      rintro rfl
      exact (h.names hu).2.2 hj
  have told : Spared i x k un (postRound (grantReservation s)) := granted.post hk _ (by simp [Notice.key, Notice.kind])
  have cleared : Spared i x k un (clearRound (postRound (grantReservation s))) :=
    ⟨told.slot, told.link, fun u => ⟨(told.names u).1, by simp [clearRound, Round.closed], by simp [clearRound, Round.closed]⟩⟩
  exact cleared.serve hx hk

theorem closeIfDone (hx : Rests x) (hk : Holds i k) (h : Spared i x k un s) (hu : un) :
    Spared i x k un (Machine.closeIfDone s) := by
  unfold Machine.closeIfDone
  split
  · exact h.closeRound hx hk hu
  · exact h

end Spared

/-! ## A retirement (R124, R134) -/

theorem withdrawOverdue_alc (d : Domain) (s : State) : (withdrawOverdue d s).alc = s.alc := by
  unfold withdrawOverdue withdrawCause setLine
  cases d.line with
  | none => rfl
  | some n =>
    dsimp only
    split <;> rfl

theorem assignIfNamed_alc (line d : Option (Fin 6)) (s : State) : (assignIfNamed line d s).alc = s.alc := by
  unfold assignIfNamed
  cases line <;> rfl

/-- Emptying a slot takes its record, its queue entry, its affected entry, and a reservation made for it. -/
theorem emptySlot_alc (i : Fin 6) (d : Domain) (s : State) :
    (emptySlot i d s).alc = { s.alc with
      domains := s.alc.domains.set i none
      queue := dropEntry i s.alc.queue
      round :=
        let left := { s.alc.round with affected := s.alc.round.affected.filter (·.slot != i) }
        if s.alc.round.beneficiary = some i then { left with reservation := 0, beneficiary := none } else left } := by
  have emptied : (unlist i <| syncQueue i <| State.setDomain i none <| assignIfNamed d.line none <| withdrawOverdue d s).alc =
      { s.alc with
        domains := s.alc.domains.set i none, queue := dropEntry i s.alc.queue
        round := { s.alc.round with affected := s.alc.round.affected.filter (·.slot != i) } } := by
    simp [unlist, syncQueue, State.setDomain, assignIfNamed_alc, withdrawOverdue_alc, State.setQueue]
  unfold emptySlot adjustReservation
  by_cases h : s.alc.round.beneficiary = some i <;> simp [emptied, h, State.reserve]

/-- The emptied slot is passed over from then on. -/
theorem spared_emptySlot (i : Fin 6) (d : Domain) (s : State) : Spared i none (fun _ => True) True (emptySlot i d s) := by
  refine ⟨by simp [emptySlot_alc], trivial, fun _ => ?_⟩
  simp only [Alc.unnamed, emptySlot_alc]
  refine ⟨by simp [dropEntry], ?_, ?_⟩ <;> split <;> simp_all

/-! ## The round under a serving (R131 to R133) -/

theorem postGrant_alc (reason : GrantReason) (i : Fin 6) (s : State) : (postGrant reason i s).alc = s.alc := by
  unfold postGrant
  split <;> rfl

theorem syncQueue_round (i : Fin 6) (s : State) : (syncQueue i s).alc.round = s.alc.round := by
  obtain ⟨q, hq⟩ := syncQueue_eq i s
  rw [hq]
  rfl

theorem raiseGrant_round (amount : Nat) (j : Fin 6) (s : State) : (raiseGrant amount j s).alc.round = s.alc.round := by
  unfold raiseGrant
  split
  · rfl
  · rw [syncQueue_round, postGrant_alc]
    rfl

theorem serveHeads_round (n : Nat) (s : State) : (serveHeads n s).alc.round = s.alc.round := by
  induction n generalizing s with
  | zero => rfl
  | succ n ih =>
    unfold serveHeads
    dsimp only
    (repeat' split) <;> simp only [ih, raiseGrant_round]

/-- Lowering within an open round keeps its number. -/
theorem lowerAll_number (c : RoundCause) (order : List (Fin 6)) (targets : Vector Nat 6) {s : State}
    (h : s.alc.round.opened = true) : (lowerAll c order targets s).alc.round.number = s.alc.round.number := by
  have one (t : State) (j : Fin 6) : (lowerOne c (targets.get j) j t).alc.round.number = t.alc.round.number := by
    unfold lowerOne
    split
    · rfl
    · rw [postGrant_alc, syncQueue_round]
      simp only [listAffected, Round.list]
      split <;> rfl
  have joined : (joinRound c order.isEmpty s).alc.round.number = s.alc.round.number := by simp [joinRound, h, Round.join]
  rw [lowerAll, ← joined]
  clear joined
  generalize joinRound c order.isEmpty s = t
  induction order generalizing t with
  | nil => rfl
  | cons j l ih => rw [List.foldl_cons, ih, one]

/-- A serving leaves the round as it is, or opens one with the next number. -/
theorem serve_round (s : State) : (serve s).alc.round = s.alc.round ∨
    (s.alc.round.opened = false ∧ (serve s).alc.round.number = nextRound s.alc.round.number) := by
  unfold serve
  split
  · exact .inl rfl
  · next opened =>
    unfold weighPreemption
    split
    · exact .inl (serveHeads_round _ _)
    · split
      · exact .inl (serveHeads_round _ _)
      · unfold preemptFor
        dsimp only
        split
        · exact .inl (serveHeads_round _ _)
        · refine .inr ⟨by simpa using opened, ?_⟩
          rw [lowerAll_number] <;> simp [State.reserve, joinRound, serveHeads_round, Round.join, opened]

end Sys2Proof.Machine
end

