-- ==== Sys2Proof/WellFormed.lean ====
section
/-! DEFINITION. Which commands can be sent at all: every request field fits the bytes that section 10.8 gives it. The meanings
do not need it (they check ranges as the manual's own chapters do); a request built from a received frame always has it. -/

namespace Sys2Proof

/-- An unsigned field of `bits` bits. -/
def fitsU (bits n : Nat) : Bool := n < 2 ^ bits

/-- A signed field of `bits` bits (two's complement). -/
def fitsS (bits : Nat) (z : Int) : Bool := -(2 ^ (bits - 1) : Int) ≤ z && z < 2 ^ (bits - 1)

/-- An optional unsigned field. -/
def fitsOptU (bits : Nat) (n : Option Nat) : Bool := n.all (fitsU bits)

/-- CHASSIS_LIMITS, 33 bytes. -/
def ChassisLimits.wf (f : ChassisLimits) : Bool :=
  fitsU 24 f.maxSustained && fitsU 24 f.maxBurst && fitsU 24 f.minBudget && f.zoneCeiling.toList.all (fitsS 16) &&
  fitsU 8 f.sourceDeadline && fitsS 16 f.guardTemp && f.stallDerate.toList.all (fitsU 24) && fitsU 24 f.systemReserve

/-- Three packed 12-bit thresholds. -/
def Thresholds.wf (t : Thresholds) : Bool := fitsS 12 t.soft && fitsS 12 t.hard && fitsS 12 t.critical

/-- Two duty bytes. -/
def FanLimits.wf (f : FanLimits) : Bool := fitsU 8 f.floor && fitsU 8 f.ceiling

/-- LOAD_SET, 56 bytes with the set number. -/
def LimitSet.wf (f : LimitSet) : Bool :=
  fitsU 24 f.sustained && fitsU 24 f.burst && fitsU 24 f.bucket && fitsU 8 f.rearm && fitsU 8 f.hysteresis &&
  fitsU 16 f.thermalStep && fitsU 16 f.stepInterval && fitsU 24 f.chargeCap && fitsU 16 f.compliance &&
  fitsU 16 f.tolerance && fitsU 16 f.entryDwell && f.zones.toList.all Thresholds.wf && f.fans.toList.all FanLimits.wf

/-- CHANNEL_SETUP, 11 bytes; the window bounds are signed for TEMP and unsigned otherwise. -/
def ChannelFields.wf (f : ChannelFields) : Bool :=
  fitsU 8 f.channel && fitsU 16 f.fullScale && fitsU 8 f.depth &&
  (if f.kind = some .temp then fitsS 16 f.winLow && fitsS 16 f.winHigh
   else 0 ≤ f.winLow && f.winLow < 65536 && 0 ≤ f.winHigh && f.winHigh < 65536)

/-- ELECTRODE_SETUP for a target other than the unit record, 8 bytes. -/
def ElectrodeFields.wf (f : ElectrodeFields) : Bool :=
  fitsU 8 f.target && f.target != 8 && fitsU 16 f.near && fitsU 16 f.contact && fitsU 16 f.hyst

/-- ZONE_SETUP, 5 + count bytes in a body of at most 60. -/
def ZoneFields.wf (f : ZoneFields) : Bool := fitsU 8 f.zone && f.channels.length ≤ 55 && f.channels.all (fitsU 8)

/-- SOURCE_SETUP, 19 bytes. -/
def SourceFields.wf (f : SourceFields) : Bool :=
  fitsU 24 f.rating && fitsU 24 f.discharge && fitsU 24 f.lowLimit && fitsU 8 f.batteryChannel && fitsU 16 f.lowThreshold &&
  fitsU 16 f.criticalThreshold && fitsU 16 f.hysteresis && f.pair.all (fun p => fitsU 8 p.1 && fitsU 8 p.2)

/-- DOMAIN_DECLARE, 24 bytes. -/
def DomainFields.wf (f : DomainFields) : Bool :=
  fitsU 8 f.slot && fitsU 8 f.priority && fitsU 24 f.floor && fitsU 24 f.ceiling && fitsU 16 f.rail &&
  fitsOptU 8 f.sense && fitsOptU 8 f.volt && fitsOptU 8 f.line && fitsU 5 f.reservedFlags && fitsU 8 f.labelLength &&
  f.labelChars.length == 8

/-- Every request field fits its bytes; commands whose fields have their exact types need no check. -/
def Instr.wf : Instr → Bool
  | .powerOnReset => true
  | .identify _ _ => true
  | .status _ _ => true
  | .restart _ _ => true
  | .restartTakesEffect => true
  | .run _ _ => true
  | .doze _ _ => true
  | .wake _ _ => true
  | .chassisLimits _ _ f => f.wf
  | .loadSet _ _ n f => fitsU 8 n && f.wf
  | .readSet _ _ n => fitsU 8 n && n != 4
  | .readSetChassis _ _ => true
  | .channelSetup _ _ f => f.wf
  | .scanList _ _ l => l.length ≤ 59 && l.all (fitsU 8)
  | .readChannels _ _ a n => fitsU 8 a && fitsU 8 n
  | .calOverrideSet _ _ c g o => fitsU 8 c && fitsU 16 g && fitsS 16 o
  | .calOverrideRestore _ _ c => fitsU 8 c
  | .electrodeSetup _ _ f => f.wf
  | .electrodeSetupResolution _ _ r => fitsU 8 r
  | .readElectrodes _ _ a n => fitsU 8 a && fitsU 8 n
  | .rebase _ _ => true
  | .zoneSetup _ _ f => f.wf
  | .zoneFeed _ _ z t => fitsU 8 z && t.all (fitsS 16)
  | .readZones _ _ a n => fitsU 8 a && fitsU 8 n
  | .sourceSetup _ _ f => f.wf
  | .sysCap _ _ c => fitsOptU 24 c
  | .clampForceSet _ _ _ => true
  | .clampForceClear _ _ _ => true
  | .lineSetup _ _ f => fitsU 8 f.line
  | .domainDeclare _ _ f => f.wf
  | .domainRetire _ _ n => fitsU 8 n
  | .domainRequest _ _ n v => fitsU 8 n && fitsU 24 v
  | .domainSettled _ _ n => fitsU 8 n
  | .domainPermitOff _ _ n => fitsU 8 n
  | .domainPermitOn _ _ n => fitsU 8 n
  | .readGrants _ _ a n => fitsU 8 a && fitsU 8 n
  | .placementPin _ _ c t => fitsU 8 c && fitsOptU 16 t
  | .placementUnpin _ _ => true
  | .fanSetup _ _ n _ p d => fitsU 8 n && fitsU 8 p && fitsU 8 d
  | .fanRetry _ _ n => fitsU 8 n
  | .readFans _ _ => true
  | .faults _ _ _ _ => true
  | .lidChange => true
  | .motionChange => true
  | .adpChange => true
  | .stillTimerExpiry => true
  | .dwellExpiry => true
  | .pinExpiry => true
  | .sequenceTimerMatch => true
  | .channelConversionEnd _ => true
  | .contactTimerMatch => true
  | .electrodeConversionEnd _ => true
  | .groupConversionEnd _ => true
  | .feedTimerExpiry _ => true
  | .stepTimerExpiry _ => true
  | .deadlineExpiry _ => true
  | .tachEdge _ _ => true
  | .speedTimeout _ => true
  | .stallTimerExpiry _ => true
  | .kickEnd _ => true
  | .retryKickEnd _ => true
  | .provingExpiry _ => true
  | .retryTimerExpiry _ => true
  | .rampTimerExpiry => true
  | .frameComplete _ _ => true
  | .framingError _ => true
  | .gapTimerExpiry => true
  | .lineBreak => true
  | .breakEnd _ => true
  | .replyTransmitStart _ _ => true
  | .noticeTransmitStart _ _ => true
  | .frameTransmitEnd _ => true
  | .receivedByte _ _ => true
  | .startBit _ => true
  | .lineFilterSample _ _ _ => true
  | .pwmPeriodStart => true

/-- A command that can be sent. -/
abbrev WellFormed (i : Instr) : Prop := i.wf = true

end Sys2Proof
end

