-- ==== Sys2Proof/Tests/Slice0.lean ====
section
/-! SUPPORT. Tests: the WellFormed smoke, small steps, and for every statement that has hypotheses a state and operands that meet
them, one witness per clause. -/

open Sys2Proof Sys2Proof.Machine

set_option maxRecDepth 20000

namespace Sys2Proof.Tests

/-! ## Small states -/

/-- Chassis limits that pass every check. -/
def chassis0 : ChassisLimits :=
  { maxSustained := 60000, maxBurst := 90000, minBudget := 20000, zoneCeiling := Vector.replicate 6 1000
    sourceDeadline := 50, guardTemp := 800, stallDerate := Vector.replicate 2 5000, systemReserve := 3000 }

/-- A limit set that passes every check and lies within them. -/
def set0 : LimitSet :=
  { sustained := 45000, burst := 60000, bucket := 100000, rearm := 50, hysteresis := 20, thermalStep := 1000
    stepInterval := 1000, chargeCap := 15000, compliance := 500, tolerance := 500, entryDwell := 2000
    zones := Vector.replicate 6 { soft := 600, hard := 700, critical := 800 }
    fans := Vector.replicate 2 { floor := 0, ceiling := 90 } }

/-- A source setup on channel 15. -/
def source0 : SourceSetup :=
  { rating := 65000, discharge := 50000, lowLimit := 20000, batteryChannel := 15, lowThreshold := 10000
    criticalThreshold := 9000, hysteresis := 200, pair := none }

/-- A domain that holds its floor. -/
def domain0 : Domain :=
  { kind := .processor, label := none, priority := 1, floor := 5000, ceiling := 30000, rail := 12000, sense := none
    volt := none, line := some 2, permit := .on, request := none, effCeiling := some 30000, grant := some 5000
    state := .settled, deadline := none, holdStart := none, measured := none, revocations := 0, clamps := 0
    overdueSince := none }

/-- Reset with its mode record changed. -/
def inMode (m : Mode) : State := { State.reset with mdc := { Mdc.reset with mode := m } }

/-- LOCKED, with every set VALID and the source set up. -/
def locked0 : State :=
  { inMode .locked with
    lst := { chassis := some chassis0, sets := Vector.replicate 4 (some set0) }
    srm := { Srm.reset with setup := some source0, sourceLimit := some 50000 } }

/-- The same part RUNNING with some domains. -/
def running0 (domains : Vector (Option Domain) 6) : State :=
  { locked0 with
    mdc := { Mdc.reset with mode := .running }
    alc := { Alc.reset with
      domains := domains
      budget := { Budget.reset with sourceLimit := some 50000, effective := some 45000 } } }

/-- A state with another fan F0. -/
def withFan0 (f : Fan) (s : State) : State := { s with fnc := { s.fnc with fans := s.fnc.fans.set 0 f } }

/-- A state with a zone Z0. -/
def withZone0 (z : Zone) (s : State) : State := { s with znm := { s.znm with zones := s.znm.zones.set 0 z } }

/-- The state after a command. -/
def ran (c : Instr) (s : State) : State :=
  match exec c s with
  | .next t => t
  | _ => s

/-- The state after one step. -/
def stepped (s : State) : State :=
  match step s with
  | .next t => t
  | _ => s

/-- The status a request was answered with. -/
def status? (c : Instr) (s : State) : Option Status := (ran c s).lastAnswer.map (·.status)

/-! ## WellFormed: an ill-formed command for each check -/

/-- Chassis fields with one that does not fit its bytes. -/
theorem test_wf_chassis :
    chassis0.wf = true ∧ ({ chassis0 with maxSustained := 16777216 } : ChassisLimits).wf = false ∧
    ({ chassis0 with maxBurst := 16777216 } : ChassisLimits).wf = false ∧
    ({ chassis0 with minBudget := 16777216 } : ChassisLimits).wf = false ∧
    ({ chassis0 with zoneCeiling := Vector.replicate 6 32768 } : ChassisLimits).wf = false ∧
    ({ chassis0 with sourceDeadline := 256 } : ChassisLimits).wf = false ∧
    ({ chassis0 with guardTemp := -32769 } : ChassisLimits).wf = false ∧
    ({ chassis0 with stallDerate := Vector.replicate 2 16777216 } : ChassisLimits).wf = false ∧
    ({ chassis0 with systemReserve := 16777216 } : ChassisLimits).wf = false := by decide

/-- Set fields with one that does not fit its bytes. -/
theorem test_wf_set :
    (Instr.loadSet 0 0 3 set0).wf = true ∧ (Instr.loadSet 0 0 256 set0).wf = false ∧
    ({ set0 with sustained := 16777216 } : LimitSet).wf = false ∧ ({ set0 with burst := 16777216 } : LimitSet).wf = false ∧
    ({ set0 with bucket := 16777216 } : LimitSet).wf = false ∧ ({ set0 with rearm := 256 } : LimitSet).wf = false ∧
    ({ set0 with hysteresis := 256 } : LimitSet).wf = false ∧ ({ set0 with thermalStep := 65536 } : LimitSet).wf = false ∧
    ({ set0 with stepInterval := 65536 } : LimitSet).wf = false ∧
    ({ set0 with chargeCap := 16777216 } : LimitSet).wf = false ∧
    ({ set0 with compliance := 65536 } : LimitSet).wf = false ∧ ({ set0 with tolerance := 65536 } : LimitSet).wf = false ∧
    ({ set0 with entryDwell := 65536 } : LimitSet).wf = false ∧
    ({ set0 with zones := Vector.replicate 6 { soft := 2048, hard := 0, critical := 0 } } : LimitSet).wf = false ∧
    ({ set0 with fans := Vector.replicate 2 { floor := 0, ceiling := 256 } } : LimitSet).wf = false := by decide

/-- A channel setup that is well formed. -/
def channel0 : ChannelFields :=
  { channel := 3, enabled := true, kind := some .temp, curve := some .a, fullScale := 0, depth := 4, winLow := -400
    winHigh := 1200 }

/-- Channel fields with one that does not fit its bytes. -/
theorem test_wf_channel :
    channel0.wf = true ∧ ({ channel0 with channel := 256 } : ChannelFields).wf = false ∧
    ({ channel0 with fullScale := 65536 } : ChannelFields).wf = false ∧
    ({ channel0 with depth := 256 } : ChannelFields).wf = false ∧
    ({ channel0 with winLow := -32769 } : ChannelFields).wf = false ∧
    ({ channel0 with winHigh := 32768 } : ChannelFields).wf = false ∧
    ({ channel0 with kind := some .current } : ChannelFields).wf = false ∧
    ({ channel0 with kind := some .current, winLow := 0, winHigh := 65536 } : ChannelFields).wf = false := by decide

/-- An electrode setup that is well formed. -/
def electrode0 : ElectrodeFields := { target := 3, enabled := some true, near := 100, contact := 300, hyst := 20 }

/-- Electrode, zone and source fields with one that does not fit its bytes, and the unit record's own target. -/
theorem test_wf_electrode_zone_source :
    electrode0.wf = true ∧ ({ electrode0 with target := 256 } : ElectrodeFields).wf = false ∧
    ({ electrode0 with target := 8 } : ElectrodeFields).wf = false ∧
    ({ electrode0 with near := 65536 } : ElectrodeFields).wf = false ∧
    ({ electrode0 with contact := 65536 } : ElectrodeFields).wf = false ∧
    ({ electrode0 with hyst := 65536 } : ElectrodeFields).wf = false ∧
    (ZoneFields.mk 0 true none 0 [1]).wf = true ∧ (ZoneFields.mk 256 true none 0 []).wf = false ∧
    (ZoneFields.mk 0 true none 0 [256]).wf = false ∧ (ZoneFields.mk 0 true none 0 (List.replicate 56 0)).wf = false ∧
    (SourceFields.mk 0 0 0 0 0 0 0 none).wf = true ∧ (SourceFields.mk 16777216 0 0 0 0 0 0 none).wf = false ∧
    (SourceFields.mk 0 16777216 0 0 0 0 0 none).wf = false ∧ (SourceFields.mk 0 0 16777216 0 0 0 0 none).wf = false ∧
    (SourceFields.mk 0 0 0 256 0 0 0 none).wf = false ∧ (SourceFields.mk 0 0 0 0 65536 0 0 none).wf = false ∧
    (SourceFields.mk 0 0 0 0 0 65536 0 none).wf = false ∧ (SourceFields.mk 0 0 0 0 0 0 65536 none).wf = false ∧
    (SourceFields.mk 0 0 0 0 0 0 0 (some (256, 0))).wf = false ∧
    (SourceFields.mk 0 0 0 0 0 0 0 (some (0, 256))).wf = false := by decide

/-- A declaration that is well formed. -/
def declare0 : DomainFields :=
  { slot := 0, kind := some .processor, priority := 1, floor := 5000, ceiling := 30000, rail := 12000, sense := none
    volt := none, line := some 2, reservedFlags := 0, labelLength := 3, labelChars := [0x43, 0x50, 0x55, 0, 0, 0, 0, 0] }

/-- Declaration fields with one that does not fit its bytes. -/
theorem test_wf_domain :
    declare0.wf = true ∧ ({ declare0 with slot := 256 } : DomainFields).wf = false ∧
    ({ declare0 with priority := 256 } : DomainFields).wf = false ∧
    ({ declare0 with floor := 16777216 } : DomainFields).wf = false ∧
    ({ declare0 with ceiling := 16777216 } : DomainFields).wf = false ∧
    ({ declare0 with rail := 65536 } : DomainFields).wf = false ∧
    ({ declare0 with sense := some 256 } : DomainFields).wf = false ∧
    ({ declare0 with volt := some 256 } : DomainFields).wf = false ∧
    ({ declare0 with line := some 256 } : DomainFields).wf = false ∧
    ({ declare0 with reservedFlags := 32 } : DomainFields).wf = false ∧
    ({ declare0 with labelLength := 256 } : DomainFields).wf = false ∧
    ({ declare0 with labelChars := [] } : DomainFields).wf = false := by decide

/-- The other commands with a number that does not fit its bytes. -/
theorem test_wf_numbers :
    ([.readSet 0 0 256, .readSet 0 0 4, .scanList 0 0 (List.replicate 60 0), .scanList 0 0 [256], .readChannels 0 0 256 0,
      .readChannels 0 0 0 256, .calOverrideSet 0 0 256 0 0, .calOverrideSet 0 0 0 65536 0, .calOverrideSet 0 0 0 0 32768,
      .calOverrideRestore 0 0 256, .electrodeSetupResolution 0 0 256, .readElectrodes 0 0 256 0, .readElectrodes 0 0 0 256,
      .zoneFeed 0 0 256 none, .zoneFeed 0 0 0 (some 32768), .readZones 0 0 256 0, .readZones 0 0 0 256,
      .sysCap 0 0 (some 16777216), .lineSetup 0 0 ⟨256, none, none, none⟩, .domainRetire 0 0 256, .domainRequest 0 0 256 0,
      .domainRequest 0 0 0 16777216, .domainSettled 0 0 256, .domainPermitOff 0 0 256, .domainPermitOn 0 0 256,
      .readGrants 0 0 256 0, .readGrants 0 0 0 256, .placementPin 0 0 256 none, .placementPin 0 0 1 (some 65536),
      .fanSetup 0 0 256 true 2 20, .fanSetup 0 0 0 true 256 20, .fanSetup 0 0 0 true 2 256, .fanRetry 0 0 256] :
        List Instr).all (fun i => !i.wf) = true ∧
    ([.readSet 0 0 3, .scanList 0 0 [15], .readChannels 0 0 15 1, .calOverrideSet 0 0 15 65535 (-512), .domainRetire 0 0 5,
      .domainRequest 0 0 5 250000, .placementPin 0 0 4 (some 3600), .fanSetup 0 0 1 true 4 60, .fanRetry 0 0 1] :
        List Instr).all Instr.wf = true := by decide

/-! ## The queue and requests -/

/-- A queue with a command in front, and the empty queue of reset. -/
theorem test_queue_front :
    ({ State.reset with pending := [.identify 5 7, .readFans 0 1] } : State).pending = .identify 5 7 :: [.readFans 0 1] ∧
    State.reset.pending = [] ∧ State.reset.slk.rxdWaiting = [] := by decide

/-- A slot that holds a formed reply. -/
def slot0 : RequestSlot := answeredSlot 0x01 0x05 (.only .ok)

/-- A slot without a reply. -/
def slot1 : RequestSlot := { kind := 0x02, tag := 0x06, reply := none, sending := false }

/-- Requests that reach no owner: both slots occupied, a RESTART awaited, a break. -/
theorem test_requests_that_reach_no_owner :
    request? (.identify 5 7) = some (5, 0x01, 7) ∧
    (let s : State := { State.reset with slk := { Slk.reset with slots := [slot0, slot1] } }
     s.slk.breakActive = false ∧ 2 ≤ s.slk.slots.length) ∧
    (let s : State := { State.reset with mdc := { Mdc.reset with restartAwaited := true } }
     s.slk.breakActive = false ∧ s.slk.slots.length < 2 ∧ s.mdc.restartAwaited = true) ∧
    ({ State.reset with slk := { Slk.reset with breakActive := true } } : State).slk.breakActive = true := by decide

/-- Reset takes a request, and so does a state with one slot occupied. -/
theorem test_takes :
    State.reset.takes ∧ ({ State.reset with slk := { Slk.reset with slots := [slot0] } } : State).takes ∧
    request? (.faults 0 9 0 none) = some (0, 0x3F, 9) := by decide

/-- IDENTIFY and STATUS answered from reset. -/
theorem test_identify_and_status :
    (ran (.identify 10 5) State.reset).lastAnswer = some { status := .ok, body := .identity "IF" "L36" 2 } ∧
    (ran (.identify 10 5) State.reset).now = 10 ∧ status? (.status 0 6) State.reset = some .ok := by decide

/-- A receiver that holds the IDENTIFY frame up to its check byte. -/
def checking : State :=
  { State.reset with slk := { Slk.reset with startBit := some 0, rx := .check 2 [0x01, 0x05] } }

/-- The check byte F3h takes the frame, and F2h discards it. -/
theorem test_check_byte :
    checking.takes ∧ checking.slk.startBit = some 0 ∧ checking.slk.rx = .check 2 [0x01, 0x05] ∧
    (0xF2 : Byte) ≠ crc8 (leBytes 1 2 ++ [0x01, 0x05]) ∧
    (ran (.frameComplete 0 0xF3) checking).slk.slots.length = 1 ∧
    (ran (.frameComplete 0 0xF2) checking).mdc.faults.get 6 =
      { detected := true, report := true, subject := some 0 } := by decide

/-- The frames that a right check byte takes: an unassigned kind, a wrong length, one for an owner; with both slots occupied,
with a RESTART awaited, and with a line that has stayed low for 2 ms. -/
theorem test_right_check_byte :
    (let at_ := fun stored => { checking with slk := { checking.slk with rx := .check 2 stored } }
     let right := fun stored => crc8 (leBytes 1 2 ++ stored)
     let full : State := { checking with slk := { checking.slk with slots := [slot0, slot1] } }
     let awaited : State := { checking with mdc := { Mdc.reset with restartAwaited := true } }
     right [0x01, 0x05] = 0xF3 ∧ requiredLength 0x07 [] = none ∧ requiredLength 0x31 [] = some 1 ∧
     requiredLength 0x01 [] = some 0 ∧ requestRow? 0x01 0x05 [] = some (.identify 0 0x05) ∧
     (ran (.frameComplete 0 (right [0x07, 0x05])) (at_ [0x07, 0x05])).lastAnswer = some (.only .unknownKind) ∧
     (ran (.frameComplete 0 (right [0x31, 0x05])) (at_ [0x31, 0x05])).lastAnswer = some (.only .badLength) ∧
     2 ≤ full.slk.slots.length ∧ ((ran (.frameComplete 0 0xF3) full).mdc.faults.get 8).detected = true ∧
     awaited.slk.slots.length < 2 ∧
     (ran (.frameComplete 0 0xF3) awaited).slk.slots = [{ kind := 0x01, tag := 0x05, reply := none, sending := false }] ∧
     0 + 2000 ≤ checking.now + 2000 ∧ (ran (.frameComplete 2000 0xF3) checking).slk.startBit = some 0 ∧
     (ran (.frameComplete 1999 0xF3) checking).slk.startBit = none) := by decide

/-- A kind that is not assigned, and a body one byte too long. -/
theorem test_unknown_kind_and_bad_length :
    State.reset.takes ∧ requiredLength 0x07 [] = none ∧ requiredLength 0x31 [0, 0] = some 1 ∧ [0, 0].length ≠ 1 ∧
    requiredLength 0x11 [255] = some 256 ∧ requiredLength 0x20 [0, 0, 0, 0, 255] = some 260 ∧
    requiredLength 0x40 [] = none := by decide

/-- A receiver in some state, with a start bit received or not. -/
def receiver (r : Receiver) (bit : Option Nat) : State := { State.reset with slk := { Slk.reset with rx := r, startBit := bit } }

/-- The states of frame assembly, with bytes at the bounds. -/
theorem test_receiver :
    (receiver .hunt none).slk.startBit = none ∧ (receiver .hunt (some 3)).slk.startBit = some 3 ∧
    (receiver .hunt (some 3)).slk.rx = .hunt ∧ (0xC2 : Byte) ≠ 0xC3 ∧ (receiver .length (some 3)).slk.rx = .length ∧
    2 ≤ (2 : Byte).toNat ∧ (62 : Byte).toNat ≤ 62 ∧ (1 : Byte).toNat < 2 ∧ 62 < (63 : Byte).toNat ∧
    (receiver (.body 2 [] 2) (some 3)).slk.rx = .body 2 [] 2 ∧
    (ran (.receivedByte 0 0xC3) (receiver .hunt (some 3))).slk.rx = .length ∧
    (ran (.receivedByte 0 2) (receiver .length (some 3))).slk.rx = .body 2 [] 2 ∧
    (ran (.receivedByte 0 1) (receiver (.body 2 [] 2) (some 3))).slk.rx = .body 2 [1] 1 ∧
    (ran (.receivedByte 0 5) (receiver (.body 2 [1] 1) (some 3))).slk.rx = .check 2 [1, 5] ∧
    (ran (.startBit 4) (receiver .length none)).slk.startBit = some 4 := by decide

/-- A sample of RXD that waits, the level accepted so far with two differing samples behind it or none, and the levels heard
since the start bit. -/
def sampling (accepted level : Level) (run : Nat) (heard : List Level) (k : Slk) : State :=
  { State.reset with
    slk := { k with
      rxd := { accepted := accepted, run := run, sampledAt := 0 }, rxdWaiting := [level]
      startBit := if heard.isEmpty then none else some 0, heard := heard } }

/-- The levels of a byte up to the middle of its stop bit: start bit, then the data bits, least significant first. -/
def levelsOf (b : Byte) : List Level :=
  List.replicate 16 .low ++
    ((List.range 8).flatMap fun k => List.replicate 16 (if b.getLsbD k then Level.high else .low)) ++ List.replicate 8 .high

/-- Samples of RXD: a fall and a level that stays, a level inside a byte, at the middle of the stop bit, whose end starts the
gap timer and whose byte may be a check byte, and after it; a break before and at 2 ms, and the samples in one. -/
theorem test_samples :
    (let t := fun accepted level run heard => stepped (sampling accepted level run heard Slk.reset)
     let late : State := { sampling .low .low 0 (List.replicate 153 .low) Slk.reset with now := 2000 }
     let broken := fun accepted level => sampling accepted level 2 [] { Slk.reset with breakActive := true }
     (sampling .high .low 2 [] Slk.reset).pending = [] ∧ (sampling .high .low 2 [] Slk.reset).slk.rxdWaiting = .low :: [] ∧
     (sampling .high .low 2 [] Slk.reset).slk.startBit = none ∧ (t .high .low 2 []).slk.startBit = some 0 ∧
     (t .high .low 1 []).slk.startBit = none ∧ (t .high .low 1 []).slk.rxd.run = 2 ∧
     (levelsOf 0xC3).length = 152 ∧ (t .high .high 0 (levelsOf 0xC3)).slk.rx = .length ∧
     (t .high .high 0 (levelsOf 0xC3)).slk.gapTimer = some 5004 ∧
     (stepped (sampling .high .high 0 (levelsOf 0xF3) { Slk.reset with rx := .check 2 [1, 5] })).slk.slots.length = 1 ∧
     (t .high .high 0 ((levelsOf 0xC3).take 151)).slk.heard.length = 152 ∧
     (t .low .low 0 (levelsOf 0xC3)).slk.heard.length = 153 ∧
     (sampling .low .high 2 (List.replicate 153 .low) Slk.reset).slk.startBit = some 0 ∧
     (t .low .high 2 (List.replicate 153 .low)).slk.startBit = none ∧
     (t .low .low 0 (List.replicate 153 .low)).slk.breakActive = false ∧ (stepped late).slk.breakActive = true ∧
     (broken .low .high).slk.breakActive = true ∧ (stepped (broken .low .high)).slk.breakActive = false ∧
     (stepped (broken .low .low)).slk.breakActive = true) := by decide

/-- Broken frames: a bad stop bit inside a frame and in HUNT, a running gap timer, a break and its end. -/
theorem test_broken_frames :
    (receiver .length (some 3)).slk.breakActive = false ∧ (receiver .length (some 3)).slk.startBit = some 3 ∧
    (receiver .length (some 3)).slk.rx ≠ .hunt ∧ (receiver .hunt (some 3)).slk.rx = .hunt ∧
    (let s : State := { State.reset with slk := { Slk.reset with gapTimer := some 5000, rx := .length } }
     s.slk.gapTimer = some 5000 ∧ (ran .gapTimerExpiry s).slk.rx = .hunt ∧ (ran .gapTimerExpiry s).now = 5000) ∧
    (ran .lineBreak (receiver .length (some 3))).now = 2003 ∧
    (ran .lineBreak (receiver .length (some 3))).slk.breakActive = true ∧
    (ran (.breakEnd 9) (ran .lineBreak (receiver .length (some 3)))).slk.breakActive = false ∧
    (ran (.framingError 0) (receiver .length (some 3))).slk.rx = .hunt := by decide

/-- A reply waits behind a slot without one. -/
def waiting : State := { State.reset with slk := { Slk.reset with slots := [slot1, slot0], hrdy := true } }

/-- The transmitter: a reply to begin, a notice to begin, and each to end. -/
theorem test_transmitter :
    waiting.slk.tx = .idle ∧ waiting.slk.breakActive = false ∧ waiting.slk.slots = [slot1] ++ slot0 :: [] ∧
    (∀ y ∈ [slot1], y.reply = none) ∧ slot0.reply.isSome = true ∧ slot0.sending = false ∧
    (∀ y ∈ State.reset.slk.slots, y.reply = none) ∧ State.reset.slk.notices = Fan.resetNotice 0 :: [Fan.resetNotice 1] ∧
    (ran (.replyTransmitStart 0 true) waiting).slk.tx = .sendingReply ∧
    (ran (.frameTransmitEnd 0) (ran (.replyTransmitStart 0 true) waiting)).slk.slots = [slot1] ∧
    (ran (.noticeTransmitStart 0 true) State.reset).slk.tx = .sendingNotice (Fan.resetNotice 0) := by decide

/-- What begins nothing: a start while sending, in a break or with nothing waiting, and a notice start while a reply waits;
an end while nothing is sent. The heads of a reply and of a notice. -/
theorem test_transmitter_only :
    (let busy := ran (.replyTransmitStart 0 true) waiting
     let broken : State := { waiting with slk := { waiting.slk with breakActive := true } }
     let quiet : State := { State.reset with slk := { Slk.reset with notices := [] } }
     busy.slk.tx ≠ .idle ∧ (ran (.noticeTransmitStart 0 true) busy).slk.tx = .sendingReply ∧
     (∀ y ∈ busy.slk.slots, y.reply = none ∨ y.sending = true) ∧ broken.slk.breakActive = true ∧
     (ran (.replyTransmitStart 0 true) broken).slk.tx = .idle ∧ (ran (.noticeTransmitStart 0 true) broken).slk.tx = .idle ∧
     (∀ y ∈ quiet.slk.slots, y.reply = none ∨ y.sending = true) ∧ quiet.slk.notices = [] ∧
     (ran (.replyTransmitStart 0 true) quiet).slk.tx = .idle ∧ (ran (.noticeTransmitStart 0 true) quiet).slk.tx = .idle ∧
     (∃ y ∈ waiting.slk.slots, y.reply.isSome = true ∧ y.sending = false) ∧
     (ran (.noticeTransmitStart 0 true) waiting).slk.tx = .idle ∧ (ran (.frameTransmitEnd 0) quiet).slk = quiet.slk ∧
     (∀ y ∈ [slot1], y.sending = false) ∧ busy.sentHead = some { kind := 0x81, tag := 0x05, first := 0x00 } ∧
     (ran (.noticeTransmitStart 0 true) State.reset).sentHead = some { kind := 0x48, tag := 0x00, first := 0x00 } ∧
     (ran .lineBreak { busy with slk := { busy.slk with startBit := some 0 } }).slk.cut = some 2000) := by decide

/-- A reply of OK alone being sent since the time 0, at a later time, with or without a break that has cut it. -/
def sendingOk (now : Nat) (cut : Option Nat) : State :=
  { State.reset with
    now := now
    slk := { Slk.reset with
      slots := [{ answeredSlot 3 7 (.only .ok) with sending := true }], tx := .sendingReply, txStart := some 0, cut := cut } }

/-- The bytes of that frame, the IDENTIFY of section 10.8, and the link in order while it sends. -/
theorem test_sent_frame :
    (sendingOk 0 none).sentFrame = some (frameBytes 0x83 0x07 [0x00]) ∧
    (frameBytes 0x83 0x07 [0x00]).take 5 = [0xC3, 0x03, 0x83, 0x07, 0x00] ∧
    frameBytes 0x01 0x05 [] = [0xC3, 0x02, 0x01, 0x05, 0xF3] ∧ LinkOk (sendingOk 20 (some 20)).slk := by decide

/-- TXD during C3h and 03h, least significant bit first: the start bit, data bits 0, 1, 2 and 7, the stop bit, the next start
bit; after the last byte; and after a first byte that a break at 20 us has cut. -/
theorem test_txd :
    ([0, 9, 18, 27, 70, 79, 87].map fun t => (sendingOk t none).txd) = [.low, .high, .high, .low, .high, .high, .low] ∧
    (sendingOk 521 none).txd = .high ∧ (sendingOk 512 none).slk.txStart = some 0 ∧
    (sendingOk 27 (some 20)).txd = .low ∧ (sendingOk 87 (some 20)).txd = .high ∧ State.reset.txd = .high := by decide

/-- RDY with none, one and both slots occupied; ATN with notices waiting and with none. -/
theorem test_rdy_and_atn :
    (let s := fun slots notices => ({ State.reset with slk := { Slk.reset with slots := slots, notices := notices } } : State)
     (s [] []).rdy = true ∧ (s [slot0] []).rdy = true ∧ (s [slot1, slot0] []).rdy = false ∧ (s [] []).atn = false ∧
     (s [slot1, slot0] [.done .ok]).atn = true ∧ State.reset.atn = true) := by decide

/-- Sixteen notices of different keys. -/
def sixteenNotices : List Notice :=
  (List.range 9).map (fun n => Notice.fault ([FaultKind.channel, .electrode, .zoneStale, .fanStall, .domainOverdue, .scanOverrun,
    .linkCheck, .linkGap, .linkOverrun].getD n .channel) n) ++ six.map (fun n => Notice.clamp n true []) ++ [.done .ok]

/-- The notice queue: an entry with the key, room for another, and no room. -/
theorem test_notice_queue :
    (let l := State.reset.slk.notices
     l = [] ++ Fan.resetNotice 0 :: [Fan.resetNotice 1] ∧ (Fan.resetNotice 0).key = (Notice.fan 0 .running 20 none 0).key ∧
     (l.map Notice.key).Nodup ∧ (∀ m ∈ l, m.key ≠ (Notice.done .ok).key) ∧ l.length < 16) ∧
    (∀ m ∈ sixteenNotices, m.key ≠ (Fan.resetNotice 0).key) ∧ 16 ≤ sixteenNotices.length ∧ NoticesOk sixteenNotices ∧
    NoticesOk State.reset.slk.notices ∧ LinkOk State.reset.slk := by decide

/-! ## Limits and measurement -/

/-- The premises of the invariants' statements at reset and in RUNNING with two domains. -/
theorem test_invariants_meet_a_step :
    NoticesOk State.reset.slk.notices ∧ LinkOk State.reset.slk ∧ ModeOk State.reset ∧ GrantsOk State.reset ∧ ModeOk locked0 ∧
    ModeOk (running0 #v[some domain0, none, some domain0, none, none, none]) ∧
    GrantsOk (running0 #v[some domain0, none, some domain0, none, none, none]) := by
  refine ⟨?_, ?_, ?_, ?_, ?_, ?_, ?_⟩ <;> decide

/-- The part RUNNING with a round open: slot 1 is REVOKING for slot 0, which waits and has the reservation. -/
def revoking0 : State :=
  let s := running0 #v[some { domain0 with request := some 15000 },
    some { domain0 with line := none, priority := 2, state := .revoking, deadline := some 9000000 }, none, none, none, none]
  { s with alc := { s.alc with
    queue := [{ slot := 0, priority := 1, time := 0 }]
    round :=
      { number := 1, opened := true, causes := [.preempt], affected := [{ slot := 1, oldGrant := 20000 }], reservation := 10000
        beneficiary := some 0 } } }

/-- The premises of the invariants' statement about round, raise queue and zones, a round open and a zone CRITICAL. -/
theorem test_round_queue_and_zones :
    ModeOk revoking0 ∧ GrantsOk revoking0 ∧ RoundOk revoking0.alc ∧ QueueOk revoking0 ∧ ZonesOk revoking0 ∧
    RoundOk State.reset.alc ∧ QueueOk State.reset ∧ ZonesOk State.reset ∧
    (ran (.domainSettled 0 0 1) revoking0).alc.round.opened = false ∧
    ((ran (.domainSettled 0 0 1) revoking0).alc.domains.get 0).bind (·.grant) = some 15000 ∧
    (let z := withZone0 { Zone.reset with enabled := true, state := .critical, temperature := some 900 } revoking0
     ZonesOk { z with znm := { z.znm with thermalClaim := true } } ∧ ¬ZonesOk z) := by
  refine ⟨by decide, by decide, by decide, by decide, by decide, by decide, by decide, by decide, by decide, by decide,
    by decide, by decide⟩

/-- The limits are in order at reset and after the lock. -/
theorem test_limits_in_order : LimitsOk State.reset.lst ∧ LimitsOk locked0.lst := by
  constructor
  · change State.reset.lst.sets.toList.all Option.isNone = true
    decide
  · change (chassisChecks chassis0).all id = true ∧ locked0.lst.sets.toList.all (·.all (setFits chassis0)) = true
    decide

/-- A step of reset, whose queue is empty. -/
theorem test_step_of_reset : step State.reset = .next State.reset := rfl

/-- CHASSIS_LIMITS: a locked record, a failing first and last field, and limits that pass at their bounds. -/
theorem test_chassis_limits :
    locked0.lst.chassis.isSome = true ∧ State.reset.lst.chassis = none ∧ State.reset.mdc.mode = .prepare ∧
    State.reset.msu.claim = .unclaimed ∧
    firstFailing 1 (chassisChecks { chassis0 with maxSustained := 0 }) = some 1 ∧
    firstFailing 1 (chassisChecks { chassis0 with systemReserve := 250001 }) = some 14 ∧
    firstFailing 1 (chassisChecks { chassis0 with maxSustained := 250, maxBurst := 250, minBudget := 250 }) = none ∧
    (ran (.chassisLimits 0 0 chassis0) State.reset).mdc.mode = .locked ∧
    (ran (.chassisLimits 0 0 chassis0) State.reset).lst.chassis = some chassis0 ∧
    status? (.chassisLimits 0 0 chassis0) locked0 = some .locked := by decide

/-- The first and the last field that each request's checks can name. -/
theorem test_first_failing :
    firstFailing 1 (chassisChecks { chassis0 with maxSustained := 0, systemReserve := 250001 }) = some 1 ∧
    firstFailing 1 (chassisChecks { chassis0 with stallDerate := #v[250, 249], systemReserve := 250001 }) = some 13 ∧
    firstFailing 1 (setChecks { set0 with sustained := 1, rearm := 9 }) = some 1 ∧
    firstFailing 1 (setChecks { set0 with fans := #v[{ floor := 0, ceiling := 100 }, { floor := 0, ceiling := 101 }] }) =
      some 19 := by decide

/-- A reload of the active set in RUNNING: the credit comes within the new K, and a K of 0 takes the armed flag. -/
theorem test_reload_of_the_active_set :
    (let r := running0 #v[some domain0, none, none, none, none, none]
     let s : State := withZone0 { Zone.reset with enabled := true, state := .normal, temperature := some 650 } { r with
       alc := { r.alc with budget := { r.alc.budget with credit := 90000, armed := true, effective := some 50000 } } }
     let t := fun f => ran (.loadSet 0 0 2 f) s
     setOfNumber 2 = some s.activeId ∧ s.managed = true ∧ s.msu.pendingMeas = false ∧ s.lst.chassis = some chassis0 ∧
     (t { set0 with bucket := 50000 }).alc.budget.credit = 50000 ∧ (t { set0 with bucket := 50000 }).alc.budget.armed = true ∧
     (t { set0 with bucket := 0, burst := 45000 }).alc.budget.armed = false ∧
     (t { set0 with bucket := 0, burst := 45000 }).alc.budget.effective = some 45000 ∧
     ((t set0).znm.zones.get 0).state = .warm ∧ (s.fnc.fans.get 0).enabled = true) := by decide

/-- LOAD_SET: each stage's failure at a bound, and an accepted set. -/
theorem test_load_set :
    3 < 4 ∧ firstFailing 1 (setChecks { set0 with sustained := 60250 }) = some 2 ∧
    firstFailing 1 (setChecks { set0 with fans := Vector.replicate 2 { floor := 1, ceiling := 0 } }) = some 18 ∧
    firstFailing 1 (setChecks set0) = none ∧ State.reset.lst.chassis = none ∧ locked0.lst.chassis = some chassis0 ∧
    firstFailing 1 (boundChecks chassis0 set0) = none ∧
    firstFailing 1 (boundChecks chassis0 { set0 with sustained := 19750 }) = some 1 ∧
    firstFailing 1 (boundChecks chassis0 { set0 with burst := 90250 }) = some 2 ∧
    firstFailing 1 (boundChecks { chassis0 with zoneCeiling := Vector.replicate 6 799 } set0) = some 12 ∧
    setOfNumber 3 = some .moving ∧ SetId.moving ≠ locked0.activeId ∧ locked0.managed = false ∧
    status? (.loadSet 0 0 4 set0) locked0 = some .noSuch ∧ status? (.loadSet 0 0 3 set0) State.reset = some .notReady ∧
    status? (.loadSet 0 0 3 set0) locked0 = some .ok := by decide

/-- CHANNEL_SETUP: an accepted setup, and one that keeps the kind of a channel another block holds. -/
theorem test_channel_setup :
    State.reset.takes ∧ channel0.channel = (3 : Fin 16).val ∧ channel0.kind = some .temp ∧
    channelFieldsOk channel0 .temp = true ∧ (3 : Fin 16) ∉ State.reset.msu.scanList ∧
    ChannelKind.temp = (State.reset.msu.channels.get 3).kind ∧ State.reset.kindHeld 3 = false ∧
    locked0.kindHeld 15 = true ∧ channelFieldsOk { channel0 with winHigh := 1501 } .temp = false ∧
    ((ran (.channelSetup 0 0 channel0) State.reset).msu.channels.get 3).state = .valid ∧
    ((ran (.channelSetup 0 0 channel0) State.reset).msu.channels.get 3).depth = 4 := by decide

/-- CHANNEL_SETUP refused: no such channel, a bad field, a listed channel, and another kind of a channel that another block
holds. -/
theorem test_channel_setup_refused :
    (let s : State := { State.reset with msu := (ran (.scanList 0 0 [3]) (ran (.channelSetup 0 0 channel0) State.reset)).msu }
     let held : ChannelFields :=
       { channel := 15, enabled := true, kind := some .current, curve := none, fullScale := 1000, depth := 1, winLow := 0
         winHigh := 1000 }
     16 ≤ 16 ∧ s.takes ∧ (3 : Fin 16) ∈ s.msu.scanList ∧ ChannelKind.current ≠ (locked0.msu.channels.get 15).kind ∧
     locked0.srm.setup = some source0 ∧ source0.batteryChannel = 15 ∧ channelFieldsOk held .current = true ∧
     status? (.channelSetup 0 0 { channel0 with channel := 16, depth := 3 }) s = some .noSuch ∧
     status? (.channelSetup 0 0 { channel0 with depth := 3 }) s = some .badField ∧
     status? (.channelSetup 0 0 channel0) s = some .conflict ∧ status? (.channelSetup 0 0 held) locked0 = some .conflict ∧
     status? (.channelSetup 0 0 held) State.reset = some .ok) := by decide

/-- Reset with channel 3 set up. -/
def withChannel3 : State := ran (.channelSetup 0 0 channel0) State.reset

/-- SCAN_LIST: too long, a number that names no channel, a repetition, a disabled channel, and a list that is taken. -/
theorem test_scan_list :
    16 < (List.replicate 17 3).length ∧ 16 ≤ 16 ∧ ¬[3, 3].Nodup ∧
    ([3] : List Nat) = ([3] : List (Fin 16)).map Fin.val ∧ ([3] : List (Fin 16)).Nodup ∧
    (State.reset.msu.channels.get 3).enabled = false ∧ (withChannel3.msu.channels.get 3).enabled = true ∧
    status? (.scanList 0 0 (List.replicate 17 3)) withChannel3 = some .badField ∧
    status? (.scanList 0 0 [16, 16]) withChannel3 = some .noSuch ∧ status? (.scanList 0 0 [3, 3]) withChannel3 = some .badField ∧
    status? (.scanList 0 0 [3]) State.reset = some .conflict ∧
    (ran (.scanList 0 0 [3]) withChannel3).msu.scanList = [3] := by decide

/-- CAL_OVERRIDE at the bounds of gain and offset. -/
theorem test_cal_override :
    status? (.calOverrideSet 0 0 15 16384 (-512)) State.reset = some .ok ∧
    status? (.calOverrideSet 0 0 15 65535 511) State.reset = some .ok ∧
    status? (.calOverrideSet 0 0 15 16383 0) State.reset = some .badField ∧
    status? (.calOverrideSet 0 0 15 65535 512) State.reset = some .badField ∧
    status? (.calOverrideSet 0 0 16 0 0) State.reset = some .noSuch ∧ status? (.calOverrideRestore 0 0 16) State.reset = some .noSuch ∧
    ((ran (.calOverrideRestore 0 0 3) withChannel3).msu.channels.get 3).restartPending = true := by decide

/-- Results: the rail counts, a value on a curve point, and the acts by state. -/
theorem test_results :
    (0 = 0 ∨ 0 = 4095) ∧ (1 ≠ 0 ∧ 1 ≠ 4095) ∧ curveAt .a 4095 = -400 ∧ curveAt .b 512 = 1180 ∧
    (let c : Channel := { Channel.reset 0 with state := .valid, depth := 2 }
     c.state = .valid ∧ c.restartPending = false ∧ 0 < c.depth ∧ c.history.length ≤ c.depth ∧
     (c.takeResult (some 250)).history = [250] ∧
     (({ c with history := [1, 2] } : Channel).takeResult (some 3)).history = [2, 3] ∧
     (c.takeResult none).state = .fault ∧ (c.convert 2048 32768 0).lastRaw = some 2048 ∧
     (c.convert 2048 32768 0).history = [470]) ∧
    ({ Channel.reset 0 with state := .valid, restartPending := true } : Channel).restartPending = true ∧
    ({ Channel.reset 0 with state := .fault } : Channel).state = .fault := by decide

/-- Results of the other kinds, and the last piece of a curve at both its ends. -/
theorem test_results_of_kinds :
    (let c : Channel := { Channel.reset 0 with kind := .current, curve := none, fullScale := some 2000, winLow := 0, winHigh := 2000 }
     c.kind ≠ .temp ∧ c.fullScale = some 2000 ∧ c.resultOf 2048 32768 0 = some 1000 ∧ c.resultOf 4094 65535 511 = some 2000 ∧
     ({ c with winHigh := 999 } : Channel).resultOf 2048 32768 0 = none ∧ (Channel.reset 0).kind = .temp ∧
     (Channel.reset 0).curve = some .a ∧ (Channel.reset 0).resultOf 2048 32768 0 = some 470 ∧
     (3584 ≤ 4095 ∧ 4095 ≤ 4095) ∧ curveAt .c 3584 = -50 ∧ curveAt .c 3585 = -50 ∧ curveAt .c 4095 = -400) := by decide

/-- A conversion of channel 3 in progress. -/
def converting : State :=
  { withChannel3 with
    msu := { withChannel3.msu with
      frontEnd := .measuring
      scan := some { todo := [], current := some { channel := 3, doneAt := 5000, gain := 32768, offset := 0, discard := false } } } }

/-- The end of a conversion: the last of its scan in PREPARE, and one with another enabled channel to follow. -/
theorem test_conversion_end :
    converting.msu.scan = some { todo := [], current := some { channel := 3, doneAt := 5000, gain := 32768, offset := 0, discard := false } } ∧
    converting.msu.frontEnd = .measuring ∧ converting.mdc.mode = .prepare ∧ converting.msu.claim = .unclaimed ∧
    (converting.msu.channels.get 3).enabled = true ∧
    ((ran (.channelConversionEnd 2048) converting).msu.channels.get 3).value = some 470 ∧
    (ran (.channelConversionEnd 2048) converting).msu.last.number = 1 ∧
    (ran (.channelConversionEnd 2048) converting).msu.frontEnd = .free ∧
    ((ran (.channelConversionEnd 0) converting).msu.channels.get 3).state = .fault := by decide

/-- A channel left to convert, after the one in progress. -/
theorem test_conversion_goes_on :
    (let s : State := { converting with msu := { converting.msu with
       channels := converting.msu.channels.set 4 { Channel.reset 4 with enabled := true, state := .valid, gain := 40000, offset := 7 }
       scan := converting.msu.scan.map fun m => { m with todo := [4] } } }
     let t := ran (.channelConversionEnd 2048) s
     s.msu.scan.map (·.todo) = some (4 :: []) ∧ (s.msu.channels.get 4).enabled = true ∧ t.msu.frontEnd = .measuring ∧
     t.msu.last.number = 0 ∧ (t.msu.scan.bind (·.current)).map (·.channel) = some 4 ∧
     (t.msu.scan.bind (·.current)).map (fun w => (w.gain, w.offset, w.doneAt)) = some (40000, 7, 10000)) := by decide

/-- The last conversion of a scan in LOCKED, with the guard claim as it stands. -/
def guarded (claim : Bool) : State :=
  { converting with mdc := { Mdc.reset with mode := .locked, guardClaim := claim }, lst := { locked0.lst with chassis := some chassis0 } }

/-- The guard: set at the guard temperature, kept down to 5 degrees below it, cleared under that. -/
theorem test_guard :
    (let t := fun claim raw => ran (.channelConversionEnd raw) (guarded claim)
     (guarded false).mdc.mode = .locked ∧ (guarded false).lst.chassis = some chassis0 ∧
     (t false 1024).mdc.guardClaim = true ∧ ((t false 1024).clu.get 5).causes = [.guard] ∧
     (t false 1060).mdc.guardClaim = false ∧ (t true 1060).mdc.guardClaim = true ∧ (t true 1536).mdc.guardClaim = false ∧
     ((t true 1536).clu.get 5).causes = []) := by decide

/-- A completion in RUNNING gives the domain of channel 3 its measured power. -/
theorem test_measured_power :
    (let r := running0 #v[some { domain0 with sense := some 3 }, none, none, none, none, none]
     let s : State := { r with msu := { converting.msu with
       channels := converting.msu.channels.set 3 { Channel.reset 3 with
         enabled := true, kind := .current, curve := none, fullScale := some 1000, winLow := 0, winHigh := 1000
         state := .valid } } }
     s.managed = true ∧ (orderOf 8 (s.choices.headD [])).Perm (List.range 8) ∧
     ((ran (.channelConversionEnd 2048) s).alc.domains.get 0).bind (·.measured) = some 6000) := by decide

/-- Reset with channel 3 listed. -/
def listed : State := ran (.scanList 0 0 [3]) withChannel3

/-- A match with a scan in flight, and one that starts a scan. -/
theorem test_sequence_match :
    converting.msu.scan.isSome = true ∧ listed.msu.scan = none ∧ listed.msu.scanList = 3 :: [] ∧
    (listed.msu.channels.get 3).enabled = true ∧ listed.msu.frontEnd = .free ∧
    ((ran .sequenceTimerMatch listed).msu.scan.bind (·.current)).map (·.doneAt) = some 105000 ∧
    (ran .sequenceTimerMatch listed).msu.frontEnd = .measuring ∧ (ran .sequenceTimerMatch listed).now = 100000 := by decide

/-- Channel 3 converting, with disabled channel 5 and enabled channel 4 to follow, or disabled channel 5 only. -/
def passing (todo : List (Fin 16)) : State :=
  { converting with msu := { converting.msu with
    channels := converting.msu.channels.set 4 { Channel.reset 4 with enabled := true, state := .valid }
    scan := converting.msu.scan.map fun m => { m with todo := todo } } }

/-- A conversion's end passes a disabled channel over, and completes the scan when none but disabled ones are left. -/
theorem test_disabled_channels_are_passed_over :
    (let t := ran (.channelConversionEnd 2048) (passing [5, 4])
     let u := ran (.channelConversionEnd 2048) (passing [5])
     (∀ x ∈ [(5 : Fin 16)], ((passing [5]).msu.channels.get x).enabled = false) ∧
     ((passing [5, 4]).msu.channels.get 4).enabled = true ∧
     (t.msu.scan.bind (·.current)).map (·.channel) = some 4 ∧ t.msu.scan.map (·.todo) = some [] ∧ t.msu.last.number = 0 ∧
     u.msu.scan = none ∧ u.msu.last.number = 1 ∧ u.msu.frontEnd = .free) := by decide

/-- A match with the front end SENSING, with an empty list, with none but disabled channels, and with one passed over. -/
theorem test_sequence_match_arbiter :
    (let with_ := fun (l : List (Fin 16)) (fe : FrontEnd) (k : Claim) => ({ listed with
       msu := { listed.msu with scanList := l, frontEnd := fe, claim := k } } : State)
     let t := fun l fe k => ran .sequenceTimerMatch (with_ l fe k)
     (with_ [3] .sensing .running).msu.scan = none ∧ (t [3] .sensing .running).msu.pendingMeas = true ∧
     (t [3] .sensing .running).msu.scan = some { todo := [3], current := none } ∧
     (t [3] .sensing .running).msu.frontEnd = .sensing ∧ (t [3] .sensing .running).msu.claim = .running ∧
     (t [] .sensing .running).msu.last.number = 1 ∧ (t [] .sensing .running).msu.scan = none ∧
     (t [] .sensing .running).msu.frontEnd = .sensing ∧ (t [] .sensing .running).msu.claim = .running ∧
     (listed.msu.channels.get 5).enabled = false ∧ (t [5] .free .unclaimed).msu.last.number = 1 ∧
     (t [5] .free .unclaimed).msu.frontEnd = .free ∧
     ((t [5, 3] .free .unclaimed).msu.scan.bind (·.current)).map (·.channel) = some 3) := by decide

/-- The read requests at their bounds. -/
theorem test_reads :
    State.reset.takes ∧ status? (.readChannels 0 0 12 4) State.reset = some .ok ∧
    status? (.readChannels 0 0 13 4) State.reset = some .badField ∧ status? (.readChannels 0 0 16 0) State.reset = some .noSuch ∧
    status? (.readElectrodes 0 0 5 3) State.reset = some .ok ∧ status? (.readElectrodes 0 0 8 0) State.reset = some .noSuch ∧
    status? (.readZones 0 0 4 2) State.reset = some .ok ∧ status? (.readZones 0 0 5 2) State.reset = some .badField ∧
    status? (.readGrants 0 0 5 1) State.reset = some .ok ∧ status? (.readGrants 0 0 0 3) State.reset = some .badField ∧
    setOfNumber 0 = some .desk ∧ 4 < 5 ∧ status? (.readSet 0 0 5) State.reset = some .noSuch ∧
    status? (.readSetChassis 0 0) State.reset = some .ok ∧ status? (.readFans 0 0) State.reset = some .ok := by decide

/-! ## Contact sensing -/

/-- Reset with electrode 3 enabled. -/
def withElectrode3 : State := ran (.electrodeSetup 0 0 electrode0) State.reset

/-- A TRACKING electrode 3 with a baseline. -/
def tracking3 : Electrode :=
  { Electrode.reset with enabled := true, state := .tracking, baseline := some 1000, delta := some 0 }

/-- The part DOZING with electrode 3 the one member of the base group, whose conversion is in progress. -/
def grouped0 (learning : GroupLearning) : State :=
  { inMode .dozing with
    msu := { Msu.reset with frontEnd := .sensing, claim := .running }
    csu := { Csu.reset with
      electrodes := Csu.reset.electrodes.set 3 tracking3
      groups := Csu.reset.groups.set 0 { Group.reset with members := [3], baseline := some 1000 }
      learning := learning
      scan := some
        { grouped := true, next := 1, current := some { target := .group 0, doneAt := 2000, discard := false }
          measured := [] } } }

/-- A contact trigger: skipped, started, waiting, grouped, and with nothing to measure. -/
theorem test_contact_trigger :
    (grouped0 .idle).msu.claim ≠ .unclaimed ∧ withElectrode3.msu.claim = .unclaimed ∧
    (withElectrode3.mdc.mode == .dozing || withElectrode3.csu.rebase == .groups) = false ∧
    (withElectrode3.csu.electrodes.get 3).enabled = true ∧
    (∀ j : Fin 8, j < 3 → (withElectrode3.csu.electrodes.get j).enabled = false) ∧ withElectrode3.msu.frontEnd = .free ∧
    converting.msu.frontEnd = .measuring ∧ ((grouped0 .idle).csu.groups.get 0).members ≠ [] ∧
    (∀ i : Fin 8, (State.reset.csu.electrodes.get i).enabled = false) ∧ State.reset.csu.rebase = .noRebase ∧
    (ran .contactTimerMatch withElectrode3).msu.claim = .running ∧
    (ran .contactTimerMatch withElectrode3).msu.frontEnd = .sensing ∧ (ran .contactTimerMatch withElectrode3).now = 50000 ∧
    (ran .contactTimerMatch State.reset).msu.claim = .unclaimed ∧ State.reset.msu.frontEnd = .free ∧
    (ran .contactTimerMatch converting).msu.claim = .waiting ∧
    (∀ i : Fin 8, (converting.csu.electrodes.get i).enabled = false) ∧
    (ran (.channelConversionEnd 2048) (ran .contactTimerMatch converting)).msu.claim = .unclaimed := by decide

/-- Electrode 3 being converted, the last of its scan. -/
def sensing3 (e : Electrode) : State :=
  { State.reset with
    msu := { Msu.reset with frontEnd := .sensing, claim := .running }
    csu := { Csu.reset with
      electrodes := Csu.reset.electrodes.set 3 e
      scan := some
        { grouped := false, next := 4, current := some { target := .electrode 3, doneAt := 2000, discard := false }
          measured := [] } } }

/-- The end of an electrode's conversion, the last of its scan and with electrode 7 to follow. -/
theorem test_electrode_conversion_end :
    (sensing3 tracking3).msu.pendingMeas = false ∧ (sensing3 tracking3).msu.frontEnd = .sensing ∧
    (sensing3 tracking3).csu.rebase = .noRebase ∧
    (∀ k : Fin 8, 4 ≤ k.val → ((sensing3 tracking3).csu.electrodes.get k).enabled = false) ∧
    (let s : State := { sensing3 tracking3 with csu := { (sensing3 tracking3).csu with
       electrodes := (sensing3 tracking3).csu.electrodes.set 7 tracking3 } }
     (s.csu.electrodes.get 7).enabled = true ∧ ∀ k : Fin 8, 4 ≤ k.val → k < 7 → (s.csu.electrodes.get k).enabled = false) ∧
    ((ran (.electrodeConversionEnd 1320) (sensing3 tracking3)).csu.electrodes.get 3).pending = some .contact ∧
    (ran (.electrodeConversionEnd 1320) (sensing3 tracking3)).msu.frontEnd = .free := by decide

/-- Electrodes in each state, with counts at their bounds. -/
theorem test_electrode_states :
    Electrode.reset.state = .off ∧ tracking3.state = .tracking ∧ tracking3.satCount ≠ 2 ∧ tracking3.baseline = some 1000 ∧
    (({ tracking3 with satCount := 2 } : Electrode).convert 4095 4095).state = .fault ∧
    (({ tracking3 with satCount := 1 } : Electrode).convert 4095 4095).satCount = 2 ∧
    (({ tracking3 with state := .learning, learnCount := 7, learnSum := 7000 } : Electrode).convert 1000 4095).baseline =
      some 1000 ∧
    (tracking3.convert 1016 4095).baseline = some 1001 ∧ (tracking3.convert 1015 4095).baseline = some 1000 ∧
    (({ tracking3 with pending := some .near, confirmCount := 2 } : Electrode).convert 1100 4095).confirmed = .near := by decide

/-- The end of a group's conversion, outside learning and at the eighth completion of it. -/
theorem test_group_conversion_end :
    (grouped0 .idle).msu.pendingMeas = false ∧ (grouped0 .idle).csu.rebase ≠ .electrodes ∧
    (grouped0 .idle).csu.learning = .idle ∧ ((grouped0 .idle).csu.groups.get 0).baseline = some 1000 ∧
    (grouped0 (.learning .doze 7)).csu.learning = .learning .doze 7 ∧
    (∀ k : Fin 3, 1 ≤ k.val → ((grouped0 .idle).csu.groups.get k).members = []) ∧
    ((ran (.groupConversionEnd 1200) (grouped0 .idle)).csu.groups.get 0).delta = some 200 ∧
    (ran (.groupConversionEnd 1200) (grouped0 (.learning .doze 7))).csu.learning = .idle ∧
    ((ran (.groupConversionEnd 1200) (grouped0 (.learning .doze 7))).csu.groups.get 0).baseline = some 150 ∧
    (ran (.groupConversionEnd 1200) (grouped0 (.learning .doze 6))).csu.learning = .learning .doze 7 := by decide

/-- At the eighth completion of group learning a group and its members take the highest class of the members. -/
theorem test_group_class :
    (let near := { tracking3 with confirmed := .near }
     let g := grouped0 (.learning .rebase 7)
     let s : State := { g with csu := { g.csu with
       electrodes := g.csu.electrodes.set 1 near
       groups := g.csu.groups.set 0 { Group.reset with members := [1, 3] } } }
     let t := ran (.groupConversionEnd 1200) s
     (∀ k l, ∀ i ∈ (s.csu.groups.get k).members, i ∈ (s.csu.groups.get l).members → k = l) ∧
     (t.csu.groups.get 0).confirmed = .near ∧ (t.csu.electrodes.get 3).confirmed = .near ∧
     (t.csu.electrodes.get 1).confirmed = .near ∧ (t.csu.electrodes.get 0).confirmed = .noTouch) := by decide

/-- A further group with members, after the one measured. -/
theorem test_group_scan_goes_on :
    (let s : State := { grouped0 .idle with csu := { (grouped0 .idle).csu with
       groups := (grouped0 .idle).csu.groups.set 2 { Group.reset with members := [6] } } }
     let t := ran (.groupConversionEnd 1200) s
     (s.csu.groups.get 2).members ≠ [] ∧ (∀ k : Fin 3, 1 ≤ k.val → k < 2 → (s.csu.groups.get k).members = []) ∧
     (t.csu.scan.bind (·.current)).map (·.target) = some (.group 2) ∧ t.csu.scan.map (·.measured) = some [0]) := by decide

/-- ELECTRODE_SETUP refused and accepted, for an electrode and for the unit record. -/
theorem test_electrode_setup :
    (running0 (Vector.replicate 6 none)).managed = true ∧ State.reset.managed = false ∧ electrode0.target = (3 : Fin 8).val ∧
    State.reset.csu.rebase ≠ .groups ∧ State.reset.msu.claim = .unclaimed ∧ State.reset.csu.resolution = 12 ∧
    (withElectrode3.csu.electrodes.get 3).state = .learning ∧
    status? (.electrodeSetup 0 0 { electrode0 with target := 9 }) State.reset = some .noSuch ∧
    status? (.electrodeSetup 0 0 { electrode0 with near := 300 }) State.reset = some .badField ∧
    status? (.electrodeSetupResolution 0 0 8) State.reset = some .badField ∧
    (ran (.electrodeSetupResolution 0 0 16) State.reset).csu.resolution = 16 := by decide

/-- REBASE in DOZING, in flight, with an electrode enabled and with none. -/
theorem test_rebase :
    (inMode .dozing).mdc.mode = .dozing ∧ State.reset.mdc.mode ≠ .dozing ∧ State.reset.csu.rebase = .noRebase ∧
    (withElectrode3.csu.electrodes.get 3).enabled = true ∧
    (ran (.rebase 0 0) withElectrode3).csu.rebase = .electrodes ∧
    status? (.rebase 0 0) { State.reset with csu := { Csu.reset with rebase := .groups } } = some .busy ∧
    status? (.rebase 0 0) (inMode .dozing) = some .notReady ∧ (ran (.rebase 0 0) State.reset).csu.rebase = .noRebase ∧
    Notice.done .ok ∈ (ran (.rebase 0 0) State.reset).slk.notices := by decide

/-- Contact scans, PAUSED or WAITING, that a measurement scan's completion takes up again, in PREPARE and in DOZING. -/
theorem test_contact_scan_goes_on :
    (let meas := fun (s : State) (claim : Claim) => ({ s with
       msu := { converting.msu with claim := claim, last := { Completion.reset with number := 8 } }
       csu := { s.csu with scan := s.csu.scan.map fun sc => { sc with current := none } } } : State)
     let e := meas (sensing3 tracking3) .paused
     let s : State := { e with csu := { e.csu with
       electrodes := e.csu.electrodes.set 7 tracking3 } }
     let g := meas (grouped0 .idle) .waiting
     let w : State := { g with csu := { g.csu with
       groups := g.csu.groups.set 2 { Group.reset with members := [6] } } }
     let t := ran (.channelConversionEnd 2048) s
     let u := ran (.channelConversionEnd 2048) w
     s.msu.claim = .paused ∧ s.csu.scan.map (fun sc => (sc.grouped, sc.next)) = some (false, 4) ∧
     (s.csu.electrodes.get 7).enabled = true ∧ (∀ k : Fin 8, 4 ≤ k.val → k < 7 → (s.csu.electrodes.get k).enabled = false) ∧
     t.mdc.mode = s.mdc.mode ∧ t.msu.last.number = 9 ∧ t.msu.frontEnd = .sensing ∧ t.msu.claim = .running ∧
     (t.csu.scan.bind (·.current)).map (fun v => (v.target, v.doneAt)) = some (.electrode 7, 7000) ∧
     w.managed = true ∧ w.csu.scan.map (fun sc => (sc.grouped, sc.next)) = some (true, 1) ∧
     (w.csu.groups.get 2).members ≠ [] ∧ (∀ k : Fin 3, 1 ≤ k.val → k < 2 → (w.csu.groups.get k).members = []) ∧
     u.mdc.mode = w.mdc.mode ∧ u.msu.frontEnd = .sensing ∧
     (u.csu.scan.bind (·.current)).map (·.target) = some (.group 2)) := by decide

/-- A pending measurement scan of channel 3, with disabled channel 5 before it. -/
def pending3 (s : State) : State :=
  { s with msu := { withChannel3.msu with
    frontEnd := .sensing, claim := .running, pendingMeas := true, scan := some { todo := [5, 3], current := none } } }

/-- The end of an electrode's or a group's conversion with a measurement scan pending: PAUSED with a target left, ended with
none. -/
theorem test_pending_measurement :
    (let e := pending3 (sensing3 tracking3)
     let more : State := { e with csu := { e.csu with electrodes := e.csu.electrodes.set 7 tracking3 } }
     let g := pending3 (grouped0 .idle)
     let groups : State := { g with csu := { g.csu with groups := g.csu.groups.set 2 { Group.reset with members := [6] } } }
     let t := ran (.electrodeConversionEnd 1320)
     let u := ran (.groupConversionEnd 1200)
     let converts := fun s : State => (s.msu.scan.bind (·.current)).map (·.channel)
     e.msu.pendingMeas = true ∧ e.msu.frontEnd = .sensing ∧ (e.msu.channels.get 5).enabled = false ∧
     (e.msu.channels.get 3).enabled = true ∧ (t more).msu.claim = .paused ∧ (t more).msu.frontEnd = .measuring ∧
     converts (t more) = some 3 ∧ (t more).msu.pendingMeas = false ∧ (t more).csu.scan.map (·.next) = some 4 ∧
     (∀ k : Fin 8, 4 ≤ k.val → (e.csu.electrodes.get k).enabled = false) ∧ (t e).msu.claim = .unclaimed ∧
     (t e).csu.scan = none ∧ converts (t e) = some 3 ∧ (u groups).msu.claim = .paused ∧ converts (u groups) = some 3 ∧
     (u groups).csu.scan.map (·.measured) = some [0] ∧
     (∀ k : Fin 3, 1 ≤ k.val → (g.csu.groups.get k).members = []) ∧ (u g).msu.claim = .unclaimed ∧
     (u g).csu.scan = none) := by decide

/-- ELECTRODE_SETUP in a rebase's GROUPS phase: back to ELECTRODES, learning anew, the end of the rebase, a repetition. -/
theorem test_electrode_setup_in_groups :
    (let s : State := { sensing3 tracking3 with
       msu := Msu.reset
       csu := { (sensing3 tracking3).csu with
         electrodes := (sensing3 tracking3).csu.electrodes.set 7 tracking3
         rebase := .groups, learning := .learning .rebase 5, scan := none } }
     let t := fun i enabled => ran (.electrodeSetup 0 0 { electrode0 with target := i, enabled := some enabled }) s
     let alone := ran (.electrodeSetup 0 0 { electrode0 with enabled := some false })
       { s with csu := { s.csu with electrodes := s.csu.electrodes.set 7 Electrode.reset } }
     s.csu.rebase = .groups ∧ s.managed = false ∧ (t 4 true).csu.rebase = .electrodes ∧ (t 4 true).csu.learning = .idle ∧
     ((t 4 true).csu.groups.get 1).members = [4] ∧ (t 3 false).csu.rebase = .groups ∧
     (t 3 false).csu.learning = .learning .rebase 0 ∧ ((t 3 false).csu.groups.get 0).members = [] ∧
     ((t 3 false).csu.groups.get 2).members = [7] ∧ alone.csu.rebase = .noRebase ∧ alone.csu.learning = .idle ∧
     Notice.done .ok ∈ alone.slk.notices ∧ (t 3 true).csu.rebase = .groups ∧
     (t 3 true).csu.learning = .learning .rebase 5) := by decide

/-- A changed resolution with a contact scan in flight: its front end comes free, goes to a measurement scan that waits, or
is not its own. -/
theorem test_resolution_stops_a_contact_scan :
    (let t := ran (.electrodeSetupResolution 0 0 9)
     let e := sensing3 tracking3
     let p := pending3 e
     let w : State := { converting with msu := { converting.msu with claim := .waiting }, csu := e.csu }
     e.msu.claim ≠ .unclaimed ∧ e.msu.frontEnd = .sensing ∧ e.msu.pendingMeas = false ∧ (t e).msu.frontEnd = .free ∧
     (t e).msu.claim = .unclaimed ∧ (t e).csu.scan = none ∧ (t e).csu.resolution = 9 ∧
     ((t e).csu.electrodes.get 3).state = .learning ∧ p.msu.pendingMeas = true ∧ (t p).msu.frontEnd = .measuring ∧
     ((t p).msu.scan.bind (·.current)).map (·.channel) = some 3 ∧ (t p).msu.claim = .unclaimed ∧
     w.msu.frontEnd ≠ .sensing ∧ (t w).msu.frontEnd = .measuring ∧ (t w).msu.claim = .unclaimed ∧
     (t w).csu.scan = none) := by decide

/-- Electrode 3 converting, the last of its scan, in the ELECTRODES phase of a rebase. -/
def rebasing3 (e : Electrode) : State :=
  { sensing3 e with csu := { (sensing3 e).csu with rebase := .electrodes } }

/-- The last sequential scan of the ELECTRODES phase: it gives its report and goes on to GROUPS once no enabled electrode is
LEARNING, ends where no group has a member, and stays while one is LEARNING. -/
theorem test_rebase_goes_on :
    (let learning := { tracking3 with state := .learning, learnCount := 7, learnSum := 7000 }
     let t := ran (.electrodeConversionEnd 1000) (rebasing3 learning)
     let f := ran (.electrodeConversionEnd 4095) (rebasing3 { tracking3 with satCount := 2 })
     let l := ran (.electrodeConversionEnd 1000) (rebasing3 { learning with learnCount := 6 })
     let near := ran (.electrodeConversionEnd 1000) (rebasing3 { tracking3 with confirmed := .contact, near := 0 })
     (rebasing3 learning).csu.rebase = .electrodes ∧ t.csu.rebase = .groups ∧ t.csu.learning = .learning .rebase 0 ∧
     (t.csu.groups.get 0).members = [3] ∧ (t.csu.groups.get 1).members = [] ∧ Notice.done .ok ∉ t.slk.notices ∧
     f.csu.rebase = .noRebase ∧ f.csu.learning = .idle ∧ Notice.done .ok ∈ f.slk.notices ∧ l.csu.rebase = .electrodes ∧
     l.msu.claim = .unclaimed ∧ near.plu.evidence.baseNear = 1 ∧ near.csu.rebase = .groups) := by decide

/-- Triggers with nothing to measure: in the ELECTRODES phase, and grouped in learning and outside it. -/
theorem test_trigger_with_nothing_to_measure :
    (let s := fun rebase learning => ({ State.reset with
       plu := { Plu.reset with evidence := { Plu.reset.evidence with baseNear := 2 } }
       csu := { Csu.reset with rebase := rebase, learning := learning } } : State)
     let t := fun rebase learning => ran .contactTimerMatch (s rebase learning)
     (∀ g : Fin 3, (Csu.reset.groups.get g).members = []) ∧ (t .electrodes .idle).csu.rebase = .noRebase ∧
     Notice.done .ok ∈ (t .electrodes .idle).slk.notices ∧ (t .electrodes .idle).plu.evidence.baseNear = 0 ∧
     (t .groups .idle).plu.evidence.baseNear = 0 ∧ (t .groups (.learning .rebase 6)).csu.learning = .learning .rebase 7 ∧
     (t .groups (.learning .rebase 6)).plu.evidence.baseNear = 2 ∧
     (t .groups (.learning .rebase 7)).csu.rebase = .noRebase ∧
     Notice.done .ok ∈ (t .groups (.learning .rebase 7)).slk.notices) := by decide

/-- The end of a grouped scan outside learning gives its report; a group without a baseline keeps its class. -/
theorem test_grouped_scan_ends :
    (let near := fun b => ({ grouped0 .idle with csu := { (grouped0 .idle).csu with
       groups := (grouped0 .idle).csu.groups.set 0 { Group.reset with members := [3], baseline := b, confirmed := .near } } } :
       State)
     let t := ran (.groupConversionEnd 1000) (near (some 1000))
     let u := ran (.groupConversionEnd 1000) (near none)
     (∀ k : Fin 3, 1 ≤ k.val → ((near none).csu.groups.get k).members = []) ∧ t.plu.evidence.baseNear = 1 ∧
     t.plu.evidence.baseContact = 0 ∧ t.csu.scan = none ∧ t.msu.claim = .unclaimed ∧ t.msu.frontEnd = .free ∧
     (u.csu.groups.get 0).delta = none ∧ (u.csu.groups.get 0).raw = some 1000 ∧
     (u.csu.groups.get 0).confirmed = .near) := by decide

/-- The eighth completion of a rebase's group learning ends it with DONE; a group with no members keeps baseline and
class. -/
theorem test_rebase_ends :
    (let g := grouped0 (.learning .rebase 7)
     let s : State := { g with csu := { g.csu with
       rebase := .groups
       groups := g.csu.groups.set 2 { Group.reset with baseline := some 5, confirmed := .near, pending := some .contact } } }
     let t := ran (.groupConversionEnd 1200) s
     s.csu.rebase ≠ .electrodes ∧ t.csu.rebase = .noRebase ∧ Notice.done .ok ∈ t.slk.notices ∧
     (t.csu.groups.get 2).baseline = some 5 ∧ (t.csu.groups.get 2).confirmed = .near ∧
     (t.csu.groups.get 2).pending = none ∧ (∀ k l : Fin 3, ∀ i ∈ (s.csu.groups.get k).members,
       i ∈ (s.csu.groups.get l).members → k = l)) := by decide

/-- A contact scan, PAUSED, that has nothing left when a measurement scan ends. -/
theorem test_paused_scan_completes :
    (let e := rebasing3 { tracking3 with enabled := false, state := .off }
     let s : State := { e with
       msu := { converting.msu with claim := .paused }
       csu := { e.csu with scan := e.csu.scan.map fun sc => { sc with current := none } } }
     let t := ran (.channelConversionEnd 2048) s
     (∀ i : Fin 8, 4 ≤ i.val → (s.csu.electrodes.get i).enabled = false) ∧ s.msu.pendingMeas = false ∧
     t.msu.frontEnd = .free ∧ t.msu.claim = .unclaimed ∧ t.csu.scan = none ∧ t.csu.rebase = .noRebase) := by decide

/-! ## Placement and zones -/

/-- Evidence for each row of the table. -/
theorem test_evidence_rows :
    (let e : Evidence := { lid := .closed, motion := .still, baseContact := 0, baseNear := 1, topNear := 1, edgeNear := 1 }
     e.result none = some .bag ∧ ({ e with topNear := 0 } : Evidence).result none = some .moving ∧
     ({ e with topNear := 0, edgeNear := 0 } : Evidence).result none = some .desk ∧
     ({ e with lid := .opened, baseContact := 2 } : Evidence).result none = some .lap ∧
     ({ e with lid := .opened, baseContact := 1 } : Evidence).result (some .lap) = some .lap ∧
     ({ e with lid := .opened, baseContact := 1 } : Evidence).result none = none) := by decide

/-- Reset with another placement record. -/
def withPlacement (p : Plu) : State := { State.reset with plu := p }

/-- A candidate equal to the result, equal to the placement, and equal to neither. -/
theorem test_candidate :
    State.reset.plu.evidence.result State.reset.plu.candidate = some .moving ∧ State.reset.plu.candidate ≠ some .moving ∧
    State.reset.plu.placement ≠ .settled .moving ∧
    (withPlacement { Plu.reset with candidate := some .moving }).plu.candidate = some .moving ∧
    (withPlacement { Plu.reset with placement := .settled .moving }).plu.placement = .settled .moving ∧
    (evaluateCandidate State.reset).plu.dwell = .running 3000000 := by decide

/-- Two differing samples of a line. -/
def twoSamples : LineFilter := { accepted := .low, run := 2, sampledAt := 2000 }

/-- The lines: a sample, each change, and the still timer. -/
theorem test_lines :
    (withPlacement { Plu.reset with lid := twoSamples }).plu.lid.run = 2 ∧
    (withPlacement { Plu.reset with lid := twoSamples }).plu.lid.accepted = .low ∧
    ({ twoSamples with accepted := .high } : LineFilter).accepted = .high ∧ State.reset.plu.stillTimer = some 2000000 ∧
    (ran .lidChange (withPlacement { Plu.reset with lid := twoSamples })).plu.evidence.lid = .opened ∧
    (ran .motionChange (withPlacement { Plu.reset with motion := twoSamples })).plu.stillTimer = none ∧
    (ran .motionChange (withPlacement { Plu.reset with motion := { twoSamples with accepted := .high } })).plu.stillTimer =
      some 2003000 ∧
    (ran .stillTimerExpiry State.reset).plu.evidence.motion = .still ∧
    (ran (.lineFilterSample .high .low .high) State.reset).plu.lid.run = 1 ∧
    (ran (.lineFilterSample .high .low .high) State.reset).now = 1000 := by decide

/-- A dwell that runs, with a pin and without. -/
def dwelling (pin : Option Pin) : State :=
  withPlacement { Plu.reset with candidate := some .desk, dwell := .running 2000000, pin := pin }

/-- The dwell's expiry. -/
theorem test_dwell_expiry :
    (dwelling none).plu.dwell = .running 2000000 ∧ (dwelling none).plu.pin = none ∧
    (dwelling none).plu.candidate = some .desk ∧ (dwelling none).managed = false ∧
    (dwelling (some ⟨.bag, none⟩)).plu.pin = some ⟨.bag, none⟩ ∧
    (ran .dwellExpiry (dwelling none)).plu.placement = .settled .desk ∧
    (ran .dwellExpiry (dwelling (some ⟨.bag, none⟩))).plu.dwell = .elapsed := by decide

/-- Pins: refused codes and times, a pin made, ended by request, and expired. -/
theorem test_pins :
    State.reset.takes ∧ 4 < 5 ∧ 4 = SetId.moving.index.val + 1 ∧ 1 = SetId.desk.index.val + 1 ∧ State.reset.plu.pin = none ∧
    status? (.placementPin 0 0 0 none) State.reset = some .badField ∧
    status? (.placementPin 0 0 5 none) State.reset = some .badField ∧
    status? (.placementPin 0 0 1 (some 0)) State.reset = some .badField ∧
    status? (.placementPin 0 0 1 (some 3601)) State.reset = some .badField ∧
    (ran (.placementPin 0 0 4 (some 3600)) State.reset).plu.pin = some ⟨.moving, some 3600000000⟩ ∧
    (ran (.placementUnpin 0 0) (dwelling (some ⟨.bag, none⟩))).plu.pin = none ∧
    (withPlacement { Plu.reset with pin := some ⟨.bag, some 5⟩, dwell := .elapsed, candidate := some .lap }).plu.pin =
      some ⟨.bag, some 5⟩ ∧
    (ran .pinExpiry (withPlacement { Plu.reset with pin := some ⟨.bag, some 5⟩, dwell := .elapsed, candidate := some .lap })).plu.placement =
      .settled .lap := by decide

/-- A placement that changes in RUNNING, at a dwell's expiry and by a pin, whose set then governs; and one that stays. -/
theorem test_placement_changes_the_set :
    (let r := running0 #v[some domain0, none, none, none, none, none]
     let desk := { set0 with sustained := 40000, burst := 40000, bucket := 50000 }
     let s : State := withZone0 { Zone.reset with enabled := true, state := .normal, temperature := some 650 } { r with
       lst := { r.lst with sets := r.lst.sets.set 0 (some desk) }
       plu := { Plu.reset with candidate := some .desk, dwell := .running 2000000, placement := .settled .bag }
       alc := { r.alc with budget := { r.alc.budget with credit := 90000 } } }
     let t := ran .dwellExpiry s
     let u := ran (.placementPin 0 0 1 none) s
     s.managed = true ∧ s.plu.placement ≠ .settled .desk ∧ s.msu.pendingMeas = false ∧ s.lst.get .desk = some desk ∧
     s.plu.pin = none ∧ s.lst.get .bag = some set0 ∧ t.active = desk ∧ t.alc.budget.credit = 50000 ∧
     t.alc.budget.effective = some 40000 ∧ (t.znm.zones.get 0).state = .warm ∧ u.alc.budget.effective = some 40000 ∧
     u.plu.placement = .settled .desk ∧
     (ran .dwellExpiry { s with plu := { s.plu with placement := .settled .desk } }).alc.budget.credit = 90000) := by decide

/-- ZONE_SETUP refused and accepted. -/
theorem test_zone_setup :
    (inMode .running).managed = true ∧ State.reset.managed = false ∧
    status? (.zoneSetup 0 0 ⟨6, true, some .fed, 0, []⟩) State.reset = some .noSuch ∧
    status? (.zoneSetup 0 0 ⟨5, true, none, 0, []⟩) State.reset = some .badField ∧
    status? (.zoneSetup 0 0 ⟨5, true, some .fed, 4, []⟩) State.reset = some .badField ∧
    status? (.zoneSetup 0 0 ⟨5, true, some .channels, 3, [16]⟩) State.reset = some .noSuch ∧
    status? (.zoneSetup 0 0 ⟨5, true, some .channels, 3, [2, 2]⟩) State.reset = some .badField ∧ ¬[(2 : Fin 16), 2].Nodup ∧
    (let s : State := { State.reset with msu := { Msu.reset with
       channels := Msu.reset.channels.set 2 { Channel.reset 2 with kind := .current } } }
     (s.msu.channels.get 2).kind ≠ .temp ∧ status? (.zoneSetup 0 0 ⟨5, true, some .channels, 3, [2]⟩) s = some .conflict) ∧
    ((ran (.zoneSetup 0 0 ⟨5, true, some .channels, 3, [15]⟩) State.reset).znm.zones.get 5).fanMap = [0, 1] := by decide

/-- A FED zone, NORMAL, with a running feed timer. -/
def zone0 : Zone :=
  { Zone.reset with
    enabled := true, state := .normal, temperature := some 500, feedTimer := some 2000000, fanMap := [0]
    stepTimer := some 1000000 }

/-- ZONE_FEED refused and accepted, and the feed timer's expiry, in LOCKED and in RUNNING. -/
theorem test_feeds :
    (Zone.reset.enabled = false ∧ zone0.enabled = true ∧ zone0.source = .fed ∧ zone0.feedTimer = some 2000000) ∧
    status? (.zoneFeed 0 0 6 none) State.reset = some .noSuch ∧ status? (.zoneFeed 0 0 0 none) State.reset = some .conflict ∧
    status? (.zoneFeed 0 0 0 (some 1501)) (withZone0 zone0 State.reset) = some .badField ∧
    ((ran (.zoneFeed 0 0 0 (some 1500)) (withZone0 zone0 locked0)).znm.zones.get 0).temperature = some 1500 ∧
    ((ran (.zoneFeed 0 0 0 (some 800)) (withZone0 zone0 (running0 (Vector.replicate 6 none)))).znm.zones.get 0).state =
      .critical ∧
    (running0 (Vector.replicate 6 none)).mdc.mode = .running ∧
    ((ran (.feedTimerExpiry 0) (withZone0 zone0 (running0 (Vector.replicate 6 none)))).znm.zones.get 0).state = .faulted := by
  decide

/-- Demands and targets: without a temperature, at the knee, between and at the hard threshold; a lifted fan; 60 outside
RUNNING and DOZING, and the minimum duty in place of a smaller one. -/
theorem test_demands_and_targets :
    (let at_ := fun v state demand => withZone0 { zone0 with temperature := v, state := state, demand := #v[demand, none] }
       (running0 (Vector.replicate 6 none))
     let demand := fun v => (at_ v .normal none).demandOf 0 0
     let target := fun state d => (at_ none state d).targetOf 0
     let t := (running0 (Vector.replicate 6 none)).active
     (t.zones.get 0).soft < (t.zones.get 0).hard ∧ (t.fans.get 0).floor ≤ (t.fans.get 0).ceiling ∧ demand none = 100 ∧
     demand (some 520) = 0 ∧ demand (some 521) = 0 ∧ demand (some 522) = 1 ∧ demand (some 699) = 89 ∧ demand (some 700) = 90 ∧
     target .hot (some 10) = 100 ∧ target .normal (some 10) = 20 ∧ target .normal (some 95) = 90 ∧ target .normal none = 0 ∧
     State.reset.targetOf 0 = 60) := by decide

/-- A DOZING part with zone Z0. -/
def dozing0 (z : Zone) : State :=
  let s := withZone0 z (running0 (Vector.replicate 6 none))
  { s with mdc := { Mdc.reset with mode := .dozing } }

/-- Evaluations in RUNNING and DOZING: a zone that enters WARM wakes the part, one that does not leaves it DOZING; a CRITICAL
one puts THERMAL on the lines, hands its severity on and lifts its fan. -/
theorem test_evaluations :
    (let fed := fun v => ran (.zoneFeed 0 0 0 (some v)) (dozing0 zone0)
     let hot := ran (.zoneFeed 0 0 0 (some 800)) (withZone0 zone0 (running0 (Vector.replicate 6 none)))
     (dozing0 zone0).managed = true ∧ (dozing0 zone0).mdc.mode = .dozing ∧ (dozing0 zone0).msu.pendingMeas = false ∧
     (fed 599).mdc.mode = .dozing ∧ (fed 600).mdc.mode = .running ∧ ((fed 600).znm.zones.get 0).woke = true ∧
     ¬((dozing0 zone0).znm.thermalClaim = true ∨ ∃ y, ((dozing0 zone0).znm.zones.get y).state = .critical) ∧
     hot.znm.thermalClaim = true ∧ (hot.clu.get 5).causes = [.thermal] ∧ hot.alc.budget.severities.get 0 = true ∧
     hot.alc.budget.effective = some 0 ∧ (hot.znm.zones.get 0).demand.get 0 = some 90 ∧ (0 : Fin 2) ∈ zone0.fanMap ∧
     (hot.fnc.fans.get 0).enabled = true ∧ (hot.fnc.fans.get 0).target = 100 ∧
     ((ran (.feedTimerExpiry 0) (dozing0 zone0)).znm.zones.get 0).state = .faulted) := by decide

/-- Judgements at the thresholds and at the exits. -/
theorem test_judge :
    (let t : Thresholds := { soft := 600, hard := 700, critical := 800 }
     t.soft < t.hard ∧ t.hard < t.critical ∧ judge t 20 .normal (some 600) = .warm ∧ judge t 20 .normal (some 599) = .normal ∧
     judge t 20 .critical (some 780) = .hot ∧ judge t 20 .critical (some 781) = .critical ∧
     judge t 20 .warm (some 580) = .normal ∧ judge t 20 .hot (some 680) = .warm ∧ judge t 20 .faulted (some 800) = .critical ∧
     judge t 20 .hot none = .faulted) := by decide

/-- Step timers in RUNNING: a WARM zone that warms, one that cools, and a NORMAL one. -/
theorem test_step_timer :
    (let s := fun z => withZone0 z (running0 (Vector.replicate 6 none))
     let r := fun z => ((ran (.stepTimerExpiry 0) (s z)).znm.zones.get 0).r
     zone0.stepTimer = some 1000000 ∧ (s zone0).managed = true ∧ r { zone0 with state := .warm } = 1000 ∧
     r { zone0 with state := .warm, lastStepTemp := some 500, r := 250000 } = 250000 ∧
     r { zone0 with state := .warm, lastStepTemp := some 501, r := 1000 } = 1000 ∧ r { zone0 with r := 750 } = 0 ∧
     r { zone0 with state := .hot, r := 750 } = 750) := by decide

/-! ## Source and budget -/

/-- The adapter's third differing sample, before RUN and in RUNNING. -/
theorem test_adapter :
    (let p := fun s : State => { s with plu := { s.plu with adp := twoSamples } }
     (p State.reset).plu.adp.run = 2 ∧ (true ≠ State.reset.srm.adapterPresent) ∧ State.reset.srm.severity = false ∧
     (ran .adpChange (p State.reset)).srm.adapterPresent = true ∧
     (ran .adpChange (p locked0)).srm.sourceLimit = some 62000 ∧
     (ran .adpChange (p (running0 (Vector.replicate 6 none)))).alc.budget.sourceLimit = some 62000) := by decide

/-- A changed severity: the adapter leaves while the battery is CRITICAL, and comes back. -/
theorem test_severity :
    (let s := fun level claim => { running0 (Vector.replicate 6 none) with
       plu := { Plu.reset with adp := { twoSamples with accepted := level } }
       srm := { Srm.reset with
         setup := some source0, battery := .critical, adapterPresent := !claim, severity := claim, sourceLimit := some 20000 } }
     let gone := ran .adpChange (s .high false)
     let back := ran .adpChange (s .low true)
     (s .high false).plu.adp.run = 2 ∧ (s .high false).lst.chassis = some chassis0 ∧ chassis0.systemReserve = 3000 ∧
     gone.srm.severity = true ∧ (gone.clu.get 0).causes = [.source] ∧ gone.alc.budget.sourceSeverity = true ∧
     back.srm.severity = false ∧ (back.clu.get 0).causes = [] ∧ back.srm.sourceLimit = some 62000) := by decide

/-- The battery's transitions at their thresholds. -/
theorem test_battery :
    (let r := fun b => { Srm.reset with setup := some source0, battery := b }
     let c := fun v => { Completion.reset with values := Completion.reset.values.set 15 v }
     source0.criticalThreshold < source0.lowThreshold ∧ 0 < source0.hysteresis ∧ (c none).values.get 15 = none ∧
     (c (some 10000)).values.get 15 = some 10000 ∧ (r .normal).evaluated (c (some 10000)) = .low ∧
     (r .normal).evaluated (c (some 10001)) = .normal ∧ (r .normal).evaluated (c (some 9000)) = .critical ∧
     (r .low).evaluated (c (some 10200)) = .normal ∧ (r .low).evaluated (c (some 10199)) = .low ∧
     (r .critical).evaluated (c (some 9200)) = .low ∧ (r .critical).evaluated (c (some 9199)) = .critical ∧
     (r .critical).evaluated (c (some 10200)) = .normal ∧ (r .low).evaluated (c none) = .low) := by decide

/-- A completion that takes the battery to CRITICAL without the adapter, and one that leaves its state. -/
theorem test_battery_at_a_completion :
    (let r := running0 (Vector.replicate 6 none)
     let c := fun v => { Completion.reset with values := Completion.reset.values.set 15 (some v) }
     let t := sourceCompletion (c 9000) r
     r.srm.evaluated (c 9000) = .critical ∧ r.srm.evaluated (c 10001) = r.srm.battery ∧ locked0.managed = false ∧
     r.managed = true ∧ t.srm.sourceLimit = some 20000 ∧ t.alc.budget.effective = some 0 ∧
     t.alc.budget.sourceSeverity = true ∧ (t.clu.get 5).causes = [.source]) := by decide

/-- Source fields on channel 2. -/
def sourceRequest : SourceFields :=
  { rating := 65000, discharge := 50000, lowLimit := 50000, batteryChannel := 2, lowThreshold := 65535
    criticalThreshold := 65534, hysteresis := 50, pair := none }

/-- SOURCE_SETUP refused at each stage and accepted. -/
theorem test_source_setup :
    (let s : State := { locked0 with msu := { Msu.reset with
       channels := Msu.reset.channels.set 2 { Channel.reset 2 with kind := .voltage } } }
     State.reset.lst.chassis = none ∧ s.lst.chassis = some chassis0 ∧
     sourceRequest.batteryChannel = (2 : Fin 16).val ∧
     sourceRequest.pair = (none : Option (Fin 16 × Fin 16)).map (fun p => (p.1.val, p.2.val)) ∧
     (s.msu.channels.get 2).kind = .voltage ∧ status? (.sourceSetup 0 0 sourceRequest) State.reset = some .notReady ∧
     status? (.sourceSetup 0 0 { sourceRequest with hysteresis := 49 }) s = some .badField ∧
     status? (.sourceSetup 0 0 { sourceRequest with batteryChannel := 16 }) s = some .noSuch ∧
     status? (.sourceSetup 0 0 sourceRequest) locked0 = some .conflict ∧
     (ran (.sourceSetup 0 0 sourceRequest) s).srm.sourceLimit = some 50000) := by decide

/-- SYS_CAP refused, stored before RUN, repeated, and changed in RUNNING. -/
theorem test_sys_cap :
    (let s := running0 (Vector.replicate 6 none)
     s.managed = true ∧ locked0.managed = false ∧ s.alc.budget.systemCap = none ∧ s.alc.budget.systemCap ≠ some 30000 ∧
     status? (.sysCap 0 0 (some 250250)) s = some .badField ∧ status? (.sysCap 0 0 (some 249)) s = some .badField ∧
     (ran (.sysCap 0 0 (some 30000)) s).alc.budget.effective = some 30000 ∧
     (ran (.sysCap 0 0 (some 30000)) locked0).alc.budget.systemCap = some 30000) := by decide

/-- ZONE and SOURCE notices of changes in RUNNING, from an effective budget formed before. -/
theorem test_zone_and_source_notices :
    (let r := running0 (Vector.replicate 6 none)
     let fed := fun v => ran (.zoneFeed 0 0 0 (some v)) (withZone0 zone0 r)
     let p : State := { r with plu := { r.plu with adp := twoSamples } }
     let t := ran .adpChange p
     let c := { Completion.reset with values := Completion.reset.values.set 15 (some 9000) }
     (fed 650).slk.notices.any (·.kind == 0x44) = true ∧ (fed 550).slk.notices.any (·.kind == 0x44) = false ∧
     p.alc.budget.effective = some p.formB ∧ t.alc.budget.effective = some t.formB ∧
     Notice.source true p.srm.battery (some 62000) ∈ t.slk.notices ∧ r.alc.budget.effective = some r.formB ∧
     Notice.source false .critical (some 20000) ∈ (sourceCompletion c r).slk.notices ∧
     (sourceCompletion c r).alc.budget.effective = some (sourceCompletion c r).formB) := by decide

/-- The part RUNNING with two domains that hold 20,000 mW each, a system cap and a round. -/
def loaded (ceiling cap : Nat) (round : Round) : State :=
  let d := { domain0 with line := none, grant := some 20000 }
  let s := running0 #v[some { d with effCeiling := some ceiling }, some { d with priority := 2 }, none, none, none, none]
  { s with alc := { s.alc with budget := { s.alc.budget with systemCap := some cap }, round := round } }

/-- Recomputations: with spare, without spare, a need that priority 2 bears, a ceiling below its grant, and a reduction
within an open round. -/
theorem test_recomputations :
    (let opened : Round := { Round.reset with number := 255, opened := true, causes := [.source] }
     let grants := fun s : State => (s.alc.grants.get 0, s.alc.grants.get 1)
     let s := loaded 30000 30000 Round.reset
     let t := recompute .sysCap s
     s.managed = true ∧ s.alc.allDomains Domain.sound = true ∧ s.alc.allDomains Domain.holdsFloor = true ∧
     s.lst.chassis = some chassis0 ∧ (loaded 30000 40000 Round.reset).formB = 40000 ∧
     recompute .sysCap (loaded 30000 40000 Round.reset) = (loaded 30000 40000 Round.reset).setB (some 40000) ∧
     grants t = (20000, 10000) ∧ t.alc.round.causes = [.sysCap] ∧ t.alc.round.number = 1 ∧
     grants (recompute .sysCap (loaded 30000 15000 Round.reset)) = (10000, 5000) ∧
     grants (recompute .ceiling (loaded 15000 45000 Round.reset)) = (15000, 20000) ∧
     (recompute .sysCap (loaded 30000 30000 opened)).alc.round.number = 255 ∧
     (recompute .sysCap (loaded 30000 30000 opened)).alc.round.causes = [.source, .sysCap]) := by
  refine ⟨by decide, by decide, by decide, by decide, by decide, rfl, ?_⟩
  decide

/-- The bucket after 100 ms without a load, and at the re-arm threshold. -/
theorem test_burst_update :
    (let s := running0 (Vector.replicate 6 none)
     s.managed = true ∧ (∀ u, s.srm.setup = some u → u.pair = none) ∧
     (updateBurst Completion.reset 100 s).alc.budget.credit = 4500 ∧
     (updateBurst Completion.reset 1112 s).alc.budget.armed = true ∧
     (updateBurst Completion.reset 1111 s).alc.budget.armed = false) := by
  refine ⟨by decide, ?_, by decide, by decide, by decide⟩
  intro u h
  cases h
  rfl

/-- A pair whose channels are both VALID with values. -/
theorem test_burst_pair :
    (let s : State := { running0 (Vector.replicate 6 none) with
       srm := { Srm.reset with setup := some { source0 with pair := some (0, 1) } } }
     let c : Completion := { Completion.reset with
       values := (Completion.reset.values.set 0 (some 2000)).set 1 (some 12000), states := Vector.replicate 16 .valid }
     s.srm.setup = some { source0 with pair := some (0, 1) } ∧ c.states.get 0 = .valid ∧ c.states.get 1 = .valid ∧
     c.values.get 0 = some (Int.ofNat 2000) ∧ c.values.get 1 = some (Int.ofNat 12000) ∧ platformPower s c = 24000) := by decide

/-! ## The grant table and rounds -/

/-- DOMAIN_DECLARE refused at each step, and accepted in LOCKED and in RUNNING. -/
theorem test_declare :
    (let s := running0 #v[none, some domain0, none, none, none, none]
     s.mdc.mode ≠ .prepare ∧ declare0.slot = (0 : Fin 6).val ∧ s.alc.domains.get 0 = none ∧ s.alc.domains.get 1 ≠ none ∧
     declare0.kind = some .processor ∧ declare0.line = (some (2 : Fin 6)).map Fin.val ∧
     status? (.domainDeclare 0 0 declare0) State.reset = some .notReady ∧
     status? (.domainDeclare 0 0 { declare0 with slot := 6 }) s = some .noSuch ∧
     status? (.domainDeclare 0 0 { declare0 with slot := 1 }) s = some .conflict ∧
     status? (.domainDeclare 0 0 { declare0 with kind := none }) s = some .badField ∧
     status? (.domainDeclare 0 0 { declare0 with priority := 4 }) s = some .badField ∧
     status? (.domainDeclare 0 0 { declare0 with line := some 6 }) s = some .noSuch ∧
     status? (.domainDeclare 0 0 declare0) s = some .conflict ∧
     status? (.domainDeclare 0 0 { declare0 with line := none, floor := 15250 }) s = some .outOfLimits ∧
     ((ran (.domainDeclare 0 0 { declare0 with line := none, floor := 15000 }) s).alc.domains.get 0).bind (·.grant) =
       some 15000 ∧
     ((ran (.domainDeclare 0 0 declare0) locked0).alc.domains.get 0).map (·.state) = some .unmanaged) := by decide

/-- DOMAIN_DECLARE in RUNNING: the domain stands at its floor, SETTLED, with the ceiling of R120 and its RAISE notice, which
is dropped where the queue is full; a CHARGER's ceiling is 0 without the adapter, and the charge cap with it. -/
theorem test_declare_managed :
    (let s := running0 (Vector.replicate 6 none)
     let full : State := { s with slk := { s.slk with notices := List.replicate 16 (.done .ok) } }
     let plugged : State := { s with alc := { s.alc with budget := { s.alc.budget with adapterPresent := true } } }
     let charger := { declare0 with kind := some .charger, floor := 0 }
     let ceiling := fun (t : State) => (t.alc.domains.get 0).bind (·.effCeiling)
     let t := ran (.domainDeclare 0 0 declare0) s
     s.managed = true ∧ (∀ e ∈ s.alc.queue, e.slot ≠ 0) ∧ (∀ e ∈ s.alc.round.affected, e.slot ≠ 0) ∧
     s.alc.round.beneficiary ≠ some 0 ∧ s.slk.notices.length < 16 ∧ (∀ m ∈ full.slk.notices, m.key ≠ (0x41, 0)) ∧
     (t.alc.domains.get 0).map (fun e => (e.grant, e.state, e.effCeiling, e.measured)) =
       some (some 5000, .settled, some 30000, none) ∧
     Notice.grant 0 5000 .settled 30000 .raise [] none ∈ t.slk.notices ∧ t.alc.queue = [] ∧
     (ran (.domainDeclare 0 0 declare0) full).slk.dropped = true ∧
     ceiling (ran (.domainDeclare 0 0 charger) s) = some 0 ∧
     ceiling (ran (.domainDeclare 0 0 charger) plugged) = some 15000) := by decide

/-- A charger's ceiling that rises with the adapter serves its entry with no spare: a preemption for it begins. -/
theorem test_risen_ceiling_is_served :
    (let charger := { domain0 with kind := .charger, priority := 0, floor := 0, ceiling := 1000, request := some 1000, effCeiling := some 0, grant := some 0 }
     let other := { domain0 with priority := 3, floor := 0, ceiling := 45000, effCeiling := some 45000, grant := some 45000 }
     let s := running0 #v[some charger, some other, none, none, none, none]
     let t := handSource { s with srm := { s.srm with adapterPresent := true, sourceLimit := some 65000 } }
     s.alc.spare = 0 ∧ t.alc.round.opened = true ∧ t.alc.round.causes = [.preempt] ∧ t.alc.round.beneficiary = some 0 ∧
     t.alc.round.reservation = 1000 ∧ (t.alc.domains.get 1).bind (·.grant) = some 44000) := by decide

/-- A table with a domain in slot 0 and another, REVOKING, in slot 1. -/
def table (d : Domain) : State :=
  let s := running0 #v[some d, some { domain0 with line := none, state := .revoking, deadline := some 9000000 }, none, none, none,
    none]
  { s with alc := { s.alc with round := { Round.reset with number := 1, opened := true, causes := [.source] } } }

/-- DOMAIN_RETIRE of a domain and of an empty slot, in RUNNING and in LOCKED. -/
theorem test_retire :
    (table domain0).alc.domains.get 0 = some domain0 ∧ (table domain0).alc.domains.get 2 = none ∧
    (table domain0).managed = true ∧ status? (.domainRetire 0 0 6) (table domain0) = some .noSuch ∧
    status? (.domainRetire 0 0 2) (table domain0) = some .noSuch ∧
    (ran (.domainRetire 0 0 0) (table domain0)).alc.domains.get 0 = none ∧
    (ran (.domainRetire 0 0 0) { locked0 with alc := { Alc.reset with domains := #v[some domain0, none, none, none, none, none] } }).alc.domains.get 0 =
      none := by decide

/-- The beneficiary retires: its reservation is spare again and the round goes on; another domain's reservation stays. The
last REVOKING domain retires: the round closes. -/
theorem test_retire_beneficiary :
    (let held := fun (i : Fin 6) =>
       let s := table domain0
       ({ s with alc := { s.alc with round := { s.alc.round with reservation := 3000, beneficiary := some i } } } : State)
     let t := ran (.domainRetire 0 0 0) (held 0)
     let u := ran (.domainRetire 0 0 0) (held 2)
     let v := ran (.domainRetire 0 0 1) (table domain0)
     (table domain0).alc.round.opened = true ∧ ((table domain0).alc.domains.get 1).map (·.state) = some .revoking ∧
     (t.alc.round.number, t.alc.round.reservation, t.alc.round.beneficiary, t.alc.round.opened) = (1, 0, none, true) ∧
     (u.alc.round.number, u.alc.round.reservation, u.alc.round.beneficiary) = (1, 3000, some 2) ∧
     (v.alc.round.number, v.alc.round.opened) = (1, false)) := by decide

/-- DOMAIN_REQUEST refused, and below, at and above the grant while a round is open. -/
theorem test_request :
    (let d := { domain0 with grant := some 20000, request := some 20000 }
     let grant := fun v => ((ran (.domainRequest 0 0 0 v) (table d)).alc.domains.get 0).bind (·.grant)
     d.permit = .on ∧ d.effCeiling = some 30000 ∧ (table d).alc.round.opened = true ∧ (table d).managed = true ∧
     status? (.domainRequest 0 0 0 250001) (table d) = some .badField ∧
     status? (.domainRequest 0 0 0 0) (table { d with permit := .off }) = some .notPermitted ∧
     status? (.domainRequest 0 0 0 10249) (table d) = some .ok ∧ status? (.domainRequest 0 0 0 4999) (table d) = some .trimmed ∧
     grant 10249 = some 10000 ∧ grant 20249 = some 20000 ∧ grant 250000 = some 20000 ∧
     (ran (.domainRequest 0 0 0 250000) (table d)).alc.queue.map (·.slot) = [0]) := by decide

/-- DOMAIN_PERMIT repeated, turned OFF above and at the floor, and turned ON. -/
theorem test_permit :
    (let d := { domain0 with grant := some 20000 }
     d.permit = .on ∧ domain0.grant.getD 0 ≤ domain0.floor ∧ d.floor < d.grant.getD 0 ∧ (table d).managed = true ∧
     locked0.managed = false ∧ status? (.domainPermitOff 0 0 2) (table d) = some .noSuch ∧
     ((ran (.domainPermitOff 0 0 0) (table d)).alc.domains.get 0).map (·.state) = some .revoking ∧
     ((ran (.domainPermitOff 0 0 0) (table domain0)).alc.domains.get 0).bind (·.effCeiling) = some 5000 ∧
     ((ran (.domainPermitOn 0 0 0) (table { d with permit := .off, effCeiling := some 5000 })).alc.domains.get 0).bind
       (·.effCeiling) = some 30000) := by decide

/-- DOMAIN_SETTLED in each state, and a deadline with and without a clamp line. -/
theorem test_settled_and_deadline :
    (let d := { domain0 with state := .revoking, deadline := some 500000 }
     let c := { domain0 with state := .clamped, overdueSince := some 0 }
     d.measured = none ∧ (∃ j e, j ≠ 0 ∧ (table d).alc.domains.get j = some e ∧ e.state = .revoking) ∧
     0 + 200000 ≤ (table c).now + 200000 ∧ (table c).now + 199999 < 0 + 200000 ∧
     status? (.domainSettled 0 0 2) (table d) = some .noSuch ∧
     status? (.domainSettled 0 0 0) (table { d with measured := some 0 }) = some .conflict ∧
     ((ran (.domainSettled 0 0 0) (table d)).alc.domains.get 0).map (·.state) = some .settled ∧
     ((ran (.domainSettled 200000 0 0) (table c)).alc.domains.get 0).map (·.state) = some .settled ∧
     ((ran (.domainSettled 199999 0 0) (table c)).alc.domains.get 0).map (·.state) = some .clamped ∧
     ((ran (.deadlineExpiry 0) (table d)).alc.domains.get 0).map (·.state) = some .clamped ∧
     ((ran (.deadlineExpiry 0) (table d)).clu.get 2).causes = [.overdue] ∧
     ((ran (.deadlineExpiry 1) (table d)).alc.domains.get 1).map (·.state) = some .overdue) := by
  refine ⟨rfl, ⟨1, { domain0 with line := none, state := .revoking, deadline := some 9000000 }, by decide, rfl, rfl⟩, ?_⟩
  decide

/-- A completion's judgement of a domain whose current channel reads `x` mA at 12 V: its grant is 5,000 mW and the tolerance
500 mW, so 458 mA is within and 459 mA is not. -/
def judgedAt (d : Domain) (time x : Nat) : Option Domain :=
  let c : Completion := { Completion.reset with timeMs := time, values := Completion.reset.values.set 0 (some x) }
  (checkDomain time 0 (measureDomains c (table { d with sense := some 0 }))).alc.domains.get 0

/-- Compliance at a completion: a REVOKING domain settles or stays; a CLAMPED one starts its hold, keeps it, loses it, and is
released after 200 ms; a SETTLED one stays. -/
theorem test_compliance :
    (let r := { domain0 with state := .revoking, deadline := some 900000 }
     let c := fun h => { domain0 with state := .clamped, overdueSince := some 0, holdStart := h }
     let state := fun d t x => (judgedAt d t x).map (·.state)
     (judgedAt r 100 458).bind (·.measured) = some 5496 ∧ state r 100 458 = some .settled ∧ state r 100 459 = some .revoking ∧
     (judgedAt (c none) 100 458).bind (·.holdStart) = some 100 ∧ (judgedAt (c (some 100)) 299 459).bind (·.holdStart) = none ∧
     state (c (some 100)) 299 458 = some .clamped ∧ state (c (some 100)) 300 458 = some .settled ∧
     state domain0 100 459 = some .settled) := by decide

/-- CONFLICT shows the grant state. -/
theorem test_settled_conflict :
    (let d := { domain0 with state := .revoking, deadline := some 500000, measured := some 0 }
     d.state ≠ .unmanaged ∧ d.state ≠ .settled ∧
     (ran (.domainSettled 0 0 0) (table d)).lastAnswer =
       some { status := .conflict, body := .settled .revoking none }) := by decide

/-- A part RUNNING with no cap, a head with a shortfall of 10,000 mW in slot 0, and another domain in slot 1. -/
def queued (b : Nat) (head other : Domain) (round : Round) : State :=
  let s := running0 #v[some { head with request := some 15000 }, some other, none, none, none, none]
  { s with alc := { s.alc with
    budget := { s.alc.budget with effective := some b }, queue := [{ slot := 0, priority := 1, time := 0 }], round := round } }

/-- Serving: whole, in part, by a preemption, and with nothing that could be taken. -/
theorem test_serving :
    (let high := { domain0 with line := none, priority := 2, grant := some 20000 }
     let grants := fun s : State => (s.alc.grants.get 0, s.alc.grants.get 1)
     let s := fun b => queued b domain0 high Round.reset
     let t := serve (s 25000)
     (s 25000).alc.round.opened = false ∧ (s 25000).alc.queue = [{ slot := 0, priority := 1, time := 0 }] ∧
     (domain0.grant = some 5000 ∧ domain0.effCeiling ≠ none ∧ domain0.permit = .on) ∧
     ((s 25000).alc.queue.map (·.slot)).Nodup ∧ (s 25000).alc.spare = 0 ∧
     (s 25000).alc.allDomains Domain.sound = true ∧ (s 25000).alc.allDomains Domain.holdsFloor = true ∧
     grants (serve (s 35000)) = (15000, 20000) ∧ (serve (s 35000)).alc.queue = [] ∧
     (s 30000).alc.spare = 5000 ∧ (serve (s 30000)).alc.grants.get 0 = 10000 ∧ grants t = (5000, 10000) ∧
     t.alc.round.reservation = 10000 ∧ t.alc.round.beneficiary = some 0 ∧ t.alc.round.causes = [.preempt] ∧
     serve (queued 25000 domain0 { high with priority := 1 } Round.reset) = queued 25000 domain0 { high with priority := 1 } Round.reset) := by
  refine ⟨by decide, by decide, by decide, by decide, by decide, by decide, by decide, by decide, by decide, by decide,
    by decide, by decide, by decide, by decide, by decide, rfl⟩

/-- The close of a round: while a domain is REVOKING, with no beneficiary, and with one that takes the reservation. -/
theorem test_close :
    (let round : Round := { Round.reset with
       number := 7, opened := true, causes := [.preempt], affected := [{ slot := 1, oldGrant := 30000 }] }
     let other := { domain0 with line := none, priority := 2, grant := some 20000 }
     let reserved := queued 35000 domain0 other { round with reservation := 10000, beneficiary := some 0 }
     let free := queued 25000 domain0 { other with priority := 1 } round
     let t := closeIfDone reserved
     (table domain0).alc.round.opened = true ∧ (closeIfDone (table domain0)).alc.round.opened = true ∧
     (∀ i, free.alc.revoking i = false) ∧ (∀ i, reserved.alc.revoking i = false) ∧ free.alc.round.beneficiary = none ∧
     (closeIfDone free).alc.round = { Round.reset with number := 7 } ∧ reserved.alc.round.beneficiary = some 0 ∧
     5000 + 10000 = (reserved.alc.domains.get 0).elim 0 Domain.wanted ∧ t.alc.grants.get 0 = 15000 ∧ t.alc.queue = [] ∧
     t.alc.round = { Round.reset with number := 7 } ∧ Notice.round 7 [.preempt] 1 0 0 ∈ t.slk.notices) := by decide

/-- RUNNING with slot 0 at its floor, on no line, and another domain; no round is open. -/
def unopened (b : Nat) (head other : Domain) (queue : List QueueEntry) : State :=
  let s := queued b head other Round.reset
  { s with alc := { s.alc with queue := queue } }

/-- DOMAIN_REQUEST with no round open: a raise is served, a repeated one is not, a lowered grant serves the queue. -/
theorem test_request_serves :
    (let other := { domain0 with line := none, priority := 2, grant := some 20000, request := some 20000 }
     let grants := fun s : State => (s.alc.grants.get 0, s.alc.grants.get 1)
     let s := unopened 45000 domain0 other []
     let waits := unopened 25000 domain0 { other with priority := 1 } [{ slot := 0, priority := 1, time := 0 }]
     s.managed = true ∧ s.alc.round.opened = false ∧ s.alc.queue = [] ∧
     grants (ran (.domainRequest 0 0 0 15000) s) = (15000, 20000) ∧
     (ran (.domainRequest 0 0 0 15000) (unopened 25000 domain0 other [])).alc.round.causes = [.preempt] ∧
     grants (ran (.domainRequest 0 0 0 15000) waits) = (5000, 20000) ∧
     (ran (.domainRequest 0 0 0 15000) waits).alc.queue.map (·.slot) = [0] ∧
     grants (ran (.domainRequest 0 0 1 12000) waits) = (13000, 12000) ∧
     grants (ran (.domainRequest 0 0 0 16000) (unopened 32000 domain0 other [{ slot := 0, priority := 1, time := 0 }])) =
       (12000, 16000)) := by decide

/-- The requests of a beneficiary: its reservation is cut to the new shortfall, or returned. -/
theorem test_request_of_a_beneficiary :
    (let t := fun v => ran (.domainRequest 0 0 0 v) revoking0
     revoking0.alc.round.beneficiary = some 0 ∧ (t 9000).alc.round.reservation = 4000 ∧
     (t 9000).alc.round.beneficiary = some 0 ∧ (t 5000).alc.round.reservation = 0 ∧ (t 5000).alc.round.beneficiary = none ∧
     (t 5000).alc.queue = [] ∧ (t 20000).alc.round.reservation = 10000) := by decide

/-- DOMAIN_PERMIT: the CEILING notices, a beneficiary turned OFF, and an entry made and served at ON. -/
theorem test_permit_notices_and_entry :
    (let ceiling := fun (s : State) (i : Fin 6) (g c : Nat) => Notice.grant i g .settled c .ceiling [] none ∈ s.slk.notices
     let d := { domain0 with line := none, permit := .off, effCeiling := some 5000, request := some 15000 }
     let s := running0 #v[some d, none, none, none, none, none]
     let on := ran (.domainPermitOn 0 0 0) s
     let off := ran (.domainPermitOff 0 0 0) (running0 #v[some domain0, none, none, none, none, none])
     let given := ran (.domainPermitOff 0 0 0) revoking0
     s.managed = true ∧ d.permit = .off ∧ d.grant = some 5000 ∧ ceiling off 0 5000 5000 ∧
     on.alc.grants.get 0 = 15000 ∧ on.alc.queue = [] ∧
     (on.slk.notices.filter (·.kind == 0x41)).length = 1 ∧ given.alc.round.beneficiary = none ∧
     given.alc.round.reservation = 0 ∧ given.alc.queue = [] ∧
     (ran (.domainPermitOn 0 0 0) (running0 #v[some { d with request := none }, none, none, none, none, none])).alc.queue =
       []) := by decide

/-- The last REVOKING domain settles or expires, and the round closes; a reservation below the shortfall leaves the entry. -/
theorem test_last_revoking_closes :
    (let settled := ran (.domainSettled 0 0 1) revoking0
     let expired := ran (.deadlineExpiry 1) revoking0
     let short : State := { revoking0 with alc := { revoking0.alc with
       budget := { revoking0.alc.budget with effective := some 15000 }
       round := { revoking0.alc.round with reservation := 5000 } } }
     let t := ran (.domainSettled 0 0 1) short
     (revoking0.alc.domains.get 1).map (·.measured) = some none ∧ settled.alc.round.opened = false ∧
     settled.alc.grants.get 0 = 15000 ∧ settled.alc.queue = [] ∧ expired.alc.round.opened = false ∧
     expired.alc.grants.get 0 = 15000 ∧ (expired.mdc.faults.get 4).detected = true ∧
     Notice.grant 1 5000 .overdue 30000 .round [.preempt] none ∈ expired.slk.notices ∧
     t.alc.grants.get 0 = 10000 ∧ t.alc.queue.map (·.slot) = [0] ∧ t.alc.round.opened = false) := by decide

/-- Deadlines of a lowered domain: by the source, by the set, and folded. -/
theorem test_deadlines :
    (let fold := { domain0 with grant := some 20000, state := .revoking, deadline := some 40000 }
     let at_ := fun c d => ((lowerOne c 5000 0 (table d)).alc.domains.get 0).bind (·.deadline)
     (table domain0).lst.chassis = some chassis0 ∧ (table fold).alc.domains.get 0 = some fold ∧
     at_ .source domain0 = some 50000 ∧ at_ .thermal domain0 = some 500000 ∧ at_ .source fold = some 40000) := by decide

/-- CLAMP_FORCE and LINE_SETUP, refused and accepted. -/
theorem test_clamps :
    State.reset.takes ∧ 64 ≤ (64 : Byte).toNat ∧ (63 : Byte).toNat < 64 ∧ (inMode .running).managed = true ∧
    status? (.clampForceSet 0 0 64) State.reset = some .badField ∧
    ((ran (.clampForceSet 0 0 63) State.reset).clu.get 5).pin = .low ∧
    ((ran (.clampForceClear 0 0 1) (ran (.clampForceSet 0 0 63) State.reset)).clu.get 0).causes = [] ∧
    status? (.lineSetup 0 0 ⟨6, some true, some .activeLow, some .pushPull⟩) State.reset = some .noSuch ∧
    status? (.lineSetup 0 0 ⟨5, none, some .activeLow, some .pushPull⟩) State.reset = some .badField ∧
    ((ran (.lineSetup 0 0 ⟨5, some true, some .activeLow, some .pushPull⟩) State.reset).clu.get 5).pin = .high ∧
    ((ran (.lineSetup 0 0 ⟨5, some false, some .activeLow, some .openDrain⟩) (ran (.clampForceSet 0 0 63) State.reset)).clu.get 5).pin =
      .released := by decide

/-- Causes added and withdrawn, with a change of the active level and without. -/
theorem test_causes :
    (let s := addCause .forced 2 State.reset
     let both := addCause .overdue 2 s
     let clamp := fun t : State => (t.slk.notices.filter (·.kind == 0x43))
     (s.clu.get 2).active = true ∧ clamp s = [.clamp 2 true [.forced]] ∧ (both.clu.get 2).causes.length = 2 ∧
     clamp both = clamp s ∧ both.slk = s.slk ∧ (withdrawCause .overdue 2 both).slk = s.slk ∧
     clamp (withdrawCause .forced 2 s) = [.clamp 2 false []]) := by decide

/-- The pins while RESETN is low. -/
theorem test_pins_in_reset :
    (let s := ran (.clampForceSet 0 0 63) State.reset
     s.clampPin .low 5 = .released ∧ s.clampPin .high 5 = .low ∧ State.reset.fanPin .low 0 = false ∧
     State.reset.fanPin .high 0 = true ∧
     (({ State.reset with now := 39 } : State).fanPin .high 0 = true ∧
      ({ State.reset with now := 39, fnc := { Fnc.reset with pwmDuty := Vector.replicate 2 97 } } : State).fanPin .high 0 =
        false)) := by decide

/-! ## Fans -/

/-- A RUNNING fan that turns. -/
def fan0 : Fan :=
  { Fan.reset with
    state := .running, duty := 50, lastEdge := some 0, periodOpen := true, stallTimer := some 1000000, phaseTimer := none }

/-- A fan in a retry's phase. -/
def retrying (p : SpinPhase) : Fan := { fan0 with state := .spinup .retry p, attempts := 3, phaseTimer := some 500000 }

/-- Edges, the speed timeout, the ramp and the PWM period. -/
theorem test_tachometer_and_timers :
    (let s := withFan0 fan0 State.reset
     let speed := fun dt => ((ran (.tachEdge dt 0) s).fnc.fans.get 0).speed
     fan0.state = .running ∧ fan0.periodOpen = true ∧ fan0.lastEdge = some 0 ∧ (retrying .proving).state = .spinup .retry .proving ∧
     Fan.reset.state ≠ .running ∧ Fan.reset.lastEdge = none ∧ speed 12500 = some 2400 ∧ speed 1000000 = some 30 ∧
     speed 1000001 = none ∧ ((ran (.tachEdge 5 0) s).fnc.fans.get 0).stallTimer = some 1000005 ∧
     ((ran (.tachEdge 5 0) (withFan0 (retrying .proving) State.reset)).fnc.fans.get 0).state = .running ∧
     ((ran (.speedTimeout 0) s).fnc.fans.get 0).periodOpen = false ∧
     ((ran .rampTimerExpiry s).fnc.fans.get 0).duty = 55 ∧ (ran .pwmPeriodStart s).fnc.pwmDuty.get 0 = 50) := by decide

/-- Each timer of a fan. -/
theorem test_fan_timers :
    (let f := fun c x => (ran c (withFan0 x State.reset)).fnc.fans.get 0
     Fan.reset.state = .spinup .ordinary .kick ∧ Fan.reset.phaseTimer = some 500000 ∧ fan0.stallTimer = some 1000000 ∧
     (retrying .kick).phaseTimer = some 500000 ∧ (f (.kickEnd 0) Fan.reset).state = .running ∧
     (f (.retryKickEnd 0) (retrying .kick)).state = .spinup .retry .proving ∧
     (f (.provingExpiry 0) (retrying .proving)).finalFlag = true ∧
     (f (.provingExpiry 0) { retrying .proving with attempts := 2 }).retryTimer = some 5500000 ∧
     (f (.retryTimerExpiry 0) { fan0 with state := .stalled, retryTimer := some 5000000 }).attempts = 1 ∧
     (f (.retryTimerExpiry 0) { fan0 with state := .stalled, retryTimer := some 5000000, attempts := 3 }).attempts = 3 ∧
     (f (.provingExpiry 0) { retrying .proving with attempts := 2, finalFlag := true }).finalFlag = true ∧
     (f (.stallTimerExpiry 0) fan0).state = .stalled ∧
     (ran (.stallTimerExpiry 0) (withFan0 fan0 State.reset)).alc.budget.derates.get 0 = true) := by decide

/-- FAN_SETUP and FAN_RETRY, refused and accepted. -/
theorem test_fan_requests :
    (let off := { fan0 with state := .off, enabled := false }
     let f := fun c x => (ran c (withFan0 x State.reset)).fnc.fans.get 0
     (inMode .running).managed = true ∧ status? (.fanSetup 0 0 2 true 2 20) State.reset = some .noSuch ∧
     status? (.fanSetup 0 0 1 true 5 20) State.reset = some .badField ∧
     status? (.fanSetup 0 0 1 true 1 9) State.reset = some .badField ∧ (f (.fanSetup 0 0 0 false 4 60) fan0).state = .off ∧
     (f (.fanSetup 0 0 0 true 1 10) off).state = .spinup .ordinary .kick ∧
     (f (.fanSetup 0 0 0 true 1 10) fan0).minDuty = 10 ∧ status? (.fanRetry 0 0 2) State.reset = some .noSuch ∧
     status? (.fanRetry 0 0 0) (withFan0 off State.reset) = some .conflict ∧
     (f (.fanRetry 0 0 0) { fan0 with state := .stalled, attempts := 3, finalFlag := true }).attempts = 1 ∧
     (f (.fanRetry 0 0 0) (retrying .kick)).attempts = 1 ∧ (f (.fanRetry 0 0 0) fan0) = fan0) := by decide

/-! ## Modes and faults -/

/-- RUN refused and accepted; DOZE and WAKE in every mode. -/
theorem test_modes :
    (let s := running0 (Vector.replicate 6 none)
     let mode := fun c x => (ran c x).mdc.mode
     locked0.mdc.mode = .locked ∧ (allSets.filter fun p => (locked0.lst.get p).isNone) = [] ∧ locked0.srm.setup.isSome = true ∧
     locked0.msu.pendingMeas = false ∧ s.mdc.mode = .running ∧ (inMode .dozing).msu.pendingMeas = false ∧
     mode (.run 0 0) locked0 = .running ∧ mode (.run 0 0) State.reset = .prepare ∧ mode (.doze 0 0) s = .dozing ∧
     mode (.wake 0 0) (inMode .dozing) = .running ∧ status? (.doze 0 0) locked0 = some .notReady ∧
     status? (.wake 0 0) s = some .ok ∧ status? (.doze 0 0) (inMode .dozing) = some .ok ∧
     (ran (.run 0 0) locked0).alc.budget.effective = some 45000 ∧
     (let g : State := { locked0 with
        mdc := { locked0.mdc with guardClaim := true }
        clu := Vector.replicate 6 { Line.reset with causes := [.guard, .forced] } }
      g.msu.pendingMeas = false ∧ ((ran (.run 0 0) g).clu.get 0).causes = [.forced])) := by decide

/-- DOZE abandons a rebase in flight, and posts nothing of one without. -/
theorem test_doze_abandons_a_rebase :
    (let r := running0 (Vector.replicate 6 none)
     let s : State := { r with csu := { r.csu with rebase := .groups, learning := .learning .rebase 3 } }
     s.mdc.mode = .running ∧ s.msu.pendingMeas = false ∧ (ran (.doze 0 0) s).csu.rebase = .noRebase ∧
     Notice.done .abandoned ∈ (ran (.doze 0 0) s).slk.notices ∧
     (ran (.doze 0 0) r).slk.notices.any (·.kind == 0x47) = false) := by decide

/-- RESTART answered, held by its reply, and taking effect with and without the lock. -/
theorem test_restart :
    (let awaited := fun s : State => { s with mdc := { s.mdc with restartAwaited := true } }
     let held : State := { awaited State.reset with slk := { Slk.reset with slots := [answeredSlot 3 0 (.only .ok)] } }
     (ran (.restart 0 0) State.reset).mdc.restartAwaited = true ∧ State.reset.mdc.restartAwaited = false ∧
     (∃ r ∈ held.slk.slots, r.kind = 0x03 ∧ r.reply ≠ none) ∧ (¬∃ r ∈ (awaited State.reset).slk.slots, r.kind = 0x03 ∧ r.reply ≠ none) ∧
     (ran .restartTakesEffect held).mdc.restartAwaited = true ∧
     (ran .restartTakesEffect (awaited State.reset)).mdc.mode = .prepare ∧
     (ran .restartTakesEffect (awaited (running0 #v[some domain0, none, none, none, none, none]))).mdc.mode = .locked ∧
     (ran .restartTakesEffect (awaited (running0 #v[some domain0, none, none, none, none, none]))).alc.domains.get 0 = none) := by
  decide

/-- RESTART held by a frame that a break has cut, and the notices that its taking posts. -/
theorem test_restart_cut_and_notices :
    (let awaited := fun s : State => { s with mdc := { s.mdc with restartAwaited := true } }
     let sent := ran (.noticeTransmitStart 0 true) (awaited { locked0 with slk := { Slk.reset with startBit := some 0 } })
     let cut := ran .lineBreak sent
     let after := ran .restartTakesEffect (ran (.frameTransmitEnd 0) cut)
     let stopped : State := withFan0 { fan0 with state := .stopped, duty := 0 }
       { awaited locked0 with slk := { Slk.reset with notices := [.done .ok] }, srm := { locked0.srm with adapterPresent := true } }
     cut.slk.cut.isSome = true ∧ (ran .restartTakesEffect cut).mdc.restartAwaited = true ∧ after.mdc.restartAwaited = false ∧
     after.slk.notices = [] ∧ stopped.msu.pendingMeas = false ∧ stopped.slk.cut = none ∧
     (ran .restartTakesEffect stopped).slk.notices.map (·.kind) = [0x46, 0x48]) := by decide

/-- FAULTS refused for bit 9 and accepted for bit 8. -/
theorem test_faults :
    (let s := detect .linkOverrun 0 State.reset
     (0x0200 : Word).getLsbD 9 = true ∧ (¬∃ k < 16, 9 ≤ k ∧ (0x0100 : Word).getLsbD k = true) ∧
     status? (.faults 0 0 0x0200 none) s = some .badField ∧ status? (.faults 0 0 0 (some 0x8000)) s = some .badField ∧
     (ran (.faults 0 0 0x0100 (some 0)) s).mdc.faults.get 8 = { detected := false, report := false, subject := none } ∧
     (ran (.faults 0 0 0x0080 none) s).mdc.faults.get 8 = { detected := true, report := true, subject := some 0 }) := by decide

/-- A detection with the kind's report enabled, and with it disabled. -/
theorem test_detection :
    (let quiet := ran (.faults 0 0 0 (some 0)) State.reset
     let t := detect .zoneStale 4 State.reset
     let u := detect .zoneStale 4 quiet
     FaultKind.zoneStale.index.val = 2 ∧ (State.reset.mdc.faults.get 2).report = true ∧ (quiet.mdc.faults.get 2).report = false ∧
     t.mdc.faults.get 2 = { detected := true, report := true, subject := some 4 } ∧
     Notice.fault .zoneStale 4 ∈ t.slk.notices ∧
     u.mdc.faults.get 2 = { detected := true, report := false, subject := some 4 } ∧ u.slk = quiet.slk) := by decide

end Sys2Proof.Tests
end

/-! PROOFS. The checks of a limit set against the chassis limits (section 1.3, R9). -/

namespace Sys2Proof.Machine

/-! ## The first failing check -/

/-- No check is named exactly when none fails. -/
theorem firstFailing_eq_none {n : Nat} {l : List Bool} :
    firstFailing n l = none ↔ ∀ i : Nat, l[i]? ≠ some false := by
  induction l generalizing n with
  | nil => simp [firstFailing]
  | cons b l ih =>
    cases b with
    | false =>
      simp only [firstFailing, Bool.false_eq_true, if_false, reduceCtorEq, false_iff]
      exact fun h => h 0 rfl
    | true =>
      simp only [firstFailing, if_true, ih]
      refine ⟨fun h i => ?_, fun h i => h (i + 1)⟩
      cases i with
      | zero => simp
      | succ i => exact h i

/-- The check that is named fails, and none before it does. -/
theorem firstFailing_eq_some {n k : Nat} {l : List Bool} :
    firstFailing n l = some k ↔ ∃ i : Nat, k = n + i ∧ l[i]? = some false ∧ ∀ j < i, l[j]? ≠ some false := by
  induction l generalizing n with
  | nil => simp [firstFailing]
  | cons b l ih =>
    cases b with
    | false =>
      simp only [firstFailing, Bool.false_eq_true, if_false, Option.some.injEq]
      constructor
      · rintro rfl
        exact ⟨0, rfl, rfl, fun j hj => absurd hj (Nat.not_lt_zero j)⟩
      · rintro ⟨i, rfl, -, first⟩
        have hi : i = 0 := Nat.eq_zero_of_not_pos fun hi => first 0 hi rfl
        simp [hi]
    | true =>
      simp only [firstFailing, if_true, ih]
      constructor
      · rintro ⟨i, rfl, fails, first⟩
        refine ⟨i + 1, by omega, fails, fun j hj => ?_⟩
        cases j with
        | zero => simp
        | succ j => exact first j (by omega)
      · rintro ⟨i, rfl, fails, first⟩
        cases i with
        | zero => simp at fails
        | succ i => exact ⟨i, by omega, fails, fun j hj => first (j + 1) (by omega)⟩

/-! ## The checks of stage 4 (R9) -/

/-- What stands at a place of a table of the six zones. -/
theorem six_map_getElem?_eq_some {α : Type} {g : Fin 6 → α} {i : Nat} {a : α} :
    (six.map g)[i]? = some a ↔ ∃ z : Fin 6, i = z.val ∧ g z = a := by
  have h : six = List.finRange 6 := rfl
  simp only [h, List.getElem?_map, Option.map_eq_some_iff, List.getElem?_eq_some_iff, List.length_finRange,
    List.getElem_finRange]
  constructor
  · rintro ⟨z, ⟨hi, rfl⟩, ha⟩
    exact ⟨_, rfl, ha⟩
  · rintro ⟨z, rfl, ha⟩
    exact ⟨z, ⟨z.isLt, rfl⟩, ha⟩

/-- The places of stage 4 that fail: the sustained budget outside the chassis bounds, the burst above its maximum, a zone's
critical threshold above the zone's ceiling. -/
theorem boundChecks_getElem?_eq_false {c : ChassisLimits} {f : LimitSet} {i : Nat} :
    (boundChecks c f)[i]? = some false ↔
      (i = 0 ∧ (f.sustained < c.minBudget ∨ c.maxSustained < f.sustained)) ∨ (i = 1 ∧ c.maxBurst < f.burst) ∨
      ∃ z : Fin 6, i = 11 + z.val ∧ c.zoneCeiling.get z < (f.zones.get z).critical := by
  rw [boundChecks]
  by_cases hi : i < 11
  · have noZone : ∀ z : Fin 6, i ≠ 11 + z.val := fun z => by omega
    rw [List.getElem?_append_left (by simpa using hi)]
    simp only [noZone, false_and, exists_false, or_false]
    interval_cases i
    · simp
      omega
    all_goals simp
  · have place : ∀ z : Fin 6, i - 11 = z.val ↔ i = 11 + z.val := fun z => by omega
    rw [List.getElem?_append_right (by simpa using hi), six_map_getElem?_eq_some]
    have h0 : i ≠ 0 := by omega
    have h1 : i ≠ 1 := by omega
    simp [h0, h1, place]

/-- Stage 4 passes when no field fails. -/
theorem firstFailing_boundChecks_eq_none {c : ChassisLimits} {f : LimitSet} :
    firstFailing 1 (boundChecks c f) = none ↔
      ¬(f.sustained < c.minBudget ∨ c.maxSustained < f.sustained) ∧ ¬c.maxBurst < f.burst ∧
      ∀ z : Fin 6, ¬c.zoneCeiling.get z < (f.zones.get z).critical := by
  simp only [firstFailing_eq_none, ne_eq, boundChecks_getElem?_eq_false]
  constructor
  · exact fun h => ⟨fun b => h 0 (.inl ⟨rfl, b⟩), fun b => h 1 (.inr (.inl ⟨rfl, b⟩)),
      fun z b => h _ (.inr (.inr ⟨z, rfl, b⟩))⟩
  · rintro ⟨h1, h2, hz⟩ i (⟨-, b⟩ | ⟨-, b⟩ | ⟨z, -, b⟩)
    exacts [h1 b, h2 b, hz z b]

/-- The field that stage 4 names fails, and no field of a lower number does. -/
theorem firstFailing_boundChecks_eq_some {c : ChassisLimits} {f : LimitSet} {k : Nat}
    (h : firstFailing 1 (boundChecks c f) = some k) :
    let bad1 := f.sustained < c.minBudget ∨ c.maxSustained < f.sustained
    let bad2 := c.maxBurst < f.burst
    let badZone := fun z : Fin 6 => c.zoneCeiling.get z < (f.zones.get z).critical
    (k = 1 ∧ bad1) ∨ (k = 2 ∧ ¬bad1 ∧ bad2) ∨
      ∃ z : Fin 6, k = 12 + z.val ∧ ¬bad1 ∧ ¬bad2 ∧ badZone z ∧ ∀ y : Fin 6, y < z → ¬badZone y := by
  intro bad1 bad2 badZone
  obtain ⟨i, rfl, fails, first⟩ := firstFailing_eq_some.mp h
  simp only [ne_eq, boundChecks_getElem?_eq_false] at fails first
  rcases fails with ⟨rfl, b⟩ | ⟨rfl, b⟩ | ⟨z, rfl, b⟩
  · exact .inl ⟨rfl, b⟩
  · exact .inr (.inl ⟨rfl, fun b1 => first 0 (by omega) (.inl ⟨rfl, b1⟩), b⟩)
  · exact .inr (.inr ⟨z, by omega, fun b1 => first 0 (by omega) (.inl ⟨rfl, b1⟩),
      fun b2 => first 1 (by omega) (.inr (.inl ⟨rfl, b2⟩)), b,
      fun y hy lower => first (11 + y.val) (by omega) (.inr (.inr ⟨y, rfl, lower⟩))⟩)

/-! ## A refused LOAD_SET (R7, R9) -/

/-- A step that changes nothing leaves no scan spent anew. -/
theorem finishNew_self (s : State) : finishNew s s = s := by
  unfold finishNew finishScan
  cases s.scanSpent <;> rfl

/-- An owner that leaves the state completes no scan. -/
theorem finishing_of_unchanged {owner : State → State × Answer} {s : State} {a : Answer} (h : owner s = (s, a)) :
    finishing owner s = (s, a) := by
  rw [finishing, h, finishNew_self]

/-- The numbers 0 to 3 name a set. -/
theorem setOfNumber_of_le {n : Nat} (h : n ≤ 3) : ∃ p, setOfNumber n = some p := by
  interval_cases n <;> exact ⟨_, rfl⟩

/-- A set that stage 4 fails changes nothing and is answered with its failing field. -/
theorem loadSet_outOfLimits {n k : Nat} {f : LimitSet} {c : ChassisLimits} {s : State} (hn : n ≤ 3)
    (own : firstFailing 1 (setChecks f) = none) (hc : s.lst.chassis = some c)
    (bound : firstFailing 1 (boundChecks c f) = some k) :
    loadSet n f s = (s, { status := .outOfLimits, body := .field k }) := by
  obtain ⟨p, hp⟩ := setOfNumber_of_le hn
  simp only [loadSet, hp, own, hc, bound]

/-- Settles O18: the fields that fail stage 4 are read off its places, and a LOAD_SET that it refuses is one whose owner leaves
the state. -/
theorem stageFourComparesWithTheChassis : Obligations.StageFourComparesWithTheChassis := by
  intro c f
  refine ⟨fun k => firstFailing_boundChecks_eq_some, firstFailing_boundChecks_eq_none, ?_⟩
  intro dt tag n k s takes hn own hc bound
  have refused := loadSet_outOfLimits (s := s.elapse dt) hn own hc bound
  rw [exec_loadSet, acceptRequest_takes (takes_elapse takes dt), finishing_of_unchanged refused]

end Sys2Proof.Machine

/-! PROOFS. The evaluation of the candidate (section 4.4, R67, R68). -/

namespace Sys2Proof.Machine

/-! ## The table of R67 -/

/-- Settles O34: each row is reached past the rows above it that the evidence does not meet. -/
theorem evidencePointsByTheTable : Obligations.EvidencePointsByTheTable := by
  intro e candidate row1 row2 row3 row4
  refine ⟨fun bag => ?_, fun noBag moving => ?_, fun noBag noMoving lap => ?_, fun noBag noMoving noLap desk => ?_,
    fun noBag noMoving noLap noDesk => ?_⟩
  · rw [Evidence.result, if_pos bag]
  · rw [Evidence.result, if_neg noBag, if_pos moving]
  · rw [Evidence.result, if_neg noBag, if_neg noMoving, if_pos lap]
  · rw [Evidence.result, if_neg noBag, if_neg noMoving, if_neg noLap, if_pos desk]
  · rw [Evidence.result, if_neg noBag, if_neg noMoving, if_neg noLap, if_neg noDesk]

/-! ## The result acts (R68) -/

section
variable {s : State} {p : SetId}

/-- A result equal to the candidate does nothing. -/
theorem evaluateCandidate_of_eq (result : s.plu.evidence.result s.plu.candidate = some p) (same : s.plu.candidate = some p) :
    evaluateCandidate s = s := by
  simp only [evaluateCandidate, result, if_pos same]

/-- A result that differs from the candidate becomes the new one. -/
theorem evaluateCandidate_of_ne (result : s.plu.evidence.result s.plu.candidate = some p) (new : s.plu.candidate ≠ some p) :
    evaluateCandidate s = newCandidate p s := by
  simp only [evaluateCandidate, result, if_neg new]

/-- A new candidate that is the placement needs no dwell. -/
theorem newCandidate_of_placement (settled : s.plu.placement = .settled p) :
    newCandidate p s = { s with plu := { s.plu with candidate := some p, dwell := .idle } } := by
  simp only [newCandidate, State.withPlu, if_pos settled]

/-- A new candidate that is not the placement begins its set's entry dwell. -/
theorem newCandidate_of_not_placement (elsewhere : s.plu.placement ≠ .settled p) :
    newCandidate p s =
      { s with plu := { s.plu with candidate := some p, dwell := .running (s.now + ms (s.entryDwell p)) } } := by
  simp only [newCandidate, State.withPlu, if_neg elsewhere]

end

/-- Settles O35: the result is the candidate, or becomes it against the placement. -/
theorem resultActsOnCandidateAndDwell : Obligations.ResultActsOnCandidateAndDwell := by
  intro s p result
  refine ⟨fun same => evaluateCandidate_of_eq result same, fun new settled => ?_, fun new elsewhere => ?_⟩
  · rw [evaluateCandidate_of_ne result new, newCandidate_of_placement settled]
  · exact (evaluateCandidate_of_ne result new).trans (newCandidate_of_not_placement elsewhere)

end Sys2Proof.Machine

/-! PROOFS. The expiry of a zone's step timer (section 5.5, R89 to R91), and what a recomputation leaves of the budget record
(R112 to R115). -/

namespace Sys2Proof.Machine

/-! ## The budget record under grants (R115, R131 to R133, R140 to R143)

Lowering, serving and preempting change domains, queue, round and notices, but nothing of the budget record, B included. -/

theorem syncQueue_budget (i : Fin 6) (s : State) : (syncQueue i s).alc.budget = s.alc.budget := by
  obtain ⟨q, hq⟩ := syncQueue_eq i s
  rw [hq]
  rfl

theorem joinRound_budget (c : RoundCause) (lowersNone : Bool) (s : State) :
    (joinRound c lowersNone s).alc.budget = s.alc.budget := by
  unfold joinRound
  split <;> rfl

theorem lowerOne_budget (c : RoundCause) (target : Nat) (i : Fin 6) (s : State) :
    (lowerOne c target i s).alc.budget = s.alc.budget := by
  unfold lowerOne
  split
  · rfl
  · rw [postGrant_alc, syncQueue_budget]
    rfl

theorem lowerAll_budget (c : RoundCause) (order : List (Fin 6)) (targets : Vector Nat 6) (s : State) :
    (lowerAll c order targets s).alc.budget = s.alc.budget := by
  rw [lowerAll, ← joinRound_budget c order.isEmpty s]
  generalize joinRound c order.isEmpty s = t
  induction order generalizing t with
  | nil => rfl
  | cons i l ih => rw [List.foldl_cons, ih, lowerOne_budget]

theorem reduce_budget (c : RoundCause) (s : State) : (reduce c s).alc.budget = s.alc.budget := by
  rw [reduce, lowerAll_budget, State.reserve_alc]

theorem raiseGrant_budget (amount : Nat) (i : Fin 6) (s : State) : (raiseGrant amount i s).alc.budget = s.alc.budget := by
  unfold raiseGrant
  split
  · rfl
  · rw [syncQueue_budget, postGrant_alc, State.setDomain_alc]

theorem serveHeads_budget (n : Nat) (s : State) : (serveHeads n s).alc.budget = s.alc.budget := by
  induction n generalizing s with
  | zero => rfl
  | succ n ih =>
    unfold serveHeads
    dsimp only
    (repeat' split) <;> simp only [ih, raiseGrant_budget]

theorem preemptFor_budget (i : Fin 6) (d : Domain) (s : State) : (preemptFor i d s).alc.budget = s.alc.budget := by
  unfold preemptFor
  dsimp only
  split
  · rfl
  · rw [lowerAll_budget, State.reserve_alc, joinRound_budget]

theorem weighPreemption_budget (s : State) : (weighPreemption s).alc.budget = s.alc.budget := by
  unfold weighPreemption
  (repeat' split) <;> simp only [preemptFor_budget]

theorem serve_budget (s : State) : (serve s).alc.budget = s.alc.budget := by
  unfold serve
  split
  · rfl
  · rw [weighPreemption_budget, serveHeads_budget]

theorem settleBudget_budget (c : RoundCause) (s : State) : (settleBudget c s).alc.budget = s.alc.budget := by
  unfold settleBudget
  split
  · exact reduce_budget c s
  · split
    · exact serve_budget s
    · rfl

/-! ## B after a recomputation (R112, R114) -/

/-- A slot's floor stands in the core of its domain. -/
theorem floorOf_eq (a : Alc) (i : Fin 6) : a.floorOf i = ((a.coreOf i).map Domain.floor).getD 0 := by
  rw [Alc.floorOf, Alc.coreOf]
  cases a.domains.get i <;> rfl

/-- Domains with the same cores have the same floor sum. -/
theorem floorSum_congr {a b : Alc} (cores : ∀ i, b.coreOf i = a.coreOf i) : b.floorSum = a.floorSum := by
  have floors : b.floorOf = a.floorOf := funext fun i => by rw [floorOf_eq, floorOf_eq, cores]
  exact congrArg sumSix floors

/-- An allocation changes no input of B: B formed after it is B formed before it. -/
theorem Grants.formB_eq {s t : State} (h : Grants s t) : t.formB = s.formB := by
  have lst : t.lst = s.lst := by rw [h.only]
  have plu : t.plu = s.plu := by rw [h.only]
  have floors : t.alc.floorSum = s.alc.floorSum := floorSum_congr h.cores
  simp only [State.formB, State.base, State.cap, State.active, State.activeId, State.derate, Budget.held, Budget.reduction,
    lst, plu, floors]
  rw [h.budget]
  rfl

/-- In RUNNING and DOZING a recomputation leaves B as it is formed from its inputs. -/
theorem recompute_effective (c : RoundCause) {s : State} (managed : s.managed = true) :
    (recompute c s).alc.budget.effective = some (recompute c s).formB := by
  rw [((Grants.refl s).recompute c).formB_eq, recompute, if_pos managed, settleBudget_budget, State.setB_alc]

/-! ## A reduction handed over (R91) -/

/-- The Allocator takes the reduction that it is handed. -/
theorem handReduction_reductions (z : Fin 6) (r : Nat) (s : State) :
    (handReduction z r s).alc.budget.reductions = s.alc.budget.reductions.set z r := by
  rw [handReduction, ((Grants.refl _).recompute .thermal).budget, State.withBudget_alc]

/-- A hand-over to the Allocator changes no zone. -/
theorem handReduction_znm (z : Fin 6) (r : Nat) (s : State) : (handReduction z r s).znm = s.znm := by
  rw [handReduction, ((Grants.refl _).recompute .thermal).only, State.withBudget_znm]

/-! ## The table of R90 -/

section
variable {z : Zone} (step : Nat)

/-- A WARM zone that is cooling rests. -/
theorem stepped_warm_cooling {l v : Int} (warm : z.state = .warm) (last : z.lastStepTemp = some l)
    (now : z.temperature = some v) (cooling : v < l) : z.stepped step = z.r := by
  simp only [Zone.stepped, warm, last, now, if_neg (Int.not_le.mpr cooling)]

/-- A WARM zone that is as warm as at the last expiry, or has nothing to compare with, raises its reduction. -/
theorem stepped_warm_rising (warm : z.state = .warm) (known : z.temperature ≠ none ∨ z.lastStepTemp = none)
    (rising : ¬∃ l v, z.lastStepTemp = some l ∧ z.temperature = some v ∧ v < l) :
    z.stepped step = min maxReduction (z.r + step) := by
  cases last : z.lastStepTemp with
  | none => simp only [Zone.stepped, warm, last]
  | some l =>
    cases now : z.temperature with
    | none => simp [last, now] at known
    | some v =>
      have warmer : l ≤ v := Int.not_lt.mp fun cooling => rising ⟨l, v, last, now, cooling⟩
      simp only [Zone.stepped, warm, last, now, if_pos warmer]

theorem stepped_normal (normal : z.state = .normal) : z.stepped step = z.r - step := by
  simp only [Zone.stepped, normal]

/-- A severe zone keeps its reduction. -/
theorem stepped_severe (severe : z.state = .hot ∨ z.state = .critical ∨ z.state = .faulted) : z.stepped step = z.r := by
  rcases severe with h | h | h <;> simp only [Zone.stepped, h]

end

/-- A step raises the reduction, lowers it, or leaves it. -/
theorem stepped_cases (step : Nat) (z : Zone) :
    z.stepped step = min maxReduction (z.r + step) ∨ z.stepped step = z.r - step ∨ z.stepped step = z.r := by
  unfold Zone.stepped
  (repeat' split) <;> simp

/-- The reduction stays a multiple of the grant step when the thermal step is one (section 0.6). -/
theorem stepped_grantStep {step : Nat} {z : Zone} (hs : step % 250 = 0) (hr : z.r % 250 = 0) : z.stepped step % 250 = 0 := by
  have top : maxReduction % 250 = 0 := by decide
  rcases stepped_cases step z with h | h | h <;> omega

/-! ## The expiry (R89, R90) -/

/-- The row of the step timer. -/
theorem exec_stepTimerExpiry (z : Fin 6) (s : State) : exec (.stepTimerExpiry z) s = execStepTimerExpiry z s := rfl

/-- A running step timer expires at its moment, or later. -/
theorem exec_stepTimerExpiry_running {z : Fin 6} {s : State} {e : Nat} (running : (s.znm.zones.get z).stepTimer = some e) :
    exec (.stepTimerExpiry z) s = .next (stepZone z (s.reach e)) := by
  rw [exec_stepTimerExpiry, execStepTimerExpiry, running, atExpiry]

/-- The zone's record after the expiry: the stepped reduction, the temperature as the last one, the timer restarted. -/
def State.steppedZone (z : Fin 6) (s : State) : Zone :=
  { s.znm.zones.get z with
    r := (s.znm.zones.get z).stepped s.active.thermalStep
    lastStepTemp := (s.znm.zones.get z).temperature
    stepTimer := some (s.now + ms s.active.stepInterval) }

/-- A step that leaves the reduction changes the zone's record alone. -/
theorem stepZone_of_same {z : Fin 6} {s : State}
    (same : (s.znm.zones.get z).stepped s.active.thermalStep = (s.znm.zones.get z).r) :
    stepZone z s = s.setZone z (s.steppedZone z) := by
  rw [stepZone, if_pos same, State.steppedZone]

/-- A step that changes the reduction hands it to the Allocator. -/
theorem stepZone_of_changed {z : Fin 6} {s : State}
    (changed : (s.znm.zones.get z).stepped s.active.thermalStep ≠ (s.znm.zones.get z).r) :
    stepZone z s = handReduction z (s.steppedZone z).r (s.setZone z (s.steppedZone z)) := by
  rw [stepZone, if_neg changed, State.steppedZone]

/-- Either way the Zone Monitor keeps all but this zone's record. -/
theorem stepZone_znm (z : Fin 6) (s : State) : (stepZone z s).znm = (s.setZone z (s.steppedZone z)).znm := by
  by_cases same : (s.znm.zones.get z).stepped s.active.thermalStep = (s.znm.zones.get z).r
  · rw [stepZone_of_same same]
  · rw [stepZone_of_changed same, handReduction_znm]

theorem stepZone_zone (z : Fin 6) (s : State) : (stepZone z s).znm.zones.get z = s.steppedZone z := by
  simp [stepZone_znm]

theorem stepZone_other_zone {z y : Fin 6} (other : y ≠ z) (s : State) :
    (stepZone z s).znm.zones.get y = s.znm.zones.get y := by
  simp [stepZone_znm, other.symm]

theorem stepZone_now (z : Fin 6) (s : State) : (stepZone z s).now = s.now := ((Fixed.refl s).stepZone z).now

/-- In RUNNING and DOZING the Allocator holds a changed reduction, and B is formed with it. -/
theorem stepZone_allocator {z : Fin 6} {s : State} (managed : s.managed = true)
    (changed : (s.znm.zones.get z).stepped s.active.thermalStep ≠ (s.znm.zones.get z).r) :
    (stepZone z s).alc.budget.reductions.get z = (s.steppedZone z).r ∧
      (stepZone z s).alc.budget.effective = some (stepZone z s).formB := by
  rw [stepZone_of_changed changed]
  refine ⟨?_, recompute_effective .thermal managed⟩
  rw [handReduction_reductions, get_set, if_pos rfl]

/-- A step that leaves the reduction changes nothing outside the Zone Monitor. -/
theorem stepZone_only_znm {z : Fin 6} {s : State}
    (same : (s.znm.zones.get z).stepped s.active.thermalStep = (s.znm.zones.get z).r) :
    stepZone z s = { s with znm := (stepZone z s).znm } := by
  rw [stepZone_of_same same]
  rfl

/-- Settles O42: the expiry is `stepZone` at the timer's moment, whose record of the zone is `steppedZone`; the rows of R90 are
those of `Zone.stepped`. -/
theorem stepTimerStepsTheReduction : Obligations.StepTimerStepsTheReduction := by
  intro z s e running old step rests
  have zone := stepZone_zone z (s.reach e)
  have now : (stepZone z (s.reach e)).now = max s.now e := stepZone_now z (s.reach e)
  have newR : ((stepZone z (s.reach e)).znm.zones.get z).r = old.stepped step := congrArg Zone.r zone
  refine ⟨stepZone z (s.reach e), exec_stepTimerExpiry_running running, now, ?_⟩
  dsimp only
  rw [newR, now]
  refine ⟨zone, fun y other => stepZone_other_zone other _, stepped_warm_rising step, ?_, stepped_normal step,
    stepped_severe step, stepped_grantStep, stepZone_allocator (s := s.reach e), stepZone_only_znm (s := s.reach e)⟩
  rintro warm ⟨l, v, last, temperature, cooling⟩
  exact stepped_warm_cooling step warm last temperature cooling

end Sys2Proof.Machine

/-! PROOFS. The deadline of a lowered domain (sections 8.2 and 8.3, R141 to R143), and a stored set, which moves none (R10). -/

namespace Sys2Proof.Machine

/-! ## The domains after a lowering (R141)

Queue, affected list and notice follow the record; only the record of the lowered slot changes. -/

theorem syncQueue_domains (i : Fin 6) (s : State) : (syncQueue i s).alc.domains = s.alc.domains := by
  obtain ⟨q, hq⟩ := syncQueue_eq i s
  rw [hq, State.setQueue_alc]

/-- Lowering a declared domain replaces its record, and no other. -/
theorem lowerOne_domains (c : RoundCause) (target : Nat) {i : Fin 6} {d : Domain} {s : State}
    (slot : s.alc.domains.get i = some d) :
    (lowerOne c target i s).alc.domains =
      s.alc.domains.set i (some (d.lowered target (s.deadlineFor c) (s.alc.round.lists i))) := by
  simp only [lowerOne, slot]
  rw [postGrant_alc, syncQueue_domains]
  rfl

/-! ## The table of R142 -/

/-- Cause SOURCE gives the chassis source deadline, any other cause the active set's compliance deadline. -/
theorem deadlineFor_eq (c : RoundCause) {s : State} {l : ChassisLimits} (chassis : s.lst.chassis = some l) :
    s.deadlineFor c = s.now + (if c = .source then l.sourceDeadline else s.active.compliance) * 1000 := by
  by_cases source : c = .source
  · subst source
    simp only [State.deadlineFor, chassis, ms, if_pos]
  · rw [if_neg source, State.deadlineFor, ms]
    exact fun _ isSource _ => source isSource

/-- A deadline that already runs is only made earlier. -/
theorem newDeadline_revoking {d : Domain} {present : Nat} (fresh : Nat) (revoking : d.state = .revoking)
    (runs : d.deadline = some present) : d.newDeadline fresh = min present fresh := by
  simp only [Domain.newDeadline, revoking, runs]

/-- Where no deadline runs, the table's stands. -/
theorem newDeadline_fresh {d : Domain} (fresh : Nat) (noneRuns : d.state ≠ .revoking ∨ d.deadline = none) :
    d.newDeadline fresh = fresh := by
  unfold Domain.newDeadline
  split
  next t revoking runs => simp [revoking, runs] at noneRuns
  next => rfl

/-! ## The statement -/

/-- Settles O53: the lowered record is `Domain.lowered` with the deadline that `newDeadline` takes from R142's table; a stored
set changes the Limit Store alone. -/
theorem deadlinesFollowTheCause : Obligations.DeadlinesFollowTheCause := by
  refine ⟨fun c target i d l s chassis slot => ?_, fun p f s => State.withLst_alc _ s⟩
  dsimp only
  rw [← deadlineFor_eq c chassis, lowerOne_domains c target slot]
  refine ⟨⟨d.lowered target (s.deadlineFor c) (s.alc.round.lists i), by rw [get_set, if_pos rfl], rfl, ?_, ?_⟩, ?_⟩
  · exact fun present revoking runs => congrArg some (newDeadline_revoking _ revoking runs)
  · exact fun noneRuns => congrArg some (newDeadline_fresh _ noneRuns)
  · exact fun j other => by rw [get_set, if_neg other.symm]

end Sys2Proof.Machine

/-! PROOFS. The FAULTS request (section 11.6, R188). -/

namespace Sys2Proof.Machine

/-! ## The masks -/

/-- A mask names a kind above the nine exactly when a bit from bit 9 up is set. -/
theorem maskBad_iff {m : Word} : maskBad m = true ↔ ∃ k : Nat, 9 ≤ k ∧ m.getLsbD k = true := by
  simp only [maskBad, decide_eq_true_eq, ← BitVec.testBit_toNat]
  constructor
  · exact fun large => Nat.exists_ge_and_testBit_of_ge_two_pow (n := 9) large
  · rintro ⟨k, high, set⟩
    calc 2 ^ 9 ≤ 2 ^ k := Nat.pow_le_pow_right (by omega) high
      _ ≤ m.toNat := Nat.ge_two_pow_of_testBit set

/-! ## The owner -/

section
variable {clear : Word} {report : Option Word} {s : State}

/-- A bad mask of the two is refused, and the state stays. -/
theorem faultsOwner_of_bad (bad : maskBad clear = true ∨ ∃ m, report = some m ∧ maskBad m = true) :
    faultsOwner clear report s = (s, { status := .badField, body := .empty }) := by
  have refused : (maskBad clear || report.any maskBad) = true := by
    simpa [Option.any_eq_true] using bad
  rw [faultsOwner, if_pos refused]
  rfl

/-- The state after an accepted request: each entry of the Fault Record is cleared as the two masks say. -/
def State.faultsTaken (clear : Word) (report : Option Word) (s : State) : State :=
  { s with mdc := { s.mdc with faults := tabulate fun k =>
      (s.mdc.faults.get k).clear (clear.getLsbD k) (report.map (·.getLsbD k)) } }

/-- With good masks the record is shown as it stood and each of its entries is cleared. -/
theorem faultsOwner_of_good (goodClear : ¬maskBad clear = true)
    (goodReport : ∀ m, report = some m → ¬maskBad m = true) :
    faultsOwner clear report s =
      (s.faultsTaken clear report, { status := .ok, body := .faults s.mdc.faults.toList }) := by
  have accepted : ¬(maskBad clear || report.any maskBad) = true := by
    rw [Bool.or_eq_true, Option.any_eq_true, not_or]
    exact ⟨goodClear, fun ⟨m, present, bad⟩ => goodReport m present bad⟩
  rw [faultsOwner, if_neg accepted]
  rfl

/-- What each kind's entry is after an accepted request. -/
theorem faultsTaken_get (k : Fin 9) :
    (s.faultsTaken clear report).mdc.faults.get k =
      (s.mdc.faults.get k).clear (clear.getLsbD k) (report.map (·.getLsbD k)) := get_tabulate _ k

end

/-! ## An entry of the Fault Record -/

namespace FaultEntry

/-- A present report bit replaces the enable. -/
theorem clear_report_some (clears enable : Bool) (e : FaultEntry) : (e.clear clears (some enable)).report = enable := rfl

/-- With no report bit the enable stays. -/
theorem clear_report_none (clears : Bool) (e : FaultEntry) : (e.clear clears none).report = e.report := rfl

theorem clear_of_listed (enable : Option Bool) (e : FaultEntry) :
    (e.clear true enable).detected = false ∧ (e.clear true enable).subject = none :=
  ⟨Bool.and_false _, rfl⟩

theorem clear_of_not_listed (enable : Option Bool) (e : FaultEntry) :
    (e.clear false enable).detected = e.detected ∧ (e.clear false enable).subject = e.subject :=
  ⟨Bool.and_true _, rfl⟩

end FaultEntry

/-! ## The statement -/

/-- Settles O60: the owner refuses exactly the masks with a bit from bit 9 up; otherwise it shows the record and replaces it by
the one whose entries `FaultEntry.clear` gives. -/
theorem faultsShowsThenClears : Obligations.FaultsShowsThenClears := by
  intro dt tag clear report s takes
  simp only [exec_faults, acceptRequest_takes (takes_elapse takes dt), ← maskBad_iff]
  refine ⟨fun bad => by rw [faultsOwner_of_bad bad], fun goodClear goodReport => ?_⟩
  rw [faultsOwner_of_good goodClear goodReport]
  refine ⟨(s.elapse dt).faultsTaken clear report, rfl, rfl, fun k => ?_⟩
  rw [faultsTaken_get, State.elapse_mdc]
  refine ⟨?_, fun listed => ?_, fun notListed => ?_⟩
  · cases report with
    | some m => exact FaultEntry.clear_report_some _ _ _
    | none => exact FaultEntry.clear_report_none _ _
  · rw [listed]
    exact FaultEntry.clear_of_listed _ _
  · rw [notListed]
    exact FaultEntry.clear_of_not_listed _ _

end Sys2Proof.Machine

/-! PROOFS. Requests and events at the link, and what every command keeps: the notice queue, the link, the limits and the
modes (sections 10.3 to 10.6, chapters 1 and 11). -/

namespace Sys2Proof.Machine

/-! ## What an owner keeps

`Tame s t` is what every owner of a request keeps, also those that move limits or mode and so do not stay in `Keeps`. -/

structure Tame (s t : State) : Prop where
  pending : t.pending = s.pending
  link : t.slk = { s.slk with notices := t.slk.notices, dropped := t.slk.dropped }
  notices : NoticesOk s.slk.notices → NoticesOk t.slk.notices
  modes : LimitsOk s.lst ∧ ModeOk s → LimitsOk t.lst ∧ ModeOk t

theorem Keeps.tame {s t : State} (h : Keeps s t) : Tame s t where
  pending := h.pending
  link := h.link
  notices := h.notices
  modes := fun ⟨limits, modes⟩ => ⟨h.lst ▸ limits, h.modes modes⟩

theorem Tame.trans {s t u : State} (h : Tame s t) (k : Tame t u) : Tame s u where
  pending := k.pending.trans h.pending
  link := by rw [k.link, h.link]
  notices := k.notices ∘ h.notices
  modes := k.modes ∘ h.modes

/-- A scan that an owner's changes have left with nothing to measure completes within the same bounds. -/
theorem Tame.finishing {owner : State → State × Answer} {s : State} (h : Tame s (owner s).1) :
    Tame s (Machine.finishing owner s).1 :=
  h.trans ((Keeps.refl _).finishNew s).tame

/-- An owner of requests that is tame in every state. -/
def TameOwner (owner : State → State × Answer) : Prop := ∀ s, Tame s (owner s).1

/-! ## The four owners that move limits or mode -/

theorem restartOwner_tame (s : State) : Tame s (restartOwner s).1 :=
  { pending := rfl, link := rfl, notices := id, modes := id }

theorem stopContact_mdc (s : State) : (stopContact s).mdc = s.mdc := by
  unfold stopContact freeFrontEnd beginMeasurement advanceScan
  dsimp only
  split_ifs <;> rfl

/-- RUN's prerequisites are those of a managed mode, and GUARD has left the lines when the blocks enter it (R182, R183). -/
theorem modeOk_dropGuard {s t : State} (can : s.canRun = true) (h : ModeOk s) (lst : t.lst = s.lst) (srm : t.srm = s.srm)
    (mode : t.mdc.mode = .running) : ModeOk (t.setGuard false) := by
  simp only [State.canRun, Bool.and_eq_true, beq_iff_eq, List.isEmpty_iff] at can
  obtain ⟨⟨locked, full⟩, setup⟩ := can
  have locks : s.lst.chassis ≠ none := fun e => by simpa [locked] using h.1.mpr e
  simp [ModeOk, lst, srm, mode, locks, full, setup]

theorem enterRunning_tame {s : State} (can : s.canRun = true) : Tame s (enterRunning s) := by
  have fixed := (Fixed.refl (s.setMode .running)).stopContact
  have stop := (Keeps.refl (s.setMode .running)).stopContact
  have rest : Keeps ((stopContact (s.setMode .running)).setGuard false) (enterRunning s) :=
    ((((Keeps.refl _).withdrawCauseFrom six .guard).zonesRun).sourceRun.allocatorRun).reformDemands
  exact
    { pending := rest.pending.trans stop.pending
      link := by rw [rest.link, State.setGuard_slk, stop.link, State.setMode_slk]
      notices := fun n => rest.notices (stop.notices n)
      modes := fun ⟨limits, modes⟩ => ⟨by rw [rest.lst, State.setGuard_lst, stop.lst]; exact limits,
        rest.modes (modeOk_dropGuard can modes fixed.lst fixed.srm (by rw [stopContact_mdc, State.setMode_mdc]))⟩ }

theorem runOwner_tame (s : State) : Tame s (runOwner s).1 := by
  by_cases can : s.canRun = true
  · have entered : (runOwner s).1 = enterRunning s := by rw [runOwner, if_pos can]
    exact entered ▸ enterRunning_tame can
  · have same : (runOwner s).1 = s := by rw [runOwner, if_neg can]
    exact same.symm ▸ (Keeps.refl s).tame

theorem dozeOwner_keeps (s : State) : Keeps s (dozeOwner s).1 := by
  unfold dozeOwner
  split
  · next running => exact (Keeps.refl s).goDozing (by simp [State.managed, running, Mode.managed])
  · exact Keeps.refl s
  · exact Keeps.refl s

theorem wakeOwner_keeps (s : State) : Keeps s (wakeOwner s).1 := by
  unfold wakeOwner
  split
  · next dozing => exact (Keeps.refl s).wakeUp (by simp [State.managed, dozing, Mode.managed])
  · exact Keeps.refl s
  · exact Keeps.refl s

/-- Checks of which none is named all pass. -/
theorem all_of_firstFailing {n : Nat} {l : List Bool} (h : firstFailing n l = none) : l.all id = true := by
  rw [List.all_eq_true]
  intro b hb
  obtain ⟨i, hi⟩ := List.mem_iff_getElem?.mp hb
  cases b with
  | true => rfl
  | false => exact absurd hi (firstFailing_eq_none.mp h i)

/-- The lock comes with checked limits and no VALID set yet, and moves PREPARE to LOCKED (R1, R3, R5). -/
theorem chassisLimits_tame (f : ChassisLimits) (s : State) : Tame s (chassisLimits f s).1 := by
  unfold chassisLimits
  split
  · exact (Keeps.refl s).tame
  · next unlocked =>
    have unlocked : s.lst.chassis = none := by simpa using unlocked
    split
    · exact (Keeps.refl s).tame
    · next passes =>
      by_cases prepare : s.mdc.mode = .prepare
      · have entered : enterLocked (s.withLst fun l => { l with chassis := some f }) =
            applyTargets (stopContact ((s.withLst fun l => { l with chassis := some f }).setMode .locked)) := if_pos prepare
        rw [entered]
        refine Tame.trans ?_ (Keeps.refl _).stopContact.applyTargets.tame
        refine ⟨rfl, rfl, id, fun ⟨limits, _⟩ => ⟨?_, by simp [ModeOk, State.managed, Mode.managed]⟩⟩
        simp only [LimitsOk, unlocked] at limits
        refine ⟨all_of_firstFailing passes, List.all_eq_true.mpr fun x hx => ?_⟩
        simp [Option.isNone_iff_eq_none.mp (List.all_eq_true.mp limits x hx)]
      · have stays : enterLocked (s.withLst fun l => { l with chassis := some f }) =
            s.withLst fun l => { l with chassis := some f } := if_neg prepare
        rw [stays]
        exact ⟨rfl, rfl, id, fun ⟨_, modes⟩ => absurd (modes.1.mpr unlocked) prepare⟩

theorem Lst.get_set (l : Lst) (p q : SetId) (f : LimitSet) :
    ({ l with sets := l.sets.set p.index (some f) } : Lst).get q = if p = q then some f else l.get q := by
  simp only [Lst.get, Sys2Proof.get_set]
  cases p <;> cases q <;> rfl

/-- A set that passes stages 2 and 4 keeps the laws of the Limit Store (R8 to R10). -/
theorem storeSet_tame {p : SetId} {f : LimitSet} {s : State} {c : ChassisLimits} (own : firstFailing 1 (setChecks f) = none)
    (hc : s.lst.chassis = some c) (bound : firstFailing 1 (boundChecks c f) = none) : Tame s (storeSet p f s) := by
  have fits : setFits c f = true := by
    simp [setFits, all_of_firstFailing own, all_of_firstFailing bound]
  refine ⟨rfl, rfl, id, fun ⟨limits, modes⟩ => ⟨?_, modes.1, fun managed => ⟨?_, (modes.2.1 managed).2⟩, modes.2.2⟩⟩
  · simp only [LimitsOk, hc] at limits
    simp only [LimitsOk, storeSet, State.withLst_lst, hc]
    refine ⟨limits.1, List.all_eq_true.mpr fun x hx => ?_⟩
    rcases List.mem_or_eq_of_mem_set (by simpa [Vector.toList_set] using hx) with old | rfl
    · exact List.all_eq_true.mp limits.2 x old
    · simpa using fits
  · have full := (modes.2.1 managed).1
    simp only [Lst.emptySets, List.filter_eq_nil_iff] at full ⊢
    intro q hq
    simp only [storeSet, State.withLst_lst, Lst.get_set]
    split
    · simp
    · exact full q hq

theorem loadSet_tame (number : Nat) (f : LimitSet) (s : State) : Tame s (loadSet number f s).1 := by
  have same := (Keeps.refl s).tame
  unfold loadSet
  split
  · exact same
  · split
    · exact same
    · next own =>
      split
      · exact same
      · next c hc =>
        split
        · exact same
        · next bound =>
          unfold acceptSet
          split
          · exact (storeSet_tame own hc bound).trans ((Keeps.refl _).handSet .setLoad).tame
          · exact storeSet_tame own hc bound

/-! ## The owner of every request -/

/-- Every request row is the arrival of a frame of its kind and tag, whose owner is tame. -/
theorem exec_of_request {c : Instr} {dt : Nat} {kind tag : Byte} (h : request? c = some (dt, kind, tag)) :
    ∃ owner, TameOwner owner ∧
      ∀ s, exec c s = .next (acceptRequest kind tag owner (s.elapse dt)) := by
  have keeps : ∀ s, Keeps s s := Keeps.refl
  cases c <;> simp only [request?, reduceCtorEq, Option.some.injEq, Prod.mk.injEq] at h <;> obtain ⟨rfl, rfl, rfl⟩ := h
  case identify => exact ⟨_, fun s => (keeps s).identifyOwner.tame, exec_identify _ _⟩
  case status => exact ⟨_, fun s => (keeps s).statusOwner.tame, exec_status _ _⟩
  case restart => exact ⟨_, restartOwner_tame, exec_restart _ _⟩
  case run => exact ⟨_, fun s => (runOwner_tame s).finishing, exec_run _ _⟩
  case doze => exact ⟨_, fun s => (dozeOwner_keeps s).finishing.tame, exec_doze _ _⟩
  case wake => exact ⟨_, fun s => (wakeOwner_keeps s).finishing.tame, exec_wake _ _⟩
  case chassisLimits f => exact ⟨_, fun s => (chassisLimits_tame f s).finishing, exec_chassisLimits _ _ f⟩
  case loadSet n f => exact ⟨_, fun s => (loadSet_tame n f s).finishing, exec_loadSet _ _ n f⟩
  case readSet n => exact ⟨_, fun s => ((keeps s).readSet n).tame, exec_readSet _ _ n⟩
  case readSetChassis => exact ⟨_, fun s => (keeps s).readChassis.tame, exec_readSetChassis _ _⟩
  case channelSetup f => exact ⟨_, fun s => ((keeps s).channelSetup f).tame, exec_channelSetup _ _ f⟩
  case scanList l => exact ⟨_, fun s => ((keeps s).scanListOwner l).tame, exec_scanList _ _ l⟩
  case readChannels a n => exact ⟨_, fun s => ((keeps s).readChannels a n).tame, exec_readChannels _ _ a n⟩
  case calOverrideSet c g o => exact ⟨_, fun s => ((keeps s).calOverrideSet c g o).tame, exec_calOverrideSet _ _ c g o⟩
  case calOverrideRestore c => exact ⟨_, fun s => ((keeps s).calOverrideRestore c).tame, exec_calOverrideRestore _ _ c⟩
  case electrodeSetup f => exact ⟨_, fun s => ((keeps s).electrodeSetup f).tame, exec_electrodeSetup _ _ f⟩
  case electrodeSetupResolution r =>
    exact ⟨_, fun s => ((keeps s).electrodeSetupResolution r).finishing.tame, exec_electrodeSetupResolution _ _ r⟩
  case readElectrodes a n => exact ⟨_, fun s => ((keeps s).readElectrodes a n).tame, exec_readElectrodes _ _ a n⟩
  case rebase => exact ⟨_, fun s => (keeps s).rebaseOwner.tame, exec_rebase _ _⟩
  case zoneSetup f => exact ⟨_, fun s => ((keeps s).zoneSetup f).tame, exec_zoneSetup _ _ f⟩
  case zoneFeed z v => exact ⟨_, fun s => ((keeps s).zoneFeed z v).finishing.tame, exec_zoneFeed _ _ z v⟩
  case readZones a n => exact ⟨_, fun s => ((keeps s).readZones a n).tame, exec_readZones _ _ a n⟩
  case sourceSetup f => exact ⟨_, fun s => ((keeps s).sourceSetup f).tame, exec_sourceSetup _ _ f⟩
  case sysCap p => exact ⟨_, fun s => ((keeps s).sysCap p).tame, exec_sysCap _ _ p⟩
  case clampForceSet m => exact ⟨_, fun s => ((keeps s).clampForce m (some .set)).tame, exec_clampForceSet _ _ m⟩
  case clampForceClear m => exact ⟨_, fun s => ((keeps s).clampForce m (some .clear)).tame, exec_clampForceClear _ _ m⟩
  case lineSetup f => exact ⟨_, fun s => ((keeps s).lineSetup f).tame, exec_lineSetup _ _ f⟩
  case domainDeclare f => exact ⟨_, fun s => ((keeps s).domainDeclare f).tame, exec_domainDeclare _ _ f⟩
  case domainRetire n => exact ⟨_, fun s => ((keeps s).domainRetire n).tame, exec_domainRetire _ _ n⟩
  case domainRequest n v => exact ⟨_, fun s => ((keeps s).domainRequest n v).tame, exec_domainRequest _ _ n v⟩
  case domainSettled n => exact ⟨_, fun s => ((keeps s).domainSettled n).tame, exec_domainSettled _ _ n⟩
  case domainPermitOff n => exact ⟨_, fun s => ((keeps s).domainPermitOff n).tame, exec_domainPermitOff _ _ n⟩
  case domainPermitOn n => exact ⟨_, fun s => ((keeps s).domainPermitOn n).tame, exec_domainPermitOn _ _ n⟩
  case readGrants a n => exact ⟨_, fun s => ((keeps s).readGrants a n).tame, exec_readGrants _ _ a n⟩
  case placementPin c o => exact ⟨_, fun s => ((keeps s).placementPin c o).finishing.tame, exec_placementPin _ _ c o⟩
  case placementUnpin => exact ⟨_, fun s => (keeps s).placementUnpin.finishing.tame, exec_placementUnpin _ _⟩
  case fanSetup n e p d => exact ⟨_, fun s => ((keeps s).fanSetup n e p d).tame, exec_fanSetup _ _ n e p d⟩
  case fanRetry n => exact ⟨_, fun s => ((keeps s).fanRetry n).tame, exec_fanRetry _ _ n⟩
  case readFans => exact ⟨_, fun s => (keeps s).readFans.tame, exec_readFans _ _⟩
  case faults a o => exact ⟨_, fun s => ((keeps s).faultsOwner a o).tame, exec_faults _ _ a o⟩

/-- The owner of every frame kind is tame. -/
theorem frameOwner_tame (kind : Byte) (b : List Byte) : TameOwner (frameOwner kind b) := by
  have keeps : ∀ s, Keeps s s := Keeps.refl
  unfold frameOwner
  split
  · exact fun s => (keeps s).identifyOwner.tame
  · exact fun s => (keeps s).statusOwner.tame
  · exact restartOwner_tame
  · exact fun s => (runOwner_tame s).finishing
  · exact fun s => (dozeOwner_keeps s).finishing.tame
  · exact fun s => (wakeOwner_keeps s).finishing.tame
  · exact fun s => (chassisLimits_tame _ s).finishing
  · exact fun s => (loadSet_tame _ _ s).finishing
  · exact fun s => ((keeps s).readSet _).tame
  · exact fun s => ((keeps s).channelSetup _).tame
  · exact fun s => ((keeps s).scanListOwner _).tame
  · exact fun s => ((keeps s).readChannels _ _).tame
  · split
    · exact fun s => ((keeps s).calOverrideSet _ _ _).tame
    · exact fun s => ((keeps s).calOverrideRestore _).tame
    · exact fun s => ((keeps s).calOverrideOther _).tame
  · split
    · exact fun s => ((keeps s).electrodeSetupResolution _).finishing.tame
    · exact fun s => ((keeps s).electrodeSetup _).tame
  · exact fun s => ((keeps s).readElectrodes _ _).tame
  · exact fun s => (keeps s).rebaseOwner.tame
  · exact fun s => ((keeps s).zoneSetup _).tame
  · exact fun s => ((keeps s).zoneFeed _ _).finishing.tame
  · exact fun s => ((keeps s).readZones _ _).tame
  · exact fun s => ((keeps s).sourceSetup _).tame
  · exact fun s => ((keeps s).sysCap _).tame
  · exact fun s => ((keeps s).clampForce _ _).tame
  · exact fun s => ((keeps s).lineSetup _).tame
  · exact fun s => ((keeps s).domainDeclare _).tame
  · exact fun s => ((keeps s).domainRetire _).tame
  · exact fun s => ((keeps s).domainRequest _ _).tame
  · exact fun s => ((keeps s).domainSettled _).tame
  · split
    · exact fun s => ((keeps s).domainPermitOff _).tame
    · exact fun s => ((keeps s).domainPermitOn _).tame
    · exact fun s => ((keeps s).domainPermitOther _).tame
  · exact fun s => ((keeps s).readGrants _ _).tame
  · exact fun s => ((keeps s).placementPin _ _).finishing.tame
  · exact fun s => (keeps s).placementUnpin.finishing.tame
  · exact fun s => ((keeps s).fanSetup _ _ _ _).tame
  · exact fun s => ((keeps s).fanRetry _).tame
  · exact fun s => (keeps s).readFans.tame
  · exact fun s => ((keeps s).faultsOwner _ _).tame

/-- So is the answerer of a received frame. -/
theorem frameAnswerer_tame (kind : Byte) (b : List Byte) : TameOwner (frameAnswerer kind b) := by
  unfold frameAnswerer
  split
  · exact fun s => (Keeps.refl s).tame
  · split
    · exact frameOwner_tame kind b
    · exact fun s => (Keeps.refl s).tame

/-! ## O4 and O5 -/

/-- Settles O4: a request row is the arrival of its frame, and the link's three refusals precede the owner. -/
theorem requestsThatReachNoOwner : Obligations.RequestsThatReachNoOwner := by
  intro c dt kind tag s h
  obtain ⟨owner, -, arrives⟩ := exec_of_request h
  simp only [arrives]
  exact ⟨fun live full => congrArg _ (acceptRequest_full (s := s.elapse dt) live full),
    fun live room awaited => congrArg _ (acceptRequest_awaited (s := s.elapse dt) live room awaited),
    fun cut => congrArg _ (acceptRequest_break (s := s.elapse dt) cut)⟩

/-- Settles O5: the owner leaves slots, transmitter and receiver, and its answer takes the slot behind them. -/
theorem everyTakenRequestIsAnswered : Obligations.EveryTakenRequestIsAnswered := by
  intro c dt kind tag s h takes
  obtain ⟨owner, tame, arrives⟩ := exec_of_request h
  have kept := tame (s.elapse dt)
  refine ⟨_, (owner (s.elapse dt)).2, (arrives s).trans (congrArg _ (acceptRequest_takes (takes_elapse takes dt))), ?_, kept.pending, ?_, ?_⟩
  all_goals
    rw [State.answered, State.occupy_slk, kept.link]
    rfl

/-! ## What every command keeps -/

/-- The invariants of the notice queue, the link, the limits and the modes hold in `t` where they hold in `s`. -/
structure Orderly (s t : State) : Prop where
  notices : NoticesOk s.slk.notices → NoticesOk t.slk.notices
  link : LinkOk s.slk → LinkOk t.slk
  modes : LimitsOk s.lst ∧ ModeOk s → LimitsOk t.lst ∧ ModeOk t

theorem Tame.orderly {s t : State} (h : Tame s t) : Orderly s t where
  notices := h.notices
  link := fun ok => by rw [h.link]; exact ok
  modes := h.modes

theorem Keeps.orderly {s t : State} (h : Keeps s t) : Orderly s t := h.tame.orderly

namespace Orderly

theorem refl (s : State) : Orderly s s := (Keeps.refl s).orderly

theorem trans {s t u : State} (h : Orderly s t) (k : Orderly t u) : Orderly s u :=
  ⟨k.notices ∘ h.notices, k.link ∘ h.link, k.modes ∘ h.modes⟩

/-- A change of the link's records alone that leaves the notices. -/
theorem ofLink {s t : State} (mdc : t.mdc = s.mdc) (lst : t.lst = s.lst) (srm : t.srm = s.srm)
    (notices : t.slk.notices = s.slk.notices) (link : LinkOk s.slk → LinkOk t.slk) : Orderly s t where
  notices := by rw [notices]; exact id
  link := link
  modes := by unfold ModeOk State.managed; rw [mdc, lst, srm]; exact id

/-- An event of the receiver's own: slots and transmitter stay. -/
theorem ofReceiver {s t : State} (mdc : t.mdc = s.mdc) (lst : t.lst = s.lst) (srm : t.srm = s.srm)
    (notices : t.slk.notices = s.slk.notices) (slots : t.slk.slots = s.slk.slots) (tx : t.slk.tx = s.slk.tx)
    (cut : t.slk.cut = s.slk.cut) (start : t.slk.txStart = s.slk.txStart) : Orderly s t :=
  ofLink mdc lst srm notices fun ok => linkOk_congr ok slots tx cut start

theorem atExpiry {timer : Option Nat} {effect : State → State} {s : State} (h : ∀ t, Orderly t (effect t)) :
    Orderly s (Machine.atExpiry timer effect s) := by
  cases timer with
  | none => exact refl s
  | some e => exact ((Keeps.refl s).reach e).orderly.trans (h _)

/-- The arrival of a frame with a tame owner (R172 to R174). -/
theorem acceptRequest {kind tag : Byte} {owner : State → State × Answer} (tame : TameOwner owner) (s : State) :
    Orderly s (Machine.acceptRequest kind tag owner s) where
  link := linkOk_acceptRequest fun t => by rw [(tame t).link]; exact ⟨rfl, rfl, rfl, rfl⟩
  notices := fun ok => by
    unfold Machine.acceptRequest
    split_ifs
    · exact ok
    · exact ((Keeps.refl s).detect .linkOverrun 0).notices ok
    · exact ok
    · exact (tame s).notices ok
  modes := fun ok => by
    unfold Machine.acceptRequest
    split_ifs
    · exact ok
    · exact ((Keeps.refl s).detect .linkOverrun 0).orderly.modes ok
    · exact ok
    · exact (tame s).modes ok

/-! ### The receiver -/

theorem setReceiver (r : Receiver) (gap : Option Nat) (s : State) : Orderly s (Machine.setReceiver r gap s) :=
  ofReceiver rfl rfl rfl rfl rfl rfl rfl rfl

theorem endByte (s : State) : Orderly s (Machine.endByte s) := ofReceiver rfl rfl rfl rfl rfl rfl rfl rfl

theorem takeFrame (length : Nat) (stored : List Byte) (check : Byte) (s : State) :
    Orderly s (Machine.takeFrame length stored check s) := by
  unfold Machine.takeFrame
  split
  · exact acceptRequest (frameAnswerer_tame _ _) s
  · exact ((Keeps.refl s).detect .linkCheck 0).orderly

theorem takeByte (b : Byte) (stop : Nat) (s : State) : Orderly s (Machine.takeByte b stop s) := by
  by_cases check : ∃ n l, s.slk.rx = .check n l
  · obtain ⟨n, l, check⟩ := check
    rw [takeByte_check check]
    have ended : Orderly s (endCheckByte s) := by
      rcases endCheckByte_eq s with e | e <;> rw [e]
      exacts [refl s, endByte s]
    exact ended.trans ((setReceiver _ _ _).trans (takeFrame _ _ _ _))
  · obtain ⟨r, g, e⟩ := takeByte_other (b := b) (stop := stop) fun n l e => check ⟨n, l, e⟩
    rw [e]
    exact (endByte s).trans (setReceiver _ _ _)

theorem frameError (s : State) : Orderly s (Machine.frameError s) := by
  rcases frameError_eq s with e | e <;> rw [e]
  · exact refl s
  · exact (setReceiver _ _ _).trans ((Keeps.refl _).detect .linkCheck 0).orderly

theorem takeBreak (s : State) : Orderly s (Machine.takeBreak s) := ofLink rfl rfl rfl (by simp) linkOk_takeBreak

theorem endBreak (s : State) : Orderly s (s.withSlk (·.endBreak)) := by
  have fields : (s.slk.endBreak).notices = s.slk.notices ∧ (s.slk.endBreak).slots = s.slk.slots ∧
      (s.slk.endBreak).tx = s.slk.tx ∧ (s.slk.endBreak).cut = s.slk.cut ∧ (s.slk.endBreak).txStart = s.slk.txStart := by
    unfold Slk.endBreak
    split <;> exact ⟨rfl, rfl, rfl, rfl, rfl⟩
  obtain ⟨notices, slots, tx, cut, start⟩ := fields
  exact ofReceiver rfl rfl rfl notices slots tx cut start

theorem receiveSample (before after : Level) (s : State) : Orderly s (Machine.receiveSample before after s) := by
  have cases := receiveSample_cases before after s
  simp only [List.mem_cons, List.not_mem_nil, or_false] at cases
  have heard : Orderly s (s.withSlk fun k => { k with heard := k.heard ++ [after] }) :=
    ofReceiver rfl rfl rfl rfl rfl rfl rfl rfl
  rcases cases with h | h | h | h | h | h | h <;> rw [h]
  · exact refl s
  · exact heard
  · exact heard.trans (takeByte _ _ _)
  · exact (endByte s).trans (frameError _)
  · exact takeBreak s
  · exact endBreak s
  · exact ofReceiver rfl rfl rfl rfl rfl rfl rfl rfl

/-- A sample of RXD, or none waiting (R170). -/
theorem takeSample (s : State) : Orderly s (Machine.takeSample s) := by
  rcases takeSample_cases s with e | ⟨level, rest, -, e⟩ <;> rw [e]
  · exact refl s
  · have waits : Orderly s (s.withSlk fun k => { k with rxdWaiting := rest }) := ofReceiver rfl rfl rfl rfl rfl rfl rfl rfl
    have taken : ∀ u, Orderly u ((u.reach (sampleTime (u.slk.rxdTaken + 1))).withSlk fun k =>
        { k with rxdTaken := k.rxdTaken + 1, rxd := k.rxd.take level (sampleTime (u.slk.rxdTaken + 1)) }) :=
      fun u => ofReceiver rfl rfl rfl rfl rfl rfl rfl rfl
    exact waits.trans ((taken _).trans (receiveSample _ _ _))

/-! ### The transmitter -/

/-- A change of the link alone that leaves notices out or as they are. -/
theorem withSlk {f : Slk → Slk} {s : State} (notices : (f s.slk).notices.Sublist s.slk.notices)
    (link : LinkOk s.slk → LinkOk (f s.slk)) : Orderly s (s.withSlk f) where
  notices := fun ⟨few, distinct⟩ => ⟨notices.length_le.trans few, (notices.map _).nodup distinct⟩
  link := link
  modes := id

end Orderly

theorem beginReply_notices (now : Nat) (k : Slk) : (k.beginReply now).notices = k.notices := by
  unfold Slk.beginReply
  (repeat' split) <;> rfl

/-- The slot that begins to be sent is the only one, as the transmitter was idle (R174, R175). -/
theorem linkOk_beginReply (now : Nat) {k : Slk} (ok : LinkOk k) : LinkOk (k.beginReply now) := by
  unfold Slk.beginReply
  split
  · next may =>
    split
    · exact ok
    · next l started =>
      obtain ⟨a, b, r, slots, rfl, hasReply, still, -⟩ := startOldest_eq started
      obtain ⟨few, one, replied, -, -⟩ := ok
      have idle : k.tx = .idle := by
        simp only [Slk.mayBegin, Bool.and_eq_true, beq_iff_eq] at may
        exact may.1.1
      simp only [slots, idle, reduceCtorEq, if_false, List.countP_append, List.countP_cons, still, List.all_append,
        List.all_cons, List.length_append, List.length_cons, Bool.false_eq_true] at few one replied
      refine ⟨by simpa using few, ?_, ?_, by simp, by simp⟩
      · simp only [List.countP_append, List.countP_cons, if_true]
        omega
      · simpa [hasReply] using replied
  · exact ok

theorem beginNotice_notices (now : Nat) (k : Slk) : (k.beginNotice now).notices.Sublist k.notices := by
  unfold Slk.beginNotice
  split
  · split
    · exact List.Sublist.refl _
    · next n l queue => exact queue ▸ List.sublist_cons_self n l
  · exact List.Sublist.refl _

theorem linkOk_beginNotice (now : Nat) {k : Slk} (ok : LinkOk k) : LinkOk (k.beginNotice now) := by
  unfold Slk.beginNotice
  split
  · next may =>
    split
    · exact ok
    · simp only [Slk.mayBegin, Bool.and_eq_true, beq_iff_eq] at may
      obtain ⟨few, one, replied, -, -⟩ := ok
      simp only [may.1.1.1, reduceCtorEq, if_false] at one
      exact ⟨few, by simpa using one, replied, by simp, by simp⟩
  · exact ok

/-- The slot being sent is freed; no other was (R174). -/
theorem linkOk_endFrame {k : Slk} (ok : LinkOk k) : LinkOk k.endFrame := by
  obtain ⟨few, one, replied, cut, start⟩ := ok
  unfold Slk.endFrame
  split
  · exact ⟨few, one, replied, cut, start⟩
  · refine ⟨(List.length_filter_le _ _).trans few, ?_, ?_, by simp, by simp⟩
    · simp [List.countP_eq_zero]
    · rw [List.all_eq_true] at replied ⊢
      exact fun r hr => replied r (List.mem_of_mem_filter hr)
  · next n sending =>
    simp only [sending, reduceCtorEq, if_false] at one
    exact ⟨few, by simpa using one, replied, by simp, by simp⟩

theorem endFrame_notices (k : Slk) : k.endFrame.notices = k.notices := by
  unfold Slk.endFrame
  split <;> rfl

/-! ### RESTART and POWER_ON_RESET -/

/-- The held requests that RESTART discards are not being sent (R174, R179). -/
theorem linkOk_restartLink {s : State} (ok : LinkOk s.slk) : LinkOk (restartLink s).slk := by
  obtain ⟨few, one, replied, cut, start⟩ := ok
  have sent : ∀ r ∈ s.slk.slots, r.sending = true → r.reply.isSome = true := fun r hr sending => by
    simpa [sending] using List.all_eq_true.mp replied r hr
  refine ⟨(List.length_filter_le _ _).trans few, ?_, ?_, cut, start⟩
  · refine Eq.trans ?_ one
    simp only [restartLink, List.countP_filter]
    exact List.countP_congr fun r hr => by simpa using sent r hr
  · rw [List.all_eq_true] at replied ⊢
    exact fun r hr => replied r (List.mem_of_mem_filter hr)

/-- Link and mode as RESTART leaves them (R179, R185). -/
theorem restartMode_orderly (s : State) : Orderly s (restartMode (restartLink s)) where
  notices := fun _ => by simp [restartMode, restartLink, NoticesOk]
  link := linkOk_restartLink
  modes := fun ⟨limits, _⟩ => ⟨limits, by
    cases lock : s.lst.chassis <;> simp [restartMode, restartLink, ModeOk, State.managed, Mode.managed, lock]⟩

theorem takeRestart_orderly (s : State) : Orderly s (takeRestart s) := by
  have blocks := (((((Keeps.refl (restartMode (restartLink s))).restartLines).restartAllocator).restartChannels).restartContact
    (s.mdc.mode == .dozing)).restartZones.restartPlacement.restartSource.redeliverAdapter.restartFans
  exact (restartMode_orderly s).trans (blocks.finishNew s).orderly

theorem reset_orderly (s : State) : Orderly s { State.reset with choices := s.choices, pending := s.pending } where
  notices := fun _ => show NoticesOk State.reset.slk.notices by decide
  link := fun _ => show LinkOk State.reset.slk by decide
  modes := fun _ => show State.reset.lst.sets.toList.all Option.isNone = true ∧ ModeOk State.reset by decide

/-! ### Every command -/

theorem Orderly.ofNext {s u t : State} (h : Orderly s u)
    (hs : (.next u : Host.Outcome State Fault Refusal) = .next t) : Orderly s t := by
  cases hs
  exact h

/-- Every command that is no request is orderly. -/
theorem exec_event_orderly {c : Instr} {s t : State} (h : request? c = none) (hs : exec c s = .next t) : Orderly s t := by
  have keeps : ∀ s, Keeps s s := Keeps.refl
  cases c <;> simp only [request?, reduceCtorEq] at h <;> clear h
  case powerOnReset => exact (reset_orderly s).ofNext hs
  case restartTakesEffect =>
    refine Orderly.ofNext ?_ hs
    split
    · exact takeRestart_orderly s
    · exact .refl s
  case lidChange => exact (Orderly.atExpiry fun t => (keeps t).changeLid.orderly).ofNext hs
  case motionChange => exact (Orderly.atExpiry fun t => (keeps t).changeMotion.orderly).ofNext hs
  case adpChange => exact (Orderly.atExpiry fun t => (keeps t).changeAdp.orderly).ofNext hs
  case stillTimerExpiry => exact (Orderly.atExpiry fun t => (keeps t).becomeStill.orderly).ofNext hs
  case dwellExpiry => exact (Orderly.atExpiry fun t => (keeps t).expireDwell.orderly).ofNext hs
  case pinExpiry => exact (Orderly.atExpiry fun t => ((keeps t).endPin.finishNew t).orderly).ofNext hs
  case sequenceTimerMatch =>
    have reloaded := ((keeps s).reach (s.msu.seqStart + ms s.msu.seqPeriod)).reloadSequenceTimer
      (s.msu.seqStart + ms s.msu.seqPeriod)
    refine Orderly.ofNext ?_ hs
    split
    · exact (reloaded.detect .scanOverrun 0).orderly
    · exact reloaded.takeTrigger.orderly
  case channelConversionEnd raw =>
    simp only [exec, execChannelConversionEnd] at hs
    split at hs
    · exact (Orderly.refl s).ofNext hs
    · exact (((keeps s).reach _).endChannelConversion _ _).orderly.ofNext hs
  case contactTimerMatch => exact ((((keeps s).reach _).reloadContactTimer _).contactTrigger).orderly.ofNext hs
  case electrodeConversionEnd raw =>
    simp only [exec, execElectrodeConversionEnd] at hs
    split at hs
    · exact (Orderly.refl s).ofNext hs
    · split at hs
      · exact (((keeps s).reach _).endElectrodeConversion _ _ _).orderly.ofNext hs
      · exact (Orderly.refl s).ofNext hs
  case groupConversionEnd raw =>
    simp only [exec, execGroupConversionEnd] at hs
    split at hs
    · exact (Orderly.refl s).ofNext hs
    · split at hs
      · exact (((keeps s).reach _).endGroupConversion _ _).orderly.ofNext hs
      · exact (Orderly.refl s).ofNext hs
  case feedTimerExpiry z => exact (Orderly.atExpiry fun t => ((keeps t).staleZone z).orderly).ofNext hs
  case stepTimerExpiry z => exact (Orderly.atExpiry fun t => ((keeps t).stepZone z).orderly).ofNext hs
  case deadlineExpiry i => exact (Orderly.atExpiry fun t => ((keeps t).expireDeadline i).orderly).ofNext hs
  case tachEdge dt n => exact (((keeps s).elapse dt).setFan _ _).orderly.ofNext hs
  case speedTimeout n => exact (Orderly.atExpiry fun t => ((keeps t).withFans _).orderly).ofNext hs
  case stallTimerExpiry n => exact (Orderly.atExpiry fun t => ((keeps t).stallFan n).orderly).ofNext hs
  case kickEnd n => exact (Orderly.atExpiry fun t => ((keeps t).setFan n _).orderly).ofNext hs
  case retryKickEnd n => exact (Orderly.atExpiry fun t => ((keeps t).setFan n _).orderly).ofNext hs
  case provingExpiry n => exact (Orderly.atExpiry fun t => ((keeps t).setFan n _).orderly).ofNext hs
  case retryTimerExpiry n => exact (Orderly.atExpiry fun t => ((keeps t).setFan n _).orderly).ofNext hs
  case rampTimerExpiry =>
    refine Orderly.ofNext (Keeps.orderly ?_) hs
    exact ((keeps s).reach _).same rfl rfl rfl rfl rfl rfl
  case pwmPeriodStart =>
    refine Orderly.ofNext (Keeps.orderly ?_) hs
    exact ((keeps s).reach _).same rfl rfl rfl rfl rfl rfl
  case frameComplete dt b =>
    refine (((keeps s).elapse dt).orderly.trans ?_).ofNext hs
    split
    · unfold completeFrame
      split
      · exact .takeByte _ _ _
      · exact .refl _
    · exact .refl _
  case framingError dt =>
    refine (((keeps s).elapse dt).orderly.trans ?_).ofNext hs
    split
    · exact (Orderly.endByte _).trans (.frameError _)
    · exact .refl _
  case gapTimerExpiry =>
    exact (Orderly.atExpiry fun t =>
      (Orderly.setReceiver .hunt none t).trans ((keeps _).detect .linkGap 0).orderly).ofNext hs
  case lineBreak => exact (Orderly.atExpiry Orderly.takeBreak).ofNext hs
  case breakEnd dt => exact (((keeps s).elapse dt).orderly.trans (.endBreak _)).ofNext hs
  case replyTransmitStart dt hrdy =>
    refine Orderly.ofNext (((keeps s).elapse dt).orderly.trans (.withSlk ?_ fun ok => ?_)) hs
    · rw [beginReply_notices]
      exact List.Sublist.refl _
    · exact linkOk_beginReply (s.now + dt) (k := s.slk.seeHrdy hrdy) ok
  case noticeTransmitStart dt hrdy =>
    refine Orderly.ofNext (((keeps s).elapse dt).orderly.trans (.withSlk ?_ fun ok => ?_)) hs
    · exact beginNotice_notices (s.now + dt) (s.slk.seeHrdy hrdy)
    · exact linkOk_beginNotice (s.now + dt) (k := s.slk.seeHrdy hrdy) ok
  case frameTransmitEnd dt =>
    refine (((keeps s).elapse dt).orderly.trans (.withSlk ?_ linkOk_endFrame)).ofNext hs
    rw [endFrame_notices]
  case receivedByte dt b =>
    refine (((keeps s).elapse dt).orderly.trans ?_).ofNext hs
    split
    · exact .takeByte _ _ _
    · exact .refl _
  case startBit dt =>
    refine (((keeps s).elapse dt).orderly.trans ?_).ofNext hs
    split
    · exact .refl _
    · exact .ofReceiver rfl rfl rfl rfl rfl rfl rfl rfl
  case lineFilterSample lid motion adp => exact (((keeps s).reach _).withPlu _).orderly.ofNext hs

/-- Every command is orderly. -/
theorem exec_orderly {c : Instr} {s t : State} (hs : exec c s = .next t) : Orderly s t := by
  cases row : request? c with
  | none => exact exec_event_orderly row hs
  | some r =>
    obtain ⟨dt, kind, tag⟩ := r
    obtain ⟨owner, tame, arrives⟩ := exec_of_request row
    rw [arrives] at hs
    exact (((Keeps.refl s).elapse dt).orderly.trans (.acceptRequest tame _)).ofNext hs

/-- Every step is orderly: a command runs on the state with the queue's rest, and a sample of RXD is one too. -/
theorem step_orderly {s t : State} (hs : step s = .next t) : Orderly s t := by
  unfold step at hs
  split at hs
  · exact (Orderly.takeSample s).ofNext hs
  · next rest _ =>
    have front : Orderly s (s.withPending rest) := ⟨id, id, id⟩
    exact front.trans (exec_orderly hs)

/-! ## O13, O14 and O19 -/

/-- Settles O13: every step is orderly. -/
theorem everyStepKeepsTheNoticeQueue : Obligations.EveryStepKeepsTheNoticeQueue :=
  fun _ _ ok hs => (step_orderly hs).notices ok

/-- Settles O14: every step is orderly. -/
theorem everyStepKeepsTheLink : Obligations.EveryStepKeepsTheLink := fun _ _ ok hs => (step_orderly hs).link ok

/-- Settles O19: every step is orderly. -/
theorem everyStepKeepsLimitsAndModes : Obligations.EveryStepKeepsLimitsAndModes :=
  fun _ _ limits modes hs => (step_orderly hs).modes ⟨limits, modes⟩

end Sys2Proof.Machine

/-! PROOFS. One step, power-on reset, and the invariants at reset. -/

namespace Sys2Proof.Machine

/-- Settles O1: `step` looks at the queue, then at the waiting samples. -/
theorem stepRunsTheFrontCommand : Obligations.StepRunsTheFrontCommand :=
  ⟨fun c rest s queue => by rw [step, queue], fun s queue samples => by rw [step, queue]; simp only [takeSample, samples]⟩

/-- Settles O2. -/
theorem powerOnResetTakesResetState : Obligations.PowerOnResetTakesResetState := fun _ => rfl

/-- Settles O3: each table is built of one record, and the rest are fields of the reset state. -/
theorem resetValuesOfTheRecords : Obligations.ResetValuesOfTheRecords := by
  unfold Obligations.ResetValuesOfTheRecords
  simp only [State.reset, Mdc.reset, Lst.reset, Msu.reset, Csu.reset, Plu.reset, Znm.reset, Srm.reset, Alc.reset, Fnc.reset,
    get_replicate, get_tabulate, Lst.get]
  simp [FaultEntry.reset, Channel.reset, Electrode.reset, Zone.reset, Budget.reset, Round.reset, Line.reset, Fan.reset,
    Slk.reset, State.rdy, Completion.reset, ms]

/-- Every slot of the reset Allocator is EMPTY. -/
theorem reset_domains (i : Fin 6) : State.reset.alc.domains.get i = none := get_replicate none i

theorem reset_grants : GrantsOk State.reset := by
  have empty : ∀ p, State.reset.alc.allDomains p = true := fun p => by
    simp [Alc.allDomains, List.all_eq_true, reset_domains]
  exact ⟨empty _, nofun, fun _ => ⟨empty _, rfl⟩⟩

theorem reset_round : RoundOk State.reset.alc := by
  have none_revokes : ∀ i, State.reset.alc.revoking i = false := fun i => by simp [Alc.revoking, reset_domains]
  refine ⟨?_, ?_, List.nodup_nil, nofun, fun _ => rfl, fun h => absurd rfl h, nofun⟩
  · simp only [none_revokes]
    simp [State.reset, Alc.reset, Round.reset]
  · simp [none_revokes]

theorem reset_queue : QueueOk State.reset :=
  ⟨List.Pairwise.nil, List.nodup_nil, nofun, nofun, fun _ => rfl⟩

theorem reset_zones : ZonesOk State.reset := by
  have off : ∀ z, (State.reset.znm.zones.get z).state = .off := fun z => congrArg Zone.state (get_replicate Zone.reset z)
  refine ⟨?_, fun _ => off⟩
  simp only [off]
  simp [State.reset, Znm.reset]

/-- Settles O15: no notice but the two of the fans, no slot, no set, no domain, every zone OFF. -/
theorem invariantsHoldAtReset : Obligations.InvariantsHoldAtReset :=
  ⟨by decide, by decide, show State.reset.lst.sets.toList.all Option.isNone = true by decide, by decide, reset_grants,
    reset_round, reset_queue, reset_zones⟩

end Sys2Proof.Machine

/-! PROOFS. The System Link: requests, frames, the receiver, breaks, the transmitter, and the notice queue (chapter 10,
section 11.5). -/

namespace Sys2Proof.Machine

/-! ## IDENTIFY and STATUS (R186) -/

/-- Settles O6: both owners answer in every mode. -/
theorem identifyAndStatusReply : Obligations.IdentifyAndStatusReply := by
  intro dt tag s takes
  constructor
  · rw [exec_identify, acceptRequest_takes (takes_elapse takes dt)]
    rfl
  · rw [exec_status, acceptRequest_takes (takes_elapse takes dt)]
    rfl

/-! ## Frames (R172, R173) -/

theorem byte_of_toNat {b : Byte} {n : Nat} (h : b.toNat = n) : b = BitVec.ofNat 8 n := by
  rw [← h, BitVec.ofNat_toNat, BitVec.setWidth_eq]

/-- A body that spells a request row is answered by the row's owner, under the row's kind. -/
theorem exec_requestRow {kind tag : Byte} {b : List Byte} {c : Instr} (h : requestRow? kind tag b = some c) (s : State) :
    exec c s = .next (acceptRequest kind tag (frameOwner kind b) s) := by
  unfold requestRow? at h
  split at h
  all_goals rename_i hk
  all_goals try obtain rfl := byte_of_toNat hk
  case h_9 =>
    split at h <;> cases h
    · next chassis =>
      have owner : frameOwner 10#8 b = readChassis := funext fun u => if_pos chassis
      rw [exec_readSetChassis, owner]
      rfl
    · rfl
  case h_14 =>
    simp only [frameOwner]
    split at h <;> cases h
    · next resolution => rw [exec_electrodeSetupResolution, if_pos resolution]; rfl
    · next electrode => rw [exec_electrodeSetup, if_neg electrode]; rfl
  case h_13 =>
    obtain ⟨action, names, rfl⟩ := Option.map_eq_some_iff.mp h
    simp only [frameOwner, names]
    cases action <;> rfl
  case h_22 =>
    obtain ⟨action, names, rfl⟩ := Option.map_eq_some_iff.mp h
    simp only [frameOwner, names]
    cases action <;> rfl
  case h_28 =>
    obtain ⟨permit, names, rfl⟩ := Option.map_eq_some_iff.mp h
    simp only [frameOwner, names]
    cases permit <;> rfl
  all_goals
    cases h
    try rfl

/-- What the link does with a frame whose check byte has arrived. -/
theorem takeFrame_right {length : Nat} {stored : List Byte} {check : Byte} {s : State}
    (right : check = crc8 (leBytes 1 length ++ stored)) :
    takeFrame length stored check s =
      acceptRequest (stored.getD 0 0) (stored.getD 1 0) (frameAnswerer (stored.getD 0 0) (stored.drop 2)) s :=
  if_pos right.symm

theorem takeFrame_wrong {length : Nat} {stored : List Byte} {check : Byte} {s : State}
    (wrong : ¬check = crc8 (leBytes 1 length ++ stored)) : takeFrame length stored check s = detect .linkCheck 0 s :=
  if_neg fun e => wrong e.symm

theorem frameAnswerer_unknown {kind : Byte} {b : List Byte} (h : requiredLength kind b = none) :
    frameAnswerer kind b = refuse .unknownKind := by simp only [frameAnswerer, h]

theorem frameAnswerer_length {kind : Byte} {b : List Byte} {n : Nat} (h : requiredLength kind b = some n)
    (differs : b.length ≠ n) : frameAnswerer kind b = refuse .badLength := by simp only [frameAnswerer, h, if_neg differs]

theorem frameAnswerer_owner {kind : Byte} {b : List Byte} (h : requiredLength kind b = some b.length) :
    frameAnswerer kind b = frameOwner kind b := by simp only [frameAnswerer, h, if_true]

/-- The filter's line known to stand high. -/
theorem settle_high (f : LineFilter) :
    f.settle .high = if f.accepted = .high then f else { f with accepted := .high, run := 0 } := rfl

/-- FRAME_COMPLETE completes the frame under assembly; a start bit whose line has stayed low until a break is due stays. -/
theorem exec_frameComplete {dt t0 length : Nat} {stored : List Byte} {check : Byte} {s : State}
    (start : s.slk.startBit = some t0) (live : s.slk.breakActive = false) (rx : s.slk.rx = .check length stored) :
    exec (.frameComplete dt check) s = .next (takeFrame length stored check { s.elapse dt with
      slk := if t0 + 2000 ≤ s.now + dt then { s.slk with rx := .hunt, gapTimer := none }
        else { s.slk with startBit := none, heard := [], rx := .hunt, gapTimer := none, rxd := s.slk.rxd.settle .high } }) := by
  have receiving : (s.elapse dt).receiving = true := by simp [State.receiving, start, live]
  have due : ((s.elapse dt).breakDue.any (· ≤ (s.elapse dt).now) = true) = (t0 + 2000 ≤ s.now + dt) := by
    simp only [State.breakDue, State.elapse_slk, start, Option.map_some, Option.any_some, State.elapse_now]
    exact propext decide_eq_true_iff
  have completes : exec (.frameComplete dt check) s = .next (completeFrame check (s.elapse dt)) :=
    congrArg Host.Outcome.next (if_pos receiving)
  have taken : completeFrame check (s.elapse dt) = takeByte check (s.elapse dt).now (s.elapse dt) := by
    simp only [completeFrame, State.elapse_slk, rx]
  rw [completes, taken, takeByte_check (s := s.elapse dt) rx, endCheckByte]
  simp only [due]
  split <;> rfl

/-- Settles O7: the completed frame goes through `takeFrame`, `acceptRequest` and `frameAnswerer` in that order. -/
theorem checkByteDecidesOnAFrame : Obligations.CheckByteDecidesOnAFrame := by
  refine ⟨by decide +kernel, ?_⟩
  intro dt t0 length stored check s start live rx high ended kind tag body right completes
  have completed : exec (.frameComplete dt check) s = .next (takeFrame length stored check ended) :=
    exec_frameComplete start live rx
  have live : ended.slk.breakActive = false := by
    simp only [ended]
    split <;> exact live
  have slots : ended.slk.slots = s.slk.slots := by
    simp only [ended]
    split <;> rfl
  simp only [completes, completed, Host.Outcome.next.injEq]
  refine ⟨takeFrame_wrong, fun ok full => ?_, fun ok room awaited => ?_, fun ok takes => ?_, fun c ok len row => ?_⟩
  · rw [takeFrame_right ok, acceptRequest_full live (slots ▸ full)]
  · rw [takeFrame_right ok, acceptRequest_awaited live (slots ▸ room) awaited]
  · have taken : ended.takes := ⟨live, slots ▸ takes.2.1, takes.2.2⟩
    rw [takeFrame_right ok, acceptRequest_takes taken]
    refine ⟨fun unknown => ?_, fun n len differs => ?_, fun len => ?_⟩
    · rw [frameAnswerer_unknown unknown]
      rfl
    · rw [frameAnswerer_length len differs]
      rfl
    · rw [frameAnswerer_owner len]
  · rw [takeFrame_right ok, frameAnswerer_owner len, exec_requestRow row]

theorem u8_zero (b : List Byte) : u8 b 0 = (b.headD 0).toNat := by
  cases b <;> rfl

/-- Settles O8: an assigned kind is one of the table of lengths. -/
theorem unknownKindsAndWrongLengthsAreRefused : Obligations.UnknownKindsAndWrongLengthsAreRefused := by
  intro kind tag body s takes frame first fifth
  have arrives : frame s = (frameAnswerer kind body s).1.answered kind tag (frameAnswerer kind body s).2 := by
    simp only [frame]
    rw [takeFrame_right rfl]
    exact acceptRequest_takes takes
  refine ⟨fun unknown => ?_, fun n len differs => ?_, ?_, ?_⟩
  · rw [arrives, frameAnswerer_unknown unknown]
    rfl
  · rw [arrives, frameAnswerer_length len differs]
    rfl
  · unfold requiredLength
    split <;> simp_all
  · simp only [List.forall_mem_cons]
    simp +contextual [requiredLength, first, fifth, ← u8_zero, u8, byteAt]

/-! ## The receiver (R170, R171) -/

/-- What a byte does to frame assembly, outside the check byte: `received b stop u` is the state in which it leaves the
receiver, by the table of R171. -/
theorem takeByte_eq {b : Byte} {stop : Nat} {u : State} (notCheck : ∀ n l, u.slk.rx ≠ .check n l) :
    takeByte b stop u = assemble b stop (endByte u) := by
  unfold takeByte
  split
  · next n l rx => exact absurd rx (notCheck n l)
  · rfl

theorem takeByte_lead {stop : Nat} {u : State} (rx : u.slk.rx = .hunt) :
    takeByte 0xC3 stop u = setReceiver .length (some (stop + ms 5)) (endByte u) := by
  rw [takeByte_eq (by simp [rx])]
  simp only [assemble, endByte_slk, rx, if_true, gapAfter]

theorem takeByte_hunt {b : Byte} {stop : Nat} {u : State} (rx : u.slk.rx = .hunt) (other : b ≠ 0xC3) :
    takeByte b stop u = endByte u := by
  rw [takeByte_eq (by simp [rx])]
  simp only [assemble, endByte_slk, rx, if_neg other]

theorem takeByte_length {b : Byte} {stop : Nat} {u : State} (rx : u.slk.rx = .length) (fits : 2 ≤ b.toNat ∧ b.toNat ≤ 62) :
    takeByte b stop u = setReceiver (.body b.toNat [] b.toNat) (some (stop + ms 5)) (endByte u) := by
  rw [takeByte_eq (by simp [rx])]
  simp only [assemble, endByte_slk, rx, if_pos fits, gapAfter]

theorem takeByte_badLength {b : Byte} {stop : Nat} {u : State} (rx : u.slk.rx = .length)
    (outside : b.toNat < 2 ∨ 62 < b.toNat) : takeByte b stop u = setReceiver .hunt none (endByte u) := by
  have misfit : ¬(2 ≤ b.toNat ∧ b.toNat ≤ 62) := by omega
  rw [takeByte_eq (by simp [rx])]
  simp only [assemble, endByte_slk, rx, if_neg misfit]

theorem takeByte_body {b : Byte} {stop length count : Nat} {stored : List Byte} {u : State}
    (rx : u.slk.rx = .body length stored count) :
    takeByte b stop u = setReceiver
      (if count ≤ 1 then .check length (stored ++ [b]) else .body length (stored ++ [b]) (count - 1)) (some (stop + ms 5))
      (endByte u) := by
  rw [takeByte_eq (by simp [rx])]
  simp only [assemble, endByte_slk, rx, gapAfter]
  split <;> rfl

/-- A low or high start: START_BIT where no byte is being received and no break is in force. -/
theorem exec_startBit {dt : Nat} {s : State} (live : s.slk.breakActive = false) (idle : s.slk.startBit = none) :
    exec (.startBit dt) s = .next (startByte (s.elapse dt)) := by
  have free : ¬((s.elapse dt).slk.startBit.isSome || (s.elapse dt).slk.breakActive) = true := by simp [live, idle]
  exact congrArg Host.Outcome.next (if_neg free)

theorem receiving_of {s : State} {t0 : Nat} (live : s.slk.breakActive = false) (start : s.slk.startBit = some t0) :
    s.receiving = true := by simp [State.receiving, live, start]

theorem exec_receivedByte {dt t0 : Nat} {b : Byte} {s : State} (live : s.slk.breakActive = false)
    (start : s.slk.startBit = some t0) :
    exec (.receivedByte dt b) s = .next (takeByte b (s.now + dt) (s.elapse dt)) :=
  congrArg Host.Outcome.next (if_pos (receiving_of (s := s.elapse dt) live start))

theorem exec_framingError {dt t0 : Nat} {s : State} (live : s.slk.breakActive = false) (start : s.slk.startBit = some t0) :
    exec (.framingError dt) s = .next (frameError (endByte (s.elapse dt))) :=
  congrArg Host.Outcome.next (if_pos (receiving_of (s := s.elapse dt) live start))

/-! ## Breaks (R178) -/

theorem frameError_hunt {s : State} (rx : s.slk.rx = .hunt) : frameError s = s := by
  simp only [frameError, rx]

theorem frameError_inside {s : State} (rx : s.slk.rx ≠ .hunt) :
    frameError s = detect .linkCheck 0 (setReceiver .hunt none s) := by
  unfold frameError
  split
  · next hunt => exact absurd hunt rx
  · rfl

/-- Settles O10: the framing error, the gap and the break at their moments. -/
theorem brokenFramesAndBreaks : Obligations.BrokenFramesAndBreaks := by
  intro dt t0 s high ended
  refine ⟨fun live start rx => ?_, fun live start rx => ?_, fun gap => ?_, fun start => ?_, fun cut => ?_⟩
  · rw [exec_framingError live start, frameError_inside (by simpa using rx)]
    rfl
  · rw [exec_framingError live start, frameError_hunt (by simpa using rx)]
    simp only [ended, ← rx]
    rfl
  · simp only [exec, execGapTimerExpiry, gap, atExpiry]
    rfl
  · simp only [exec, execBreak, State.breakDue, start, Option.map_some, atExpiry]
    rfl
  · simp only [exec, execBreakEnd, State.withSlk, Slk.endBreak, State.elapse_slk, cut, if_true]
    rfl

end Sys2Proof.Machine

/-! PROOFS. The samples of RXD, the transmitter, and postings (sections 10.1, 10.4, 10.5, 11.5). -/

namespace Sys2Proof.Machine

/-! ## A byte off the line (R170) -/

/-- The bits of a number made of flags are the flags. -/
theorem testBit_bitsOf (l : List Bool) (k : Nat) : (bitsOf l).testBit k = l.getD k false := by
  induction l generalizing k with
  | nil => simp [bitsOf]
  | cons b l ih =>
    have halves : bitsOf (b :: l) = Nat.bit b (bitsOf l) := by
      cases b <;> simp [bitsOf, Nat.bit]
      omega
    rw [halves]
    cases k with
    | zero => simp
    | succ k => rw [Nat.testBit_bit_succ, ih, List.getD_cons_succ]

/-- The byte heard has a bit set exactly where the line was high at the bit's middle. -/
theorem byteHeard_getLsbD (heard : List Level) {k : Nat} (hk : k < 8) :
    (byteHeard heard).getLsbD k = true ↔ heard[16 * (k + 1) + 8]? = some .high := by
  have bit : ((List.range 8).map (bitHeard heard)).getD k false = bitHeard heard k := by
    simp [List.getD_eq_getElem?_getD, hk]
  rw [byteHeard, BitVec.getLsbD_ofNat, testBit_bitsOf, bit]
  simp [hk, bitHeard, middleOf]

/-- A moment that has passed moves no clock. -/
theorem State.reach_of_le {t : Nat} {s : State} (h : t ≤ s.now) : s.reach t = s := by
  rw [State.reach, max_eq_left h]

/-! ## A sample of RXD (R61, R170) -/

/-- The filter at a sample: an equal level, a differing one, and the third differing one in a row. -/
theorem LineFilter.take_eq (level : Level) (time : Nat) (f : LineFilter) :
    f.take level time =
      if level = f.accepted then { f with run := 0, sampledAt := time }
      else if f.run < 2 then { f with run := f.run + 1, sampledAt := time }
      else { accepted := level, run := 0, sampledAt := time } := by
  by_cases same : level = f.accepted
  · simp [LineFilter.take, LineFilter.sample, same]
  · by_cases few : f.run < 2
    · simp [LineFilter.take, LineFilter.sample, same, few, Nat.not_le.mpr few]
    · simp [LineFilter.take, same, few, Nat.not_lt.mp few]

/-- Outside a byte and a break a sample is looked at for a fall. -/
theorem receiveSample_idle {before after : Level} {s : State} (live : s.slk.breakActive = false)
    (idle : s.slk.startBit = none) :
    receiveSample before after s = if before = .high ∧ after = .low then startByte s else s := by
  simp [receiveSample, live, idle]

theorem receiveSample_break {before after : Level} {s : State} (cut : s.slk.breakActive = true) :
    receiveSample before after s = if after = .high then s.withSlk (·.endBreak) else s := by
  simp [receiveSample, cut]

theorem receiveSample_byte {before after : Level} {s : State} {t0 : Nat} (live : s.slk.breakActive = false)
    (start : s.slk.startBit = some t0) : receiveSample before after s = hearSample after s := by
  simp [receiveSample, live, start]

/-- Up to the middle of the stop bit a level is heard; a low stop bit is heard too. -/
theorem hearSample_heard {level : Level} {s : State}
    (inside : s.slk.heard.length < 152 ∨ (s.slk.heard.length = 152 ∧ level = .low)) :
    hearSample level s = s.withSlk fun k => { k with heard := k.heard ++ [level] } := by
  have early : s.slk.heard.length ≤ middleOf 9 := by simp only [middleOf]; omega
  have noByte : ¬(s.slk.heard.length = middleOf 9 ∧ level = .high) := by
    rintro ⟨at152, rfl⟩
    simp only [middleOf] at at152
    simp_all
  simp only [hearSample, if_pos early, if_neg noByte]

/-- A high stop bit makes a byte. -/
theorem hearSample_byte {s : State} (stop : s.slk.heard.length = 152) :
    hearSample .high s = takeByte (byteHeard s.slk.heard) s.stopBitEnd
      (s.withSlk fun k => { k with heard := k.heard ++ [.high] }) := by
  simp [hearSample, middleOf, stop]

/-- After a low stop bit a high line is a framing error. -/
theorem hearSample_error {s : State} (past : 152 < s.slk.heard.length) :
    hearSample .high s = frameError (endByte s) := by
  have late : ¬s.slk.heard.length ≤ middleOf 9 := by simp only [middleOf]; omega
  simp only [hearSample, if_neg late, if_true]

/-- And a low one a break when 2 ms have passed since the fall. -/
theorem hearSample_low {s : State} {t0 : Nat} (past : 152 < s.slk.heard.length) (start : s.slk.startBit = some t0) :
    hearSample .low s = if t0 + 2000 ≤ s.now then takeBreak s else s := by
  have late : ¬s.slk.heard.length ≤ middleOf 9 := by simp only [middleOf]; omega
  simp only [hearSample, if_neg late, reduceCtorEq, if_false, State.breakDue, start, Option.map_some, Option.any_some, ms,
    decide_eq_true_eq]

/-- Settles O9: a sample passes its filter and acts by `receiveSample`; a byte acts by the receiver's table. -/
theorem receiverAssemblesFrames : Obligations.ReceiverAssemblesFrames := by
  unfold Obligations.ReceiverAssemblesFrames
  intro settled assembles
  have table : ∀ b stop u, assembles b stop u (.next (takeByte b stop u)) := by
    intro b stop u
    refine ⟨fun rx lead => ?_, fun rx other => ?_, fun rx low high => ?_, fun rx outside => ?_, fun length stored count rx => ?_⟩
    · rw [lead, takeByte_lead rx]
      rfl
    · rw [takeByte_hunt rx other, ← rx]
      rfl
    · rw [takeByte_length rx ⟨low, high⟩]
      rfl
    · rw [takeByte_badLength rx outside]
      rfl
    · rw [takeByte_body rx]
      rfl
  constructor
  · intro dt t0 b s live
    refine ⟨fun idle => ?_, fun start => ?_⟩
    · rw [exec_startBit live idle]
      rfl
    · rw [exec_receivedByte live start]
      exact table _ _ _
  · intro level rest s queue samples time f filtered seen t heard n
    have passes : f.take level time = filtered := LineFilter.take_eq level time f
    have taken : step s = .next (receiveSample f.accepted seen t) := by
      simp only [step, queue, takeSample, samples, sampleRxd]
      change Host.Outcome.next (receiveSample f.accepted (f.take level time).accepted { s.reach time with
        slk := { s.slk with rxdWaiting := rest, rxdTaken := s.slk.rxdTaken + 1, rxd := f.take level time } }) = _
      rw [passes]
    have clock : t.now = max s.now time := rfl
    rw [taken]
    refine ⟨fun cut => ?_, fun live idle => ?_, fun t0 live start => ⟨fun inside => ?_, fun stop high => ?_, fun past high => ?_,
      fun past low => ?_⟩⟩
    · rw [receiveSample_break (s := t) cut, apply_ite Host.Outcome.next]
      rfl
    · rw [receiveSample_idle (s := t) live idle, apply_ite Host.Outcome.next, exec_startBit (s := t) live idle]
      rfl
    · rw [receiveSample_byte (s := t) live start, hearSample_heard (s := t) inside]
      rfl
    · have byte : receiveSample f.accepted seen t = takeByte (byteHeard t.slk.heard) t.stopBitEnd heard := by
        rw [receiveSample_byte (s := t) live start, high, hearSample_byte (s := t) stop, ← high]
        rfl
      rw [byte]
      refine ⟨byteHeard t.slk.heard, fun k hk => byteHeard_getLsbD _ hk, table _ _ _, fun length stored rx => ?_⟩
      have received : exec (.frameComplete 0 (byteHeard t.slk.heard)) heard =
          .next (completeFrame (byteHeard t.slk.heard) heard) :=
        congrArg Host.Outcome.next (if_pos (receiving_of (s := heard) live start))
      have check : heard.slk.rx = .check length stored := rx
      rw [received]
      simp only [completeFrame, check, takeByte_check check]
    · rw [receiveSample_byte (s := t) live start, high, hearSample_error (s := t) past, exec_framingError (s := t) live start]
      rfl
    · rw [receiveSample_byte (s := t) live start, low, hearSample_low (s := t) past start, clock, apply_ite Host.Outcome.next]
      refine ite_congr rfl (fun due => ?_) fun _ => rfl
      have reached : t.reach (t0 + ms 2) = t := State.reach_of_le due
      have expires : exec .lineBreak t = .next (takeBreak (t.reach (t0 + ms 2))) := by
        have fall : t.slk.startBit = some t0 := start
        simp only [exec, execBreak, State.breakDue, fall, Option.map_some, atExpiry]
      rw [expires, reached]

/-! ## The notice queue (R176, R187) -/

/-- With distinct keys a posting replaces the one entry of its key. -/
theorem post_replaces {n m : Notice} {s : State} {l r : List Notice} (queue : s.slk.notices = l ++ m :: r)
    (key : m.key = n.key) (distinct : (s.slk.notices.map Notice.key).Nodup) :
    s.post n = { s with slk := { s.slk with notices := l ++ n :: r } } := by
  have same : m.sameKey n = true := (sameKey_iff m n).mpr key
  have others : ∀ x ∈ l ++ r, x.sameKey n = false := by
    intro x hx
    rw [Bool.eq_false_iff, Ne, sameKey_iff, ← key]
    rw [queue, List.map_append, List.map_cons] at distinct
    have apart := (List.nodup_middle.mp distinct)
    rw [List.nodup_cons, ← List.map_append] at apart
    exact fun e => apart.1 (List.mem_map.mpr ⟨x, hx, e⟩)
  have keep : ∀ k : List Notice, (∀ x ∈ k, x ∈ l ++ r) → k.map (fun x => if x.sameKey n then n else x) = k := by
    intro k hk
    refine (List.map_congr_left fun x hx => ?_).trans (List.map_id' k)
    rw [if_neg (by rw [others x (hk x hx)]; exact Bool.false_ne_true)]
  have waits : s.slk.notices.any (·.sameKey n) = true := by simp [queue, same]
  rw [State.post, Slk.post, if_pos waits, queue, List.map_append, List.map_cons, if_pos same,
    keep l fun x hx => List.mem_append_left _ hx, keep r fun x hx => List.mem_append_right _ hx]

theorem any_sameKey_of_ne {n : Notice} {l : List Notice} (h : ∀ m ∈ l, m.key ≠ n.key) :
    ¬l.any (·.sameKey n) = true := by
  simpa [List.any_eq_true, sameKey_iff] using h

/-- Settles O12: `Slk.post` asks for the key first, then for room. -/
theorem postingFollowsTheNoticeTable : Obligations.PostingFollowsTheNoticeTable := by
  refine ⟨fun k subject s => ?_, fun n s => ⟨fun l r m queue key distinct => post_replaces queue key distinct,
    fun fresh room => ?_, fun fresh full => ?_⟩⟩
  · exact ⟨by cases k <;> rfl, rfl⟩
  · rw [State.post, Slk.post, if_neg (any_sameKey_of_ne fresh), if_pos (show _ < noticeCapacity from room)]
  · rw [State.post, Slk.post, if_neg (any_sameKey_of_ne fresh), if_neg (show ¬_ < noticeCapacity from Nat.not_lt.mpr full)]

/-! ## The transmitter (R174, R175, R177) -/

theorem mayBegin_iff {k : Slk} : k.mayBegin = true ↔ k.tx = .idle ∧ k.hrdy = true ∧ k.breakActive = false := by
  simp [Slk.mayBegin, and_assoc]

/-- The slots before the oldest waiting reply have none. -/
theorem startOldest_append {l r : List RequestSlot} {x : RequestSlot} (none : ∀ y ∈ l, y.reply = none)
    (reply : x.reply.isSome = true) (still : x.sending = false) :
    startOldest (l ++ x :: r) = some (l ++ { x with sending := true } :: r) := by
  induction l with
  | nil => simp [startOldest, reply, still]
  | cons y l ih =>
    have skip := none y (by simp)
    simp [startOldest, skip, ih fun z hz => none z (by simp [hz])]

theorem startOldest_eq_none {l : List RequestSlot} :
    startOldest l = none ↔ ∀ y ∈ l, y.reply = none ∨ y.sending = true := by
  simp [startOldest_none, or_iff_not_imp_left, Option.isSome_iff_ne_none]

theorem beginReply_of_not {now : Nat} {k : Slk} (h : ¬k.mayBegin = true ∨ startOldest k.slots = none) :
    k.beginReply now = k := by
  unfold Slk.beginReply
  split
  · next may => simp only [h.resolve_left (not_not.mpr may)]
  · rfl

theorem beginNotice_of_not {now : Nat} {k : Slk} (h : ¬k.mayBegin = true ∨ startOldest k.slots ≠ none ∨ k.notices = []) :
    k.beginNotice now = k := by
  unfold Slk.beginNotice
  split
  · next may =>
    simp only [Bool.and_eq_true, Option.isNone_iff_eq_none] at may
    simp only [(h.resolve_left (not_not.mpr may.1)).resolve_left (not_not.mpr may.2)]
  · rfl

/-- The row that asks for a beginning and finds none leaves HRDY as it was seen. -/
theorem exec_replyTransmitStart_of_not {dt : Nat} {hrdy : Bool} {s : State}
    (h : ¬(s.slk.seeHrdy hrdy).mayBegin = true ∨ startOldest s.slk.slots = none) :
    exec (.replyTransmitStart dt hrdy) s = .next { s.elapse dt with slk := { s.slk with hrdy := hrdy } } := by
  have stays := beginReply_of_not (now := s.now + dt) (k := s.slk.seeHrdy hrdy) h
  exact congrArg (fun k => Host.Outcome.next { s.elapse dt with slk := k }) stays

theorem exec_noticeTransmitStart_of_not {dt : Nat} {hrdy : Bool} {s : State}
    (h : ¬(s.slk.seeHrdy hrdy).mayBegin = true ∨ startOldest s.slk.slots ≠ none ∨ s.slk.notices = []) :
    exec (.noticeTransmitStart dt hrdy) s = .next { s.elapse dt with slk := { s.slk with hrdy := hrdy } } := by
  have stays := beginNotice_of_not (now := s.now + dt) (k := s.slk.seeHrdy hrdy) h
  exact congrArg (fun k => Host.Outcome.next { s.elapse dt with slk := k }) stays

end Sys2Proof.Machine

/-! PROOFS. The frames that the part sends, and their bits on TXD (sections 10.1, 10.4, 10.8). -/

namespace Sys2Proof.Machine

/-! ## Bodies (section 10.8) -/

@[simp] theorem leBytes_length (n x : Nat) : (leBytes n x).length = n := by
  induction n generalizing x with
  | zero => rfl
  | succ n ih => simp [leBytes, ih]

theorem statusReport_bytes_length (r : StatusReport) : r.bytes.length = 27 := by
  simp [StatusReport.bytes]

/-- A reply's body has its status first and at most 60 bytes; a STATUS reply's has 27. -/
theorem replyBodyBytes_facts (p : Reply) :
    p.bodyBytes[0]? = some (BitVec.ofNat 8 p.answer.status.code) ∧ p.bodyBytes.length ≤ 60 ∧
      (p.answer.body = .empty → p.bodyBytes.length = 1) ∧
      ∀ r, p.answer.body = .status r → p.bodyBytes.tail = r.bytes.tail ∧ p.bodyBytes.length = 27 := by
  refine ⟨rfl, ?_, fun empty => by simp only [Reply.bodyBytes, empty, List.length_singleton], fun r status => ?_⟩
  · unfold Reply.bodyBytes
    split
    · simp
    · simp [statusReport_bytes_length]
    · simp only [List.length_cons, List.length_take]
      omega
  · simp only [Reply.bodyBytes, status, List.tail_cons, List.length_cons, List.length_tail, statusReport_bytes_length, true_and]

/-- A GRANT notice is laid out in 14 bytes, its slot first. -/
theorem grantBytes_facts {n : Notice} {l : List Byte} (h : n.grantBytes = some l) :
    l.length = 14 ∧ l[0]? = some (BitVec.ofNat 8 n.subject) := by
  cases n <;> simp only [Notice.grantBytes, reduceCtorEq] at h
  obtain rfl := Option.some.inj h
  exact ⟨by simp, rfl⟩

theorem noticeBodyBytes_facts (n : Notice) :
    n.bodyBytes[0]? = some (BitVec.ofNat 8 n.subject) ∧ n.bodyBytes.length ≤ 60 ∧
      ∀ l, n.grantBytes = some l → n.bodyBytes = l ∧ l.length = 14 := by
  unfold Notice.bodyBytes
  cases laid : n.grantBytes with
  | none =>
    refine ⟨rfl, ?_, nofun⟩
    simp only [Option.getD_none, List.length_cons, List.length_take]
    omega
  | some l =>
    obtain ⟨length, first⟩ := grantBytes_facts laid
    simp only [Option.getD_some, first, length, true_and, Option.some.injEq]
    refine ⟨by omega, ?_⟩
    rintro _ rfl
    exact ⟨rfl, length⟩

/-! ## Frames -/

theorem frameBytes_eq (kind tag : Byte) (body : List Byte) :
    frameBytes kind tag body = 0xC3 :: (BitVec.ofNat 8 (body.length + 2) :: kind :: tag :: body) ++
      [crc8 (BitVec.ofNat 8 (body.length + 2) :: kind :: tag :: body)] := rfl

/-- The two rows that ask for a beginning. -/
theorem exec_replyTransmitStart (dt : Nat) (hrdy : Bool) (s : State) :
    exec (.replyTransmitStart dt hrdy) s =
      .next { s.elapse dt with slk := (s.slk.seeHrdy hrdy).beginReply (s.now + dt) } := rfl

theorem exec_noticeTransmitStart (dt : Nat) (hrdy : Bool) (s : State) :
    exec (.noticeTransmitStart dt hrdy) s =
      .next { s.elapse dt with slk := (s.slk.seeHrdy hrdy).beginNotice (s.now + dt) } := rfl

/-- The slot being sent is the first of those that are. -/
theorem find?_sending {l r : List RequestSlot} {x : RequestSlot} (still : ∀ y ∈ l, y.sending = false) :
    (l ++ { x with sending := true } :: r).find? (·.sending) = some { x with sending := true } := by
  rw [List.find?_append, List.find?_eq_none.mpr fun y hy => by simp [still y hy]]
  simp

/-! ## TXD (R170, R175, R178) -/

theorem byteLevels_getElem? (b : Byte) (k : Nat) : (byteLevels b)[k]? =
    if k = 0 then some .low else if k < 9 then some (if b.getLsbD (k - 1) then .high else .low)
    else if k = 9 then some .high else none := by
  unfold byteLevels
  rcases k with _ | k
  · rfl
  · by_cases data : k < 8
    · simp [data, List.getElem?_append_left]
    · by_cases stop : k = 8
      · simp [stop]
      · rw [List.getElem?_eq_none (by simp; omega), if_neg (by omega), if_neg (by omega), if_neg (by omega)]

/-- A moment has passed `bits` whole bit times after the start. -/
theorem le_bitsSince {bits start time : Nat} :
    bits * 1000000 ≤ (time - start) * 115200 ↔ bits ≤ bitsSince start time := by
  rw [bitsSince, Nat.le_div_iff_mul_le (by omega)]

/-- The levels of the frame being sent. -/
theorem txdLevels_eq {s : State} {f : List Byte} {start : Nat} (sent : s.sentFrame = some f)
    (begun : s.slk.txStart = some start) :
    s.txdLevels = match s.slk.cut with
      | some e => (f.flatMap byteLevels).take (10 * (bitsSince start e / 10 + 1))
      | none => f.flatMap byteLevels := by
  simp only [State.txdLevels, sent, begun, Option.getD_some]
  cases s.slk.cut <;> rfl

theorem txd_eq {s : State} {start : Nat} (begun : s.slk.txStart = some start) :
    s.txd = s.txdLevels[bitsSince start s.now]?.getD .high := by simp only [State.txd, begun]

/-- Inside its byte a bit stands on TXD, also in a cut frame up to the byte that was being sent. -/
theorem txd_inside {s : State} {f : List Byte} {start n k : Nat} {b : Byte} (sent : s.sentFrame = some f)
    (begun : s.slk.txStart = some start) (byte : f[n]? = some b) (hk : k < 10) (now : bitsSince start s.now = 10 * n + k)
    (reached : ∀ e, s.slk.cut = some e → 10 * n ≤ bitsSince start e) : some s.txd = (byteLevels b)[k]? := by
  have bit : (f.flatMap byteLevels)[10 * n + k]? = (byteLevels b)[k]? := by
    rw [frameLevels_getElem? f n k hk, byte, Option.bind_some]
  have level : s.txdLevels[10 * n + k]? = (byteLevels b)[k]? := by
    rw [txdLevels_eq sent begun]
    split
    · next e cut =>
      have := reached e cut
      rw [List.getElem?_take_of_lt (by omega), bit]
    · exact bit
  rw [txd_eq begun, now, level, List.getElem?_eq_getElem (by simpa using hk)]
  rfl

/-- Past the last level TXD is high. -/
theorem txd_past {s : State} {start : Nat} (begun : s.slk.txStart = some start)
    (past : s.txdLevels.length ≤ bitsSince start s.now) : s.txd = .high := by
  rw [txd_eq begun, List.getElem?_eq_none past]
  rfl

/-- Settles O11: the beginnings are those of the oldest waiting reply and of the head notice; TXD follows the levels of the
frame's bytes. -/
theorem transmitterSendsRepliesThenNotices : Obligations.TransmitterSendsRepliesThenNotices := by
  refine ⟨fun dt s => ?_, frameBytes_eq, replyBodyBytes_facts, noticeBodyBytes_facts, byteLevels_getElem?, fun s => ?_⟩
  · intro free reply notice only
    have mayBegin : free → (s.slk.seeHrdy true).mayBegin = true := fun h => mayBegin_iff.mpr ⟨h.1, rfl, h.2⟩
    have busy : s.slk.tx ≠ .idle ∨ s.slk.breakActive = true → ¬(s.slk.seeHrdy true).mayBegin = true := by
      rintro h may
      obtain ⟨idle, -, live⟩ := mayBegin_iff.mp may
      exact h.elim (· idle) fun cut => by simp [show s.slk.breakActive = false from live] at cut
    have deaf : ¬(s.slk.seeHrdy false).mayBegin = true := fun may => Bool.false_ne_true (mayBegin_iff.mp may).2.1
    refine ⟨?_, ?_, fun l r x idle slots none hasReply still => ?_, fun n l idle nothing queue => ?_, fun h => ⟨?_, ?_⟩,
      fun nothing => ?_, fun waits => ?_, fun empty => ?_, ?_, ?_, fun sending => ?_, fun n sending => ?_, fun idle => ?_⟩
    · simp [State.rdy]
    · simp [State.atn]
    · intro begun
      have begins : (s.slk.seeHrdy true).beginReply (s.now + dt) = begun.slk := by
        have oldest : startOldest (s.slk.seeHrdy true).slots = some (l ++ { x with sending := true } :: r) := by
          rw [← startOldest_append none hasReply still, ← slots]
          rfl
        simp only [Slk.beginReply, if_pos (mayBegin idle), oldest]
        rfl
      refine ⟨by rw [show reply = _ from exec_replyTransmitStart dt true s, begins], fun p answer quiet => ?_⟩
      have sentSlot : begun.slk.slots.find? (·.sending) = some { x with sending := true } := find?_sending quiet
      have tx : begun.slk.tx = .sendingReply := rfl
      simp only [State.sentFrame, State.sentHead, tx, sentSlot, Option.bind_some, answer, Option.map_some]
      exact ⟨rfl, rfl⟩
    · intro begun
      have begins : (s.slk.seeHrdy true).beginNotice (s.now + dt) = begun.slk := by
        have may : ((s.slk.seeHrdy true).mayBegin && (startOldest (s.slk.seeHrdy true).slots).isNone) = true := by
          rw [mayBegin idle, show startOldest (s.slk.seeHrdy true).slots = none from startOldest_eq_none.mpr nothing]
          rfl
        have head : (s.slk.seeHrdy true).notices = n :: l := queue
        simp only [Slk.beginNotice, if_pos may, head]
        rfl
      exact ⟨by rw [show notice = _ from exec_noticeTransmitStart dt true s, begins], rfl, rfl⟩
    · exact exec_replyTransmitStart_of_not (.inl (busy h))
    · exact exec_noticeTransmitStart_of_not (.inl (busy h))
    · exact exec_replyTransmitStart_of_not (.inr (startOldest_eq_none.mpr nothing))
    · refine exec_noticeTransmitStart_of_not (.inr (.inl fun e => ?_))
      obtain ⟨y, hy, answered, quiet⟩ := waits
      rcases startOldest_eq_none.mp e y hy with h | h <;> simp_all
    · exact exec_noticeTransmitStart_of_not (.inr (.inr empty))
    · exact exec_replyTransmitStart_of_not (.inl deaf)
    · exact exec_noticeTransmitStart_of_not (.inl deaf)
    · simp only [exec, execFrameTransmitEnd, State.withSlk, State.elapse_slk, Slk.endFrame, sending]
    · simp only [exec, execFrameTransmitEnd, State.withSlk, State.elapse_slk, Slk.endFrame, sending]
    · simp only [exec, execFrameTransmitEnd, State.withSlk, State.elapse_slk, Slk.endFrame, idle]
      rfl
  · refine ⟨txd_idle, fun f start sent begun => ?_⟩
    intro reaches
    simp only [reaches, le_bitsSince, not_le]
    refine ⟨fun n k b byte hk low high reached => txd_inside sent begun byte hk (by omega) reached, fun past => ?_,
      fun n e cut before now => ?_⟩
    · refine txd_past begun (le_trans ?_ past)
      rw [txdLevels_eq sent begun]
      split
      · exact (List.length_take_le' _ _).trans (frameLevels_length f).le
      · exact (frameLevels_length f).le
    · refine txd_past begun (le_trans ?_ now)
      rw [txdLevels_eq sent begun, cut]
      refine (List.length_take_le _ _).trans ?_
      omega

end Sys2Proof.Machine

/-! PROOFS. The Limit Store: CHASSIS_LIMITS, LOAD_SET and their checks (chapter 1). -/

namespace Sys2Proof.Machine

/-! ## Checks by field number -/

/-- Checks in field-number order name the first field that fails: `ok k` is what the check of field `k` asks. -/
theorem firstFailing_iff {l : List Bool} {ok : Nat → Prop} (h : ∀ (i : Nat) (hi : i < l.length), l[i] = true ↔ ok (i + 1)) :
    (firstFailing 1 l = none ↔ ∀ k, 1 ≤ k → k ≤ l.length → ok k) ∧
      ∀ k, firstFailing 1 l = some k ↔ 1 ≤ k ∧ k ≤ l.length ∧ ¬ok k ∧ ∀ j, 1 ≤ j → j < k → ok j := by
  have fails : ∀ i, l[i]? = some false ↔ i < l.length ∧ ¬ok (i + 1) := by
    intro i
    rw [List.getElem?_eq_some_iff]
    constructor
    · rintro ⟨hi, e⟩
      exact ⟨hi, fun o => by simp [(h i hi).mpr o] at e⟩
    · rintro ⟨hi, no⟩
      exact ⟨hi, Bool.eq_false_iff.mpr fun e => no ((h i hi).mp e)⟩
  constructor
  · rw [firstFailing_eq_none]
    simp only [ne_eq, fails, not_and, not_not]
    refine ⟨fun all k pos le => ?_, fun all i hi => all (i + 1) (by omega) (by omega)⟩
    obtain ⟨i, rfl⟩ := Nat.exists_eq_add_of_le' pos
    exact all i (by omega)
  · intro k
    rw [firstFailing_eq_some]
    simp only [ne_eq, fails, not_and, not_not]
    constructor
    · rintro ⟨i, rfl, ⟨hi, no⟩, before⟩
      rw [Nat.add_comm]
      refine ⟨by omega, by omega, no, fun j pos lt => ?_⟩
      obtain ⟨j, rfl⟩ := Nat.exists_eq_add_of_le' pos
      exact before j (by omega) (by omega)
    · rintro ⟨pos, le, no, before⟩
      obtain ⟨i, rfl⟩ := Nat.exists_eq_add_of_le' pos
      exact ⟨i, by omega, ⟨by omega, no⟩, fun j lt _ => before (j + 1) (by omega) (by omega)⟩

theorem isStep_iff {n : Nat} : isStep n = true ↔ n % 250 = 0 := by simp [isStep]

/-! ## A step that leaves the front end's scan (R29) -/

theorem finishNew_of_same {s t : State} (h : t.scanSpent = s.scanSpent) : finishNew s t = t := by
  unfold finishNew finishScan
  rw [h]
  cases s.scanSpent <;> rfl

theorem scanSpent_congr {s t : State} (h : t.msu = s.msu) : t.scanSpent = s.scanSpent := by
  rw [State.scanSpent, State.scanSpent, h]

/-! ## CHASSIS_LIMITS (R2, R3) -/

section
variable {f : ChassisLimits} {s : State}

theorem chassisLimits_locked (locked : s.lst.chassis.isSome = true) : chassisLimits f s = (s, .only .locked) := if_pos locked

theorem chassisLimits_badField {n : Nat} (open_ : s.lst.chassis = none) (bad : firstFailing 1 (chassisChecks f) = some n) :
    chassisLimits f s = (s, { status := .badField, body := .field n }) := by
  simp [chassisLimits, open_, bad]

theorem chassisLimits_accepted (open_ : s.lst.chassis = none) (good : firstFailing 1 (chassisChecks f) = none) :
    chassisLimits f s = (enterLocked (s.withLst fun l => { l with chassis := some f }), .only .ok) := by
  simp [chassisLimits, open_, good]

end

/-! ### What a completion in LOCKED leaves (R30, R32, R182) -/

/-- Limits, placement, source, channels, electrodes and mode stay. -/
structure SameSetup (s t : State) : Prop where
  lst : t.lst = s.lst
  plu : t.plu = s.plu
  srm : t.srm = s.srm
  channels : t.msu.channels = s.msu.channels
  scanList : t.msu.scanList = s.msu.scanList
  electrodes : t.csu.electrodes = s.csu.electrodes
  mode : t.mdc.mode = s.mdc.mode

namespace SameSetup

theorem refl (s : State) : SameSetup s s := ⟨rfl, rfl, rfl, rfl, rfl, rfl, rfl⟩

theorem trans {s t u : State} (h : SameSetup s t) (k : SameSetup t u) : SameSetup s u :=
  ⟨k.lst.trans h.lst, k.plu.trans h.plu, k.srm.trans h.srm, k.channels.trans h.channels, k.scanList.trans h.scanList,
    k.electrodes.trans h.electrodes, k.mode.trans h.mode⟩

theorem ofGrants {s t : State} (h : Grants s t) : SameSetup s t := by
  rw [h.only]
  exact ⟨rfl, rfl, rfl, rfl, rfl, rfl, rfl⟩

theorem ofFixed {s t : State} (h : Fixed s t) (mode : t.mdc = s.mdc) : SameSetup s t :=
  ⟨h.lst, h.plu, h.srm, h.channels, h.scanList, h.electrodes, congrArg Mdc.mode mode⟩

theorem judgeGuard (c : Completion) (s : State) : SameSetup s (Machine.judgeGuard c s) := by
  have claim : ∀ v, SameSetup s (s.setGuard v) := fun _ => ⟨rfl, rfl, rfl, rfl, rfl, rfl, rfl⟩
  unfold Machine.judgeGuard
  dsimp only
  (repeat' split)
  · exact refl s
  · exact (claim false).trans (ofGrants ((Grants.refl _).withdrawCauseFrom six .guard))
  · exact refl s
  · exact (claim true).trans (ofGrants ((Grants.refl _).addCauseTo six .guard))
  · exact refl s

/-- In LOCKED only the guard looks at a completion. -/
theorem completeMeasurement {s : State} (locked : s.mdc.mode = .locked) : SameSetup s (Machine.completeMeasurement s) := by
  unfold Machine.completeMeasurement consume
  have mode : (deriveZones s.completionNow (s.withMsu fun m => { m with scan := none, last := s.completionNow })).mdc.mode =
      .locked := locked
  have derived : SameSetup s
      (deriveZones s.completionNow (s.withMsu fun m => { m with scan := none, last := s.completionNow })) :=
    ⟨rfl, rfl, rfl, rfl, rfl, rfl, rfl⟩
  simp only [mode]
  exact derived.trans (judgeGuard _ _)

end SameSetup

/-- What a completion in LOCKED leaves of the claim of the contact scan. -/
theorem completeMeasurement_claim {s : State} (locked : s.mdc.mode = .locked) :
    (completeMeasurement s).msu.claim = s.msu.claim := by
  unfold completeMeasurement consume
  have mode : (deriveZones s.completionNow (s.withMsu fun m => { m with scan := none, last := s.completionNow })).mdc.mode =
      .locked := locked
  simp only [mode]
  unfold judgeGuard
  dsimp only
  (repeat' split)
  · rfl
  · rw [((Grants.refl _).withdrawCauseFrom six .guard).only]
    rfl
  · rfl
  · rw [((Grants.refl _).addCauseTo six .guard).only]
    rfl
  · rfl

/-- Without a contact scan a spent scan hands the front end to nobody. -/
theorem SameSetup.finishScan {s : State} (locked : s.mdc.mode = .locked) (claim : s.msu.claim = .unclaimed) :
    SameSetup s (Machine.finishScan s) := by
  unfold Machine.finishScan
  split
  · have idle : (Machine.completeMeasurement s).msu.claim = .unclaimed := (completeMeasurement_claim locked).trans claim
    have freed : handOnFrontEnd (Machine.completeMeasurement s) =
        (Machine.completeMeasurement s).withMsu fun m => { m with frontEnd := .free } := by
      simp [handOnFrontEnd, idle]
    rw [freed]
    exact (SameSetup.completeMeasurement locked).trans ⟨rfl, rfl, rfl, rfl, rfl, rfl, rfl⟩
  · exact SameSetup.refl s

theorem SameSetup.finishNew {r s : State} (locked : s.mdc.mode = .locked) (claim : s.msu.claim = .unclaimed) :
    SameSetup s (Machine.finishNew r s) := by
  unfold Machine.finishNew
  split
  · exact SameSetup.refl s
  · exact SameSetup.finishScan locked claim

/-! ### PREPARE to LOCKED (R3, R54, R169) -/

theorem stopContact_claim (s : State) : (stopContact s).msu.claim = .unclaimed := by
  unfold stopContact freeFrontEnd beginMeasurement advanceScan
  dsimp only
  split_ifs with idle <;> first | exact idle | rfl

/-- A fan that has a target keeps its derate claim (R162, R165). -/
theorem follow_claim {f : Fan} {t : Nat} (ht : t ≠ 0) (now : Nat) : (f.follow t now).state.claim = f.state.claim := by
  unfold Fan.follow
  split
  · rfl
  · next stopped =>
    split
    · simp [Fan.kick, FanState.claim, stopped]
    · rfl
  · rw [if_neg ht]

/-- A posting reaches the notice queue alone. -/
theorem noticesOnly_post (n : Notice) (s : State) : s.noticesOnly (s.post n) :=
  congrArg (fun k => { s with slk := k }) (slk_post_eq n s.slk)

/-- While no derate claim changes, a fan's change reaches the fans and their notices alone. -/
theorem setFan_eq {n : Fin 2} {f : Fan} {s : State} (claim : f.state.claim = (s.fnc.fans.get n).state.claim) :
    setFan n f s = { s with
      fnc := (setFan n f s).fnc
      slk := { s.slk with notices := (setFan n f s).slk.notices, dropped := (setFan n f s).slk.dropped } } := by
  unfold setFan
  dsimp only
  rw [if_pos claim.symm]
  split
  · rfl
  · exact (noticesOnly_post _ _).trans rfl

/-- Outside RUNNING and DOZING every target is guard duty or more (R160). -/
theorem targetOf_unmanaged {n : Fin 2} {s : State} (h : s.managed = false) : s.targetOf n ≠ 0 := by
  simp [State.targetOf, State.rawTarget, h, guardDuty, Fan.heldTarget]

/-- There the targets change fans and notices alone. -/
theorem applyTarget_eq {n : Fin 2} {s : State} (h : s.managed = false) :
    applyTarget n s = { s with
      fnc := (applyTarget n s).fnc
      slk := { s.slk with notices := (applyTarget n s).slk.notices, dropped := (applyTarget n s).slk.dropped } } := by
  unfold applyTarget
  dsimp only
  split
  · exact setFan_eq (follow_claim (targetOf_unmanaged h) s.now)
  · rfl

theorem applyTargets_eq {s : State} (h : s.managed = false) :
    applyTargets s = { s with
      fnc := (applyTargets s).fnc
      slk := { s.slk with notices := (applyTargets s).slk.notices, dropped := (applyTargets s).slk.dropped } } := by
  have first := applyTarget_eq (n := 0) h
  have still : (applyTarget 0 s).managed = false := by
    rw [first]
    exact h
  have second := applyTarget_eq (n := 1) still
  change applyTarget 1 (applyTarget 0 s) = { s with
    fnc := (applyTarget 1 (applyTarget 0 s)).fnc
    slk := { s.slk with
      notices := (applyTarget 1 (applyTarget 0 s)).slk.notices
      dropped := (applyTarget 1 (applyTarget 0 s)).slk.dropped } }
  generalize applyTarget 1 (applyTarget 0 s) = u at second ⊢
  rw [second, first]

/-! ### The statement -/

/-- Settles O16: the lock, then the checks, then the storing with PREPARE to LOCKED. -/
theorem chassisLimitsAreWrittenOnce : Obligations.ChassisLimitsAreWrittenOnce := by
  refine ⟨fun dt tag f s takes => ?_, fun f => ?_⟩
  case refine_2 =>
    intro zone derate ok
    refine firstFailing_iff (l := chassisChecks f) (ok := ok) fun i hi => ?_
    have hi : i < 14 := hi
    interval_cases i <;>
      simp [chassisChecks, six, stepIn, within, withinT, isStep, ok, zone, derate, and_assoc]
  rw [exec_chassisLimits, acceptRequest_takes (takes_elapse takes dt)]
  refine ⟨fun locked => ?_, fun open_ n bad => ?_, fun open_ good => ?_⟩
  · rw [finishing_of_unchanged (chassisLimits_locked (s := s.elapse dt) locked)]
    rfl
  · rw [finishing_of_unchanged (chassisLimits_badField (s := s.elapse dt) open_ bad)]
  · have accepted := chassisLimits_accepted (s := s.elapse dt) open_ good
    rw [finishing, accepted]
    refine ⟨_, rfl, ?_⟩
    generalize hu : (s.elapse dt).withLst (fun l => { l with chassis := some f }) = u
    by_cases prepare : s.mdc.mode = .prepare
    · have entered : enterLocked u = applyTargets (stopContact (u.setMode .locked)) := by
        subst hu
        exact if_pos prepare
      have idle : (stopContact (u.setMode .locked)).managed = false := by
        rw [State.managed, stopContact_mdc]
        rfl
      have targets := applyTargets_eq idle
      have mdc : (applyTargets (stopContact (u.setMode .locked))).mdc = (u.setMode .locked).mdc := by
        rw [targets]
        exact stopContact_mdc _
      have claim : (applyTargets (stopContact (u.setMode .locked))).msu.claim = .unclaimed := by
        rw [targets]
        exact stopContact_claim _
      have entry := SameSetup.ofFixed (Fixed.refl (u.setMode .locked)).stopContact.applyTargets mdc
      have kept := entry.trans (SameSetup.finishNew (r := s.elapse dt) (congrArg Mdc.mode mdc) claim)
      rw [← entered] at kept
      simp only [kept.lst, kept.plu, kept.srm, kept.channels, kept.scanList, kept.electrodes, kept.mode]
      subst hu
      refine ⟨rfl, fun _ => rfl, rfl, rfl, rfl, rfl, rfl, fun _ unclaimed => ?_⟩
      have still : stopContact (((s.elapse dt).withLst fun l => { l with chassis := some f }).setMode .locked) =
          ((s.elapse dt).withLst fun l => { l with chassis := some f }).setMode .locked := if_pos unclaimed
      rw [still] at entered targets
      rw [entered, finishNew_of_same (scanSpent_congr (by rw [targets]; rfl))]
      exact targets
    · have stays : enterLocked u = u := by
        subst hu
        exact if_neg prepare
      have spent : u.scanSpent = (s.elapse dt).scanSpent := by
        subst hu
        rfl
      simp only [stays, finishNew_of_same spent]
      subst hu
      exact ⟨rfl, fun p => absurd p prepare, rfl, rfl, rfl, rfl, rfl, fun p => absurd p prepare⟩

end Sys2Proof.Machine

/-! PROOFS. Channels: setup, scan list, calibration, and the result of a conversion (sections 2.1 to 2.4). -/

namespace Sys2Proof.Machine

/-- A taken request's row, by what its owner answers. -/
theorem owner_answers {kind tag : Byte} {owner : State → State × Answer} {s t : State} {a : Answer} {dt : Nat}
    (takes : s.takes) (h : owner (s.elapse dt) = (t, a)) :
    (.next (acceptRequest kind tag owner (s.elapse dt)) : Host.Outcome State Fault Refusal) = .next (t.answered kind tag a) := by
  rw [acceptRequest_takes (takes_elapse takes dt), h]

/-! ## CHANNEL_SETUP (R19, R20) -/

/-- What step 2 of R19 asks. -/
theorem channelFieldsOk_iff {f : ChannelFields} {k : ChannelKind} : channelFieldsOk f k = true ↔
    f.depth ∈ [1, 2, 4, 8] ∧ f.winLow ≤ f.winHigh ∧
      if k = .temp then f.curve ≠ none ∧ -400 ≤ f.winLow ∧ f.winLow ≤ 1500 ∧ -400 ≤ f.winHigh ∧ f.winHigh ≤ 1500
      else 1 ≤ f.fullScale ∧ f.fullScale ≤ 65535 ∧ 0 ≤ f.winLow ∧ f.winLow ≤ 65535 ∧ 0 ≤ f.winHigh ∧ f.winHigh ≤ 65535 := by
  cases k <;> simp [channelFieldsOk, and_assoc, Option.isSome_iff_ne_none]

theorem mem_six (i : Fin 6) : i ∈ six := by
  revert i
  decide

/-- Step 4 of R19: which blocks hold a channel's kind. -/
theorem kindHeld_iff {s : State} {c : Fin 16} : s.kindHeld c = true ↔
    (∃ j d, s.alc.domains.get j = some d ∧ (d.sense = some c ∨ d.volt = some c)) ∨
      (∃ u, s.srm.setup = some u ∧ (u.batteryChannel = c ∨ ∃ p, u.pair = some p ∧ (p.1 = c ∨ p.2 = c))) ∨
      ∃ z, (s.znm.zones.get z).enabled = true ∧ (s.znm.zones.get z).source = .channels ∧
        c ∈ (s.znm.zones.get z).channels := by
  have domains : s.alc.anyDomain (·.names c) = true ↔
      ∃ j d, s.alc.domains.get j = some d ∧ (d.sense = some c ∨ d.volt = some c) := by
    simp only [Alc.anyDomain, List.any_eq_true]
    constructor
    · rintro ⟨j, -, h⟩
      cases hd : s.alc.domains.get j with
      | none => simp [hd] at h
      | some d => exact ⟨j, d, hd, by simpa [hd, Domain.names] using h⟩
    · rintro ⟨j, d, hd, h⟩
      exact ⟨j, mem_six j, by simpa [hd, Domain.names] using h⟩
  have source : s.srm.setup.any (·.names c) = true ↔
      ∃ u, s.srm.setup = some u ∧ (u.batteryChannel = c ∨ ∃ p, u.pair = some p ∧ (p.1 = c ∨ p.2 = c)) := by
    simp [Option.any_eq_true, SourceSetup.names]
  have zones : six.any (fun z => (s.znm.zones.get z).names c) = true ↔
      ∃ z, (s.znm.zones.get z).enabled = true ∧ (s.znm.zones.get z).source = .channels ∧
        c ∈ (s.znm.zones.get z).channels := by
    simp [List.any_eq_true, Zone.names, mem_six, and_assoc]
  rw [State.kindHeld, Bool.or_eq_true, Bool.or_eq_true, domains, source, zones, or_assoc]

section
variable {f : ChannelFields} {s : State}

theorem channelSetup_noSuch (h : 16 ≤ f.channel) : channelSetup f s = (s, .only .noSuch) := by
  rw [channelSetup, index?_none h]
  rfl

theorem channelSetup_badField (h : f.channel < 16) (bad : ∀ k, f.kind = some k → ¬channelFieldsOk f k = true) :
    channelSetup f s = (s, .only .badField) := by
  have number : index? 16 f.channel = some ⟨f.channel, h⟩ := dif_pos h
  rw [channelSetup, number]
  cases hk : f.kind with
  | none => rfl
  | some k => simp [bad k hk, refuse]

variable {c : Fin 16} {k : ChannelKind}

theorem channelSetup_good (number : f.channel = c.val) (kind : f.kind = some k) (good : channelFieldsOk f k = true) :
    channelSetup f s =
      if s.msu.scanList.contains c then (s, .only .conflict)
      else if k ≠ (s.msu.channels.get c).kind ∧ s.kindHeld c then (s, .only .conflict)
      else (setupChannel c f k s, .only .ok) := by
  rw [channelSetup, number, index?_val]
  simp [kind, good, refuse]

end

/-- Settles O20: the steps of R19 in their order. -/
theorem channelSetupReplacesTheRecord : Obligations.ChannelSetupReplacesTheRecord := by
  intro dt tag f s takes refused within good
  simp only [refused, exec_channelSetup]
  refine ⟨fun none => owner_answers takes (channelSetup_noSuch none), fun exists_ bad => ?_, fun c k number kind ok => ?_⟩
  · exact owner_answers takes (channelSetup_badField exists_ fun k hk => mt channelFieldsOk_iff.mp (bad k hk))
  · have owner := channelSetup_good (s := s.elapse dt) number kind (channelFieldsOk_iff.mpr ok)
    have holds := kindHeld_iff (s := s.elapse dt) (c := c)
    refine ⟨fun listed => owner_answers takes ?_, fun unlisted other holder => owner_answers takes ?_,
      fun unlisted free => owner_answers takes ?_⟩
    · rw [owner, if_pos (by simpa using listed)]
      rfl
    · rw [owner, if_neg (by simpa using unlisted), if_pos ⟨other, holds.mpr holder⟩]
      rfl
    · have free : ¬(k ≠ ((s.elapse dt).msu.channels.get c).kind ∧ (s.elapse dt).kindHeld c = true) :=
        fun ⟨other, holder⟩ => free.elim other fun no => no (holds.mp holder)
      rw [owner, if_neg (by simpa using unlisted), if_neg free]
      rfl

/-! ## SCAN_LIST (R25) -/

theorem firsts_eq_self {l : List Nat} : firsts l = l ↔ l.Nodup := by
  constructor
  · exact fun h => h ▸ nodup_firsts l
  · intro h
    induction l with
    | nil => rfl
    | cons a l ih =>
      obtain ⟨new, rest⟩ := List.nodup_cons.mp h
      rw [firsts, ih rest]
      exact congrArg (a :: ·) (List.filter_eq_self.mpr fun b hb => by
        simpa using fun e : b = a => new (e ▸ hb))

theorem distinct_iff {l : List Nat} : distinct l = true ↔ l.Nodup := by
  rw [distinct, beq_iff_eq, firsts_eq_self]

/-- The channels that numbers name. -/
theorem filterMap_index?_val {n : Nat} (m : List (Fin n)) : (m.map Fin.val).filterMap (index? n) = m := by
  rw [List.filterMap_map]
  induction m with
  | nil => rfl
  | cons a m ih => simp

theorem nodup_map_val {n : Nat} {m : List (Fin n)} (h : m.Nodup) : (m.map Fin.val).Nodup := h.map Fin.val_injective

/-- Distinct channels are no more than there are. -/
theorem length_le_of_nodup {n : Nat} {m : List (Fin n)} (h : m.Nodup) : m.length ≤ n := by
  simpa using h.length_le_card

/-- A list of distinct channels reaches the last check of R25. -/
theorem scanListOwner_named {m : List (Fin 16)} (h : m.Nodup) (s : State) :
    scanListOwner (m.map Fin.val) s =
      if m.all fun c => (s.msu.channels.get c).enabled then
        (s.withMsu fun r => { r with scanList := m }, .only .ok)
      else (s, .only .conflict) := by
  have few : ¬16 < (m.map Fin.val).length := by
    have := length_le_of_nodup h
    simp
    omega
  have known : ¬((m.map Fin.val).any fun n => decide (16 ≤ n)) = true := by
    simp only [List.any_map, List.any_eq_true, Function.comp_apply, decide_eq_true_eq, not_exists, not_and]
    exact fun c _ => by omega
  rw [scanListOwner, if_neg few, if_neg known, if_neg (by simp [distinct_iff.mpr (nodup_map_val h)]),
    filterMap_index?_val]
  rfl

/-- Settles O21: the checks of R25 in their order. -/
theorem scanListIsReplacedWhole : Obligations.ScanListIsReplacedWhole := by
  intro dt tag l s takes refused
  simp only [refused, exec_scanList]
  refine ⟨fun long => owner_answers takes (if_pos long), fun short unknown => owner_answers takes ?_,
    fun short known twice => owner_answers takes ?_, ?_, ?_⟩
  · rw [scanListOwner, if_neg (Nat.not_lt.mpr short), if_pos (by simpa using unknown)]
    rfl
  · rw [scanListOwner, if_neg (Nat.not_lt.mpr short), if_neg (by simpa using known),
      if_pos (by simpa [← distinct_iff] using twice)]
    rfl
  · rintro m rfl distinct ⟨c, hc, off⟩
    refine owner_answers takes ?_
    have notAll : ¬(m.all fun c => ((s.elapse dt).msu.channels.get c).enabled) = true := fun all => by
      simpa [off] using List.all_eq_true.mp all c hc
    rw [scanListOwner_named distinct, if_neg notAll]
    rfl
  · rintro m rfl distinct on
    refine owner_answers takes ?_
    have all : (m.all fun c => ((s.elapse dt).msu.channels.get c).enabled) = true := List.all_eq_true.mpr on
    rw [scanListOwner_named distinct, if_pos all]
    rfl

/-! ## CAL_OVERRIDE (R24) -/

/-- Settles O22: the channel is judged before the fields. -/
theorem calOverrideWritesTheCalibration : Obligations.CalOverrideWritesTheCalibration := by
  intro dt tag c gain offset s takes r done
  simp only [done, exec_calOverrideSet, exec_calOverrideRestore]
  refine ⟨fun g1 g2 o1 o2 => owner_answers takes ?_, fun outside => owner_answers takes ?_, fun n large x hx => ?_,
    owner_answers takes ?_⟩
  · have inside : ¬(gain < 16384 ∨ 65535 < gain ∨ offset < -512 ∨ 511 < offset) := by omega
    simp only [calOverrideSet, index?_val, if_neg inside]
    rfl
  · simp only [calOverrideSet, index?_val, if_pos outside]
    rfl
  · simp only [List.mem_cons, List.not_mem_nil, or_false] at hx
    rcases hx with rfl | rfl
    · rw [exec_calOverrideSet]
      exact owner_answers takes (by rw [calOverrideSet, index?_none large]; rfl)
    · rw [exec_calOverrideRestore]
      exact owner_answers takes (by rw [calOverrideRestore, index?_none large]; rfl)
  · simp only [calOverrideRestore, index?_val]
    rfl

/-! ## Results (R21 to R23) -/

/-- The corrected count is held to 0 to 4095. -/
theorem correctedCount_eq (raw gain : Nat) (offset : Int) :
    correctedCount raw gain offset = (max 0 (min 4095 ((raw * gain / 32768 : Nat) + offset))).toNat := by
  unfold correctedCount
  dsimp only
  split_ifs <;> omega

/-- Between two points a curve is read off the straight line through them. -/
theorem curveAt_between {v : Curve} {k count : Nat} (low : 512 * k ≤ count) (high : count < 512 * (k + 1) ∨ k = 7)
    (hk : k ≤ 7) :
    curveAt v count = curveTemp v k + (((count : Int) - 512 * k) * (curveTemp v (k + 1) - curveTemp v k)).tdiv
      ((curvePoint (k + 1) : Int) - 512 * k) := by
  have point : min (count / 512) 7 = k := by omega
  have start : curvePoint k = 512 * k := by simp only [curvePoint]; split <;> omega
  have rises : 512 * k ≤ curvePoint (k + 1) := by simp only [curvePoint]; split <;> omega
  simp only [curveAt, point, start]
  rw [Nat.cast_sub low, Nat.cast_sub rises]
  push_cast
  rfl

/-- At its upper end a line reaches the next point. -/
theorem curveAt_point {v : Curve} {k : Nat} (hk : k ≤ 7) :
    curveAt v (curvePoint (k + 1)) = curveTemp v k + (((curvePoint (k + 1) : Int) - 512 * k) *
      (curveTemp v (k + 1) - curveTemp v k)).tdiv ((curvePoint (k + 1) : Int) - 512 * k) := by
  interval_cases k <;> cases v <;> decide

/-- The result of a raw count strictly inside the range. -/
theorem resultOf_inside {c : Channel} {raw : Nat} (low : raw ≠ 0) (high : raw ≠ 4095) (gain : Nat) (offset : Int) :
    c.resultOf raw gain offset =
      if c.winLow ≤ c.engineering (correctedCount raw gain offset) ∧
          c.engineering (correctedCount raw gain offset) ≤ c.winHigh then
        some (c.engineering (correctedCount raw gain offset))
      else none := by
  rw [Channel.resultOf, if_neg (by simp [low, high])]

/-- Settles O23: a result through calibration and the curve's points, and its action by the channel's state. -/
theorem rawCountGivesAResultThatActs : Obligations.RawCountGivesAResultThatActs := by
  refine ⟨fun c raw gain offset => ⟨rfl, fun ends => if_pos ends, fun low high => ?_⟩, fun v k count => ?_, fun c v => ?_⟩
  · intro corrected windowed
    refine ⟨fun v temp curve => ?_, fun n other scale => ?_⟩
    · rw [resultOf_inside low high, correctedCount_eq]
      simp only [Channel.engineering, temp, curve, Option.getD_some]
      rfl
    · have scaled : ∀ count, c.engineering count = ((count * n / 4095 : Nat) : Int) := by
        intro count
        unfold Channel.engineering
        split
        · next temp => exact absurd temp other
        · rw [scale, Option.getD_some]
      rw [resultOf_inside low high, correctedCount_eq]
      simp only [scaled]
      rfl
  · intro counts temps c1 c2 t1 t2 low high
    have hk : k.val ≤ 7 := by omega
    have first : c1 = 512 * k.val := by fin_cases k <;> rfl
    have second : c2 = curvePoint (k.val + 1) := by fin_cases k <;> rfl
    have ends : t1 = curveTemp v k.val ∧ t2 = curveTemp v (k.val + 1) := by
      fin_cases k <;> cases v <;> exact ⟨rfl, rfl⟩
    rw [ends.1, ends.2, second, first]
    push_cast
    by_cases top : count = curvePoint (k.val + 1)
    · rw [top]
      exact curveAt_point hk
    · refine curveAt_between (first ▸ low) ?_ hk
      rw [second] at high
      have below : count < curvePoint (k.val + 1) := by omega
      simp only [curvePoint] at below
      split at below <;> omega
  · refine ⟨fun valid quiet deep fits => ?_, fun valid pending => ?_, fun fault => ?_, fun valid => ?_, fun fault => ?_, ?_⟩
    · have joined : joinHistory c.depth c.history v =
          if c.history.length < c.depth then c.history ++ [v] else c.history.drop 1 ++ [v] := by
        unfold joinHistory
        split
        · rfl
        · rw [show c.history.length + 1 - c.depth = 1 by omega]
      simp only [Channel.takeResult, valid, quiet, Bool.false_eq_true, if_false, joined]
    · simp only [Channel.takeResult, valid, pending, if_true]
    · simp only [Channel.takeResult, fault]
    · simp only [Channel.takeResult, valid]
    · simp only [Channel.takeResult, fault]
    · simp only [Channel.value, meanOf, List.isEmpty_iff]

end Sys2Proof.Machine

/-! PROOFS. What the read requests show, what evidence reports count, and how a raw acts on an electrode (sections 3.4, 3.5,
10.4). -/

namespace Sys2Proof.Machine

/-! ## The read requests (R16, R35, R59, R96, R136, R168) -/

/-- The two refusals every unit's read has, and its two answers. -/
def rowsAnswer (a n rows most : Nat) (summary entries : ReplyBody) : Answer :=
  if rows ≤ a then { status := .noSuch, body := .empty }
  else if most < n ∨ rows < a + n then { status := .badField, body := .empty }
  else { status := .ok, body := if n = 0 then summary else entries }

theorem rowsAnswer_eq {a n rows most : Nat} {summary entries : ReplyBody} {s : State} :
    (if rows ≤ a then refuse .noSuch s
     else if most < n ∨ rows < a + n then refuse .badField s
     else if n = 0 then (s, { status := .ok, body := summary }) else (s, { status := .ok, body := entries })) =
      (s, rowsAnswer a n rows most summary entries) := by
  unfold rowsAnswer
  split
  · rfl
  · split
    · rfl
    · split <;> rfl

theorem channelEntry_eq (s : State) (k : Fin 16) : channelEntry s k =
    let c := s.msu.channels.get k
    { channel := k, enabled := c.enabled, listed := decide (k ∈ s.msu.scanList), kind := c.kind, curve := c.curve
      fullScale := c.fullScale, depth := c.depth, winLow := c.winLow, winHigh := c.winHigh, state := c.state
      value := if c.history = [] then none else some (c.history.sum.tdiv c.history.length)
      results := c.history.length, lastRaw := c.lastRaw, gain := c.gain, offset := c.offset, calSource := c.calSource
      restartPending := c.restartPending } := by
  simp [channelEntry, Channel.value, meanOf, List.contains_eq_mem]

theorem groupOf_eq (i : Fin 8) : groupOf i = if i < 4 then 0 else if i < 6 then 1 else 2 := by
  revert i
  decide

/-- A fan's derate claim, by its state (R162, R163). -/
theorem FanState.claim_eq (x : FanState) :
    x.claim = decide (x = .stalled ∨ x = .spinup .retry .kick ∨ x = .spinup .retry .proving) := by
  cases x with
  | spinup k p => cases k <;> cases p <;> rfl
  | _ => rfl

theorem ZoneState.severe_eq (x : ZoneState) : x.severe = (x == .hot || x == .critical || x == .faulted) := by
  cases x <;> rfl

/-- The highest demand is the maximum of those handed over. -/
theorem highestDemand_eq (s : State) (n : Fin 2) : s.highestDemand n = (s.demands n).max? := by
  rw [State.highestDemand]
  cases s.demands n <;> rfl

/-- Settles O26: each read's owner leaves the state as it is, and its rows are the statement's rows. -/
theorem readsChangeNothing : Obligations.ReadsChangeNothing := by
  unfold Obligations.ReadsChangeNothing
  intro dt tag a n s takes t now left channel group electrode zone wanted slot grant fan replies
  have sixRows : (six : List (Fin 6)) = [0, 1, 2, 3, 4, 5] := rfl
  have entries16 : channelEntry (s.elapse dt) = channel := funext fun k => channelEntry_eq _ k
  have entries8 : electrodeEntry (s.elapse dt) = electrode := funext fun k => by
    rw [electrodeEntry, groupOf_eq]
    rfl
  have entries6 : (fun k => (k, grantEntry (s.elapse dt) k)) = grant := rfl
  have entries2 : fanEntry (s.elapse dt) = fan := funext fun k => by
    rw [fanEntry, FanState.claim_eq, highestDemand_eq]
    simp only [fan, State.lifted, ZoneState.severe_eq]
    rfl
  have units : ∀ {c : Instr} {kind : Byte} {owner : State → State × Answer} {rows most : Nat}
      {summary entries : ReplyBody},
      exec c s = .next (acceptRequest kind tag owner (s.elapse dt)) →
      owner (s.elapse dt) = (s.elapse dt, rowsAnswer a n rows most summary entries) →
      replies c kind rows most summary entries := fun row h => row.trans (owner_answers takes h)
  refine ⟨units rfl ?_, units rfl ?_, units rfl ?_, units rfl ?_, ?_, ?_, ?_, ?_, ?_⟩
  · rw [readChannels, rowsAnswer_eq, entries16]
    rfl
  · rw [readElectrodes, rowsAnswer_eq, entries8]
    rfl
  · rw [readZones, rowsAnswer_eq]
    simp [sumSix, six, Nat.add_assoc]
    rfl
  · rw [readGrants, rowsAnswer_eq, entries6]
    rfl
  · refine owner_answers (owner := readFans) takes ?_
    rw [readFans, entries2]
    rfl
  · intro p hp
    refine owner_answers (owner := readSet n) takes ?_
    have other : n ≠ 4 := by
      rintro rfl
      simp [setOfNumber] at hp
    rw [readSet, if_neg other, hp]
    rfl
  · exact owner_answers (owner := readSet 4) takes rfl
  · exact owner_answers (owner := readChassis) takes rfl
  · intro big
    refine owner_answers (owner := readSet n) takes ?_
    have none : setOfNumber n = none := by
      match n, big with
      | n + 5, _ => rfl
    rw [readSet, if_neg (by omega), none]
    rfl

/-! ## Evidence reports (R45, R51, R65) -/

/-- How many electrodes a report of classes shows with a class that an excluded electrode cannot show. -/
theorem countTouch_report {c : Csu} {shown : Fin 8 → TouchClass} {p : TouchClass → Bool} (h : p .noTouch = false)
    (l : List (Fin 8)) :
    countTouch (tabulate fun i => reportedClass (shown i) (c.electrodes.get i).excluded) l p =
      l.countP fun i => (c.electrodes.get i).state != .off && (c.electrodes.get i).state != .fault && p (shown i) := by
  have one : ∀ i, p (reportedClass (shown i) (c.electrodes.get i).excluded) =
      ((c.electrodes.get i).state != .off && (c.electrodes.get i).state != .fault && p (shown i)) := fun i => by
    cases hs : (c.electrodes.get i).state <;> simp [reportedClass, Electrode.excluded, hs, h]
  simp [countTouch, get_tabulate, one]

theorem TouchClass.isNear_eq (x : TouchClass) : x.isNear = (x != .noTouch) := by cases x <;> rfl

theorem recount_shown (c : Csu) (shown : Fin 8 → TouchClass) (e : Evidence) :
    e.recount (tabulate fun i => reportedClass (shown i) (c.electrodes.get i).excluded) =
      let kept := fun (i : Fin 8) => (c.electrodes.get i).state != .off && (c.electrodes.get i).state != .fault
      { e with
        baseContact := [0, 1, 2, 3].countP fun i => kept i && shown i == .contact
        baseNear := [0, 1, 2, 3].countP fun i => kept i && shown i != .noTouch
        topNear := [4, 5].countP fun i => kept i && shown i != .noTouch
        edgeNear := [6, 7].countP fun i => kept i && shown i != .noTouch } := by
  rw [Evidence.recount, countTouch_report rfl, countTouch_report rfl, countTouch_report rfl, countTouch_report rfl]
  simp only [TouchClass.isNear_eq]

/-- Settles O28: an excluded electrode stands in a report as NONE, which no count counts. -/
theorem reportsCountConfirmedClasses : Obligations.ReportsCountConfirmedClasses := by
  unfold Obligations.ReportsCountConfirmedClasses
  intro c e kept counts
  refine ⟨recount_shown c _ e, (recount_shown c _ e).trans ?_⟩
  simp only [groupOf_eq, List.contains_eq_mem, decide_eq_true_eq]
  rfl

/-! ## One electrode's raw (R46 to R50) -/

section
variable {e : Electrode} {raw full : Nat}

theorem convert_excluded (h : e.state = .off ∨ e.state = .fault) : e.convert raw full = { e with raw := some raw } := by
  rcases h with h | h <;> simp [Electrode.convert, h]

theorem convert_saturating (h : e.state = .learning ∨ e.state = .tracking) (sat : raw = full) :
    e.convert raw full = ({ e with raw := some raw } : Electrode).saturate := by
  rcases h with h | h <;> simp [Electrode.convert, h, sat]

theorem convert_learning (h : e.state = .learning) (below : raw ≠ full) :
    e.convert raw full = ({ e with raw := some raw, satCount := 0 } : Electrode).learn raw := by
  simp [Electrode.convert, h, below]

theorem convert_tracking (h : e.state = .tracking) (below : raw ≠ full) :
    e.convert raw full = ({ e with raw := some raw, satCount := 0 } : Electrode).follow raw := by
  simp [Electrode.convert, h, below]

end

/-- The table of R48, in the statement's words. -/
theorem observe_eq (near contact hyst : Nat) (k : TouchClass) (delta : Int) :
    observe near contact hyst k delta =
      (let contactAt : Int := match k with
        | .contact => (contact : Int) - hyst
        | _ => contact
       let nearAt : Int := match k with
        | .noTouch => near
        | _ => (near : Int) - hyst
       if contactAt ≤ delta then .contact else if nearAt ≤ delta then .near else .noTouch) := by
  cases k <;> simp [observe]

theorem ClassTrack.weigh_same {o : TouchClass} {t : ClassTrack} (h : o = t.confirmed) :
    t.weigh o = { t with pending := none, count := 0 } := by rw [ClassTrack.weigh, if_pos h]

theorem ClassTrack.weigh_again {o : TouchClass} {t : ClassTrack} (h : o ≠ t.confirmed) (again : t.pending = some o) :
    t.weigh o = if t.count = 2 then { confirmed := o, pending := none, count := 0 } else { t with count := t.count + 1 } := by
  rw [ClassTrack.weigh, if_neg h, if_pos again]

theorem ClassTrack.weigh_first {o : TouchClass} {t : ClassTrack} (h : o ≠ t.confirmed) (first : t.pending ≠ some o) :
    t.weigh o = { t with pending := some o, count := 1 } := by rw [ClassTrack.weigh, if_neg h, if_neg first]

/-- Settles O30, state by state. -/
theorem electrodeRawActsByState : Obligations.ElectrodeRawActsByState := by
  unfold Obligations.ElectrodeRawActsByState
  intro e raw full r
  refine ⟨convert_excluded, fun active sat => ⟨fun fresh => ?_, fun third => ?_⟩,
    fun learning below => ⟨fun more => ?_, fun eighth => ?_⟩,
    fun base tracking below based => ?_⟩
  · rw [convert_saturating active sat]
    exact if_neg fresh
  · rw [convert_saturating active sat]
    exact if_pos third
  · rw [convert_learning learning below]
    exact if_neg more
  · rw [convert_learning learning below]
    exact if_pos eighth
  · intro delta contactAt nearAt observed n
    have seen : observe e.near e.contact e.hyst e.confirmed delta = observed := observe_eq ..
    have new : n = ({ e with raw := some raw, satCount := 0 } : Electrode).follow raw := convert_tracking tracking below
    have follows : n = { e with
        raw := some raw, satCount := 0, delta := some delta, confirmed := (e.track.weigh observed).confirmed
        pending := (e.track.weigh observed).pending, confirmCount := (e.track.weigh observed).count
        baseline := some (drifted e.near raw base (e.track.weigh observed).confirmed delta) } := by
      rw [new, ← seen, Electrode.follow]
      simp only [based, Option.getD_some]
      rfl
    refine ⟨by rw [follows], by rw [follows], by rw [follows, tracking], by rw [follows], fun same => ?_,
      fun differs again => ?_, fun differs first => ?_, ?_⟩
    · rw [follows, ClassTrack.weigh_same same]
      exact ⟨rfl, rfl, rfl⟩
    · rw [follows, ClassTrack.weigh_again differs again]
      by_cases third : e.confirmCount = 2 <;> simp [third, Electrode.track]
    · rw [follows, ClassTrack.weigh_first differs first]
      exact ⟨rfl, rfl, rfl⟩
    · rw [follows]
      rfl

end Sys2Proof.Machine

/-! PROOFS. The contact scan on the shared front end: triggers, the ends of its conversions, and what its completion leaves
(chapter 3, R31 to R34). -/

namespace Sys2Proof.Machine

/-! ## What a scan measures next (R43, R44) -/

/-- The first of a table's rows that satisfies a test. -/
theorem find?_first {n : Nat} {p : Fin n → Bool} {j : Fin n} (hj : p j = true) (least : ∀ k, k < j → p k = false)
    {l : List (Fin n)} (mem : j ∈ l) (sorted : l.Pairwise (· < ·)) : l.find? p = some j := by
  induction l with
  | nil => simp at mem
  | cons a l ih =>
    obtain ⟨below, sorted⟩ := List.pairwise_cons.mp sorted
    rcases List.mem_cons.mp mem with rfl | mem
    · rw [List.find?_cons_of_pos hj]
    · rw [List.find?_cons_of_neg (by simp [least a (below j mem)]), ih mem sorted]

theorem mem_eight (i : Fin 8) : i ∈ eight := by
  revert i
  decide

theorem mem_three (g : Fin 3) : g ∈ three := by
  revert g
  decide

section
variable {c : Csu} {start : Nat}

/-- A sequential scan goes on with the next enabled electrode. -/
theorem nextTarget_electrode {j : Fin 8} (le : start ≤ j.val) (on : (c.electrodes.get j).enabled = true)
    (least : ∀ k : Fin 8, start ≤ k.val → k < j → (c.electrodes.get k).enabled = false) :
    c.nextTarget false start = some (j.val, .electrode j) := by
  have first : (eight.find? fun i => start ≤ i.val && (c.electrodes.get i).enabled) = some j := by
    refine find?_first (by simp [le, on]) (fun k lt => ?_) (mem_eight j) (by decide)
    by_cases h : start ≤ k.val
    · simp [least k h lt]
    · simp [h]
  simp [Csu.nextTarget, first]

/-- A grouped scan goes on with the next group that has a member. -/
theorem nextTarget_group {g : Fin 3} (le : start ≤ g.val) (held : (c.groups.get g).members ≠ [])
    (least : ∀ k : Fin 3, start ≤ k.val → k < g → (c.groups.get k).members = []) :
    c.nextTarget true start = some (g.val, .group g) := by
  have first : (three.find? fun i => start ≤ i.val && !(c.groups.get i).members.isEmpty) = some g := by
    refine find?_first (by simp [le, held]) (fun k lt => ?_) (mem_three g) (by decide)
    by_cases h : start ≤ k.val
    · simp [least k h lt]
    · simp [h]
  simp [Csu.nextTarget, first]

theorem nextTarget_electrode_isSome : (c.nextTarget false start).isSome = true ↔
    ∃ k : Fin 8, start ≤ k.val ∧ (c.electrodes.get k).enabled = true := by
  simp [Csu.nextTarget, List.find?_isSome, mem_eight]

theorem nextTarget_group_isSome : (c.nextTarget true start).isSome = true ↔
    ∃ k : Fin 3, start ≤ k.val ∧ (c.groups.get k).members ≠ [] := by
  simp [Csu.nextTarget, List.find?_isSome, mem_three]

end

/-! ## What a completion of a contact scan changes -/

/-- An evaluation changes candidate and dwell only, and looks at neither unit of the scans. -/
theorem evaluateCandidate_touches (s : State) : ∃ p d, ∀ (c : Csu) (m : Msu),
    evaluateCandidate { s with csu := c, msu := m } =
      { s with csu := c, msu := m, plu := { s.plu with candidate := p, dwell := d } } := by
  cases h : s.plu.evidence.result s.plu.candidate with
  | none => exact ⟨s.plu.candidate, s.plu.dwell, fun c m => by simp [evaluateCandidate, h]⟩
  | some p =>
    by_cases same : s.plu.candidate = some p
    · exact ⟨s.plu.candidate, s.plu.dwell, fun c m => evaluateCandidate_of_eq h same⟩
    · exact ⟨some p, if s.plu.placement = .settled p then .idle else .running (s.now + ms (s.entryDwell p)),
        fun c m => by simp only [evaluateCandidate, h, same, if_false]; rfl⟩

theorem contactActed_msu (grouped : Bool) (measured : List (Fin 3)) (s : State) (m : Msu) :
    State.contactActed grouped measured { s with msu := m } = { s.contactActed grouped measured with msu := m } := by
  have report : ∀ r : Vector TouchClass 8,
      evaluateCandidate { s with msu := m, plu := { s.plu with evidence := s.plu.evidence.recount r } } =
        { evaluateCandidate { s with plu := { s.plu with evidence := s.plu.evidence.recount r } } with msu := m } := fun r => by
    obtain ⟨p, d, h⟩ := evaluateCandidate_touches { s with plu := { s.plu with evidence := s.plu.evidence.recount r } }
    have own := h s.csu s.msu
    have other := h s.csu m
    exact other.trans (by rw [show evaluateCandidate _ = _ from own])
  unfold State.contactActed
  cases grouped with
  | false => exact report _
  | true =>
    simp only [Bool.true_eq_false, if_false]
    cases s.csu.learning with
    | idle => exact report _
    | learning origin count => by_cases n : count = 7 <;> cases origin <;> simp [n, State.post]

theorem rebaseGoesOn_msu (s : State) (m : Msu) :
    State.rebaseGoesOn { s with msu := m } = { s.rebaseGoesOn with msu := m } := by
  unfold State.rebaseGoesOn State.beginsGroups
  dsimp only
  split_ifs <;> rfl

/-- A completion of a contact scan neither looks at the Measurement Unit nor changes it. -/
theorem contactCompleted_msu (grouped : Bool) (measured : List (Fin 3)) (s : State) (m : Msu) :
    State.contactCompleted grouped measured { s with msu := m } = { s.contactCompleted grouped measured with msu := m } := by
  rw [State.contactCompleted, contactActed_msu, rebaseGoesOn_msu, State.contactCompleted]

theorem contactCompleted_now (grouped : Bool) (measured : List (Fin 3)) (s : State) :
    (s.contactCompleted grouped measured).now = s.now := by
  have acted : (s.contactActed grouped measured).now = s.now := by
    have report : ∀ r : Vector TouchClass 8,
        (evaluateCandidate { s with plu := { s.plu with evidence := s.plu.evidence.recount r } }).now = s.now := fun r => by
      obtain ⟨p, d, h⟩ := evaluateCandidate_touches { s with plu := { s.plu with evidence := s.plu.evidence.recount r } }
      rw [h s.csu s.msu]
    unfold State.contactActed
    cases grouped with
    | false => exact report _
    | true =>
      simp only [Bool.true_eq_false, if_false]
      cases s.csu.learning with
      | idle => exact report _
      | learning origin count => by_cases n : count = 7 <;> cases origin <;> simp [n, State.post]
  unfold State.contactCompleted State.rebaseGoesOn State.beginsGroups
  dsimp only
  split_ifs <;> exact acted

/-! ## The front end handed on (R32 to R34, R44) -/

section
variable {s : State}

theorem freeFrontEnd_free (h : s.msu.pendingMeas = false) :
    freeFrontEnd s = { s with msu := { s.msu with frontEnd := .free } } := by
  rw [freeFrontEnd, h]
  rfl

theorem freeFrontEnd_measures {m : MeasScan} {skipped l : List (Fin 16)} {c : Fin 16} (h : s.msu.pendingMeas = true)
    (scan : s.msu.scan = some m) (todo : m.todo = skipped ++ c :: l)
    (off : ∀ x ∈ skipped, (s.msu.channels.get x).enabled = false) (on : (s.msu.channels.get c).enabled = true) :
    freeFrontEnd s = { s with msu := s.msu.measures s.now c l } := by
  rw [freeFrontEnd, if_pos h, beginMeasurement_measures s m skipped c l scan todo off on]

/-- A contact scan ends: its completion acts, and the front end is handed on as its records say. -/
theorem endContact_eq (grouped : Bool) (measured : List (Fin 3)) (s : State) : endContact grouped measured s =
    freeFrontEnd { State.contactCompleted grouped measured { s with csu := { s.csu with scan := none } } with
      msu := { s.msu with claim := .unclaimed } } := by
  have h := contactCompleted_msu grouped measured { s with csu := { s.csu with scan := none } }
    { s.msu with claim := .unclaimed }
  rw [endContact, completeContact_contactCompleted]
  exact congrArg freeFrontEnd h

theorem endContact_frees (grouped : Bool) (measured : List (Fin 3)) (h : s.msu.pendingMeas = false) :
    endContact grouped measured s =
      { State.contactCompleted grouped measured { s with csu := { s.csu with scan := none } } with
        msu := { s.msu with frontEnd := .free, claim := .unclaimed } } := by
  exact (endContact_eq ..).trans (freeFrontEnd_free (by exact h))

theorem endContact_measures (grouped : Bool) (measured : List (Fin 3)) {m : MeasScan} {skipped l : List (Fin 16)}
    {c : Fin 16} (h : s.msu.pendingMeas = true) (scan : s.msu.scan = some m) (todo : m.todo = skipped ++ c :: l)
    (off : ∀ x ∈ skipped, (s.msu.channels.get x).enabled = false) (on : (s.msu.channels.get c).enabled = true) :
    endContact grouped measured s =
      { State.contactCompleted grouped measured { s with csu := { s.csu with scan := none } } with
        msu := ({ s.msu with claim := .unclaimed } : Msu).measures s.now c l } := by
  have freed := freeFrontEnd_measures (s := { State.contactCompleted grouped measured
      { s with csu := { s.csu with scan := none } } with msu := { s.msu with claim := .unclaimed } }) h scan todo off on
  refine (endContact_eq ..).trans (freed.trans ?_)
  simp only [contactCompleted_now]

variable {sc : ContactScan}

/-- The claimed front end goes to the scan's next conversion. -/
theorem continueContact_next {i : Nat} {target : ContactTarget} (scan : s.csu.scan = some sc)
    (next : s.csu.nextTarget sc.grouped sc.next = some (i, target)) :
    continueContact s = { s with
      csu := { s.csu with scan := some { sc with
        next := i + 1
        current := some { target := target, doneAt := s.now + 250 * 2 ^ (s.csu.resolution - 9), discard := false } } }
      msu := { s.msu with frontEnd := .sensing, claim := .running } } := by
  simp only [continueContact, scan, next]
  rfl

theorem continueContact_ends (scan : s.csu.scan = some sc) (next : s.csu.nextTarget sc.grouped sc.next = none) :
    continueContact s = endContact sc.grouped sc.measured s := by
  simp only [continueContact, scan, next]

theorem afterContactConversion_idle (scan : s.csu.scan = some sc) (h : s.msu.pendingMeas = false) :
    afterContactConversion s = continueContact s := by
  simp [afterContactConversion, scan, h]

theorem afterContactConversion_left (scan : s.csu.scan = some sc) (h : s.msu.pendingMeas = true)
    (left : (s.csu.nextTarget sc.grouped sc.next).isSome = true) :
    afterContactConversion s = beginMeasurement (s.setClaim .paused) := by
  simp [afterContactConversion, scan, h, left]

theorem afterContactConversion_done (scan : s.csu.scan = some sc)
    (left : s.csu.nextTarget sc.grouped sc.next = none) :
    afterContactConversion s = endContact sc.grouped sc.measured s := by
  simp [afterContactConversion, scan, left, continueContact]

/-- A scan in progress, or none on the front end, is not spent. -/
theorem finishScan_of_elsewhere (h : s.msu.frontEnd ≠ .measuring) : finishScan s = s := by
  simp [finishScan, State.scanSpent, h]

theorem finishScan_of_converting {m : MeasScan} {v : ChannelConversion} (scan : s.msu.scan = some m)
    (current : m.current = some v) : finishScan s = s := by
  simp [finishScan, State.scanSpent, scan, current]

theorem finishScan_measures (m : Msu) (now : Nat) (c : Fin 16) (l : List (Fin 16)) :
    finishScan { s with msu := m.measures now c l } = { s with msu := m.measures now c l } :=
  finishScan_of_converting rfl rfl

end

/-! ## CONTACT_TIMER_MATCH (R42, R43) -/

theorem contactPeriod_eq (m : Mode) : m.contactPeriod = if m = .dozing then 500 else 50 := by cases m <;> rfl

section
variable {s : State}

theorem contactTrigger_skipped (h : s.msu.claim ≠ .unclaimed) : contactTrigger s = s := if_pos h

theorem contactTrigger_waits (h : s.msu.claim = .unclaimed) (busy : s.msu.frontEnd ≠ .free) :
    contactTrigger s = { s with
      csu := { s.csu with scan := some (.fresh s.scanGrouped) }, msu := { s.msu with claim := .waiting } } :=
  (if_neg (not_not.mpr h)).trans (if_pos busy)

theorem contactTrigger_completes (h : s.msu.claim = .unclaimed) (free : s.msu.frontEnd = .free)
    (nothing : (s.csu.nextTarget s.scanGrouped 0).isNone = true) :
    contactTrigger s = s.contactCompleted s.scanGrouped [] :=
  (if_neg (not_not.mpr h)).trans <| (if_neg (not_not.mpr free)).trans <| (if_pos nothing).trans <|
    completeContact_contactCompleted ..

/-- A trigger that finds the front end free starts the scan with its first target. -/
theorem contactTrigger_begins {i : Nat} {target : ContactTarget} (h : s.msu.claim = .unclaimed)
    (free : s.msu.frontEnd = .free) (next : s.csu.nextTarget s.scanGrouped 0 = some (i, target)) :
    contactTrigger s = { s with
      csu := { s.csu with scan := some { ContactScan.fresh s.scanGrouped with
        next := i + 1
        current := some { target := target, doneAt := s.now + 250 * 2 ^ (s.csu.resolution - 9), discard := false } } }
      msu := { s.msu with frontEnd := .sensing, claim := .running } } :=
  (if_neg (not_not.mpr h)).trans <| (if_neg (not_not.mpr free)).trans <| (if_neg (by simp [next])).trans <|
    continueContact_next (sc := .fresh s.scanGrouped) rfl next

end

/-- Settles O27. -/
theorem contactTriggerReachesTheArbiter : Obligations.ContactTriggerReachesTheArbiter := by
  unfold Obligations.ContactTriggerReachesTheArbiter
  intro s due period timed grouped begins
  have reloaded : reloadContactTimer due (s.reach due) = timed := by
    rw [reloadContactTimer, State.withCsu, State.reach_mdc, contactPeriod_eq]
    rfl
  have row : ∀ {t}, contactTrigger timed = t → exec .contactTimerMatch s = .next t := fun h =>
    congrArg Host.Outcome.next ((congrArg contactTrigger reloaded).trans h)
  refine ⟨fun claimed => row (contactTrigger_skipped claimed), fun unclaimed measuring => ?_,
    fun i unclaimed single on least free => ?_, fun g unclaimed multi held least free => ?_,
    fun unclaimed free noElectrode noGroup => ?_⟩
  · have busy : timed.msu.frontEnd ≠ .free := fun free => by cases measuring.symm.trans free
    exact row (contactTrigger_waits unclaimed busy)
  · have next : timed.csu.nextTarget grouped 0 = some (i.val, .electrode i) := by
      rw [single]
      exact nextTarget_electrode (Nat.zero_le _) on fun k _ => least k
    exact row (contactTrigger_begins unclaimed free next)
  · have next : timed.csu.nextTarget grouped 0 = some (g.val, .group g) := by
      rw [multi]
      exact nextTarget_group (Nat.zero_le _) held fun k _ => least k
    exact row (contactTrigger_begins unclaimed free next)
  · have nothing : (timed.csu.nextTarget grouped 0).isNone = true := by
      rw [← Option.not_isSome, Bool.not_eq_true', Bool.eq_false_iff]
      cases kind : grouped with
      | false =>
        rw [Ne, nextTarget_electrode_isSome]
        rintro ⟨k, -, on⟩
        exact absurd ((noElectrode kind k).symm.trans on) (by decide)
      | true =>
        rw [Ne, nextTarget_group_isSome]
        rintro ⟨k, -, held⟩
        exact held (noGroup kind k)
    exact row (contactTrigger_completes unclaimed free nothing)

end Sys2Proof.Machine

/-! PROOFS. The hand-overs to zones, fans and Allocator as sequences of a few kinds of step, and what every such step does to
the units of the two scans (R30, R34, R54, R91, R160). -/

namespace Sys2Proof.Machine

/-! ## A contact scan stopped (R34, R54) -/

/-- The front end as a stopped contact scan leaves it: handed to a measurement scan that waits, or free. -/
def Msu.freed (now : Nat) (m : Msu) : Msu :=
  if m.pendingMeas then
    { m with pendingMeas := false, frontEnd := .measuring
             scan := m.scan.map fun c => nextConversion m.channels now c.todo }
  else { m with frontEnd := .free }

/-- The Measurement Unit as a contact scan is stopped. -/
def Msu.stopped (now : Nat) (m : Msu) : Msu :=
  if m.claim = .unclaimed then m
  else if m.frontEnd = .sensing then ({ m with claim := .unclaimed } : Msu).freed now else { m with claim := .unclaimed }

/-- The Contact Sensing Unit as its scan is stopped, the Measurement Unit being as it was. -/
def Csu.stopped (m : Msu) (c : Csu) : Csu := if m.claim = .unclaimed then c else { c with scan := none }

theorem freeFrontEnd_freed (s : State) : freeFrontEnd s = { s with msu := s.msu.freed s.now } := by
  unfold freeFrontEnd Msu.freed
  split <;> rfl

theorem stopContact_eq (s : State) :
    stopContact s = { s with msu := s.msu.stopped s.now, csu := s.csu.stopped s.msu } := by
  unfold stopContact Msu.stopped Csu.stopped
  split
  · rfl
  · dsimp only
    split
    · exact freeFrontEnd_freed _
    · rfl

theorem Msu.stopped_of_unclaimed {m : Msu} (h : m.claim = .unclaimed) (now : Nat) : m.stopped now = m := if_pos h

theorem Csu.stopped_of_unclaimed {m : Msu} (h : m.claim = .unclaimed) (c : Csu) : c.stopped m = c := if_pos h

@[simp] theorem Msu.freed_claim (now : Nat) (m : Msu) : (m.freed now).claim = m.claim := by
  unfold Msu.freed
  split <;> rfl

@[simp] theorem Msu.stopped_claim (now : Nat) (m : Msu) : (m.stopped now).claim = .unclaimed := by
  unfold Msu.stopped
  split
  · assumption
  · split <;> simp

/-- The Contact Sensing Unit as the part leaves DOZING. -/
def Csu.woken (c : Csu) : Csu := c.dropDozeLearning.clearGroupPending

theorem Csu.woken_electrodes (c : Csu) : c.woken.electrodes = c.electrodes := by
  unfold Csu.woken Csu.clearGroupPending Csu.dropDozeLearning
  dsimp only
  split <;> rfl

theorem Csu.woken_scan (c : Csu) : c.woken.scan = c.scan := by
  unfold Csu.woken Csu.clearGroupPending Csu.dropDozeLearning
  dsimp only
  split <;> rfl

/-- The part as it leaves DOZING, before its demands are formed. -/
def State.awake (s : State) : State := wakeContact (stopContact (s.setMode .running))

theorem State.awake_eq (s : State) : s.awake = { s with
    mdc := { s.mdc with mode := .running }, msu := s.msu.stopped s.now, csu := (s.csu.stopped s.msu).woken } := by
  rw [State.awake, stopContact_eq]
  rfl

/-! ## The steps of a hand-over -/

/-- What a hand-over to zones and fans consists of; `W` says which zones it evaluates. -/
inductive HandStep (W : Fin 6 → Prop) : State → State → Prop
  | severity (z : Fin 6) (v : Bool) (s : State) : HandStep W s (handSeverity z v s)
  | derate (n : Fin 2) (v : Bool) (s : State) : HandStep W s (handDerate n v s)
  | fan (n : Fin 2) (t : Nat) (s : State) : HandStep W s (s.withFans (·.set n ((s.fnc.fans.get n).follow t s.now)))
  | fanNotice (n : Fin 2) (f : Fan) (s : State) : HandStep W s (s.post (f.notice n))
  | zoneNotice (z : Fin 6) (s : State) : W z → HandStep W s (postZone z s)
  | demand (z : Fin 6) (d : Vector (Option Nat) 2) (s : State) :
    HandStep W s (s.setZone z { s.znm.zones.get z with demand := d })
  | demands (f : Fin 6 → Vector (Option Nat) 2) (s : State) :
    HandStep W s (s.mapZones fun z r => { r with demand := f z })
  | judged (z : Fin 6) (x : ZoneState) (w : Bool) (s : State) : W z →
    HandStep W s (s.setZone z { s.znm.zones.get z with state := x, woke := w })
  | claim (v : Bool) (s : State) : HandStep W s (s.withZnm fun m => { m with thermalClaim := v })
  | clamp (s : State) : HandStep W s (addCauseTo six .thermal s)
  | unclamp (s : State) : HandStep W s (withdrawCauseFrom six .thermal s)
  | wake (s : State) : s.mdc.mode = .dozing → HandStep W s s.awake

/-- A hand-over: steps in a row. -/
def Hands (W : Fin 6 → Prop) : State → State → Prop := Relation.ReflTransGen (HandStep W)

namespace Hands

variable {W : Fin 6 → Prop} {a s t : State}

theorem refl (s : State) : Hands W s s := Relation.ReflTransGen.refl

theorem tail (h : Hands W a s) (step : HandStep W s t) : Hands W a t := Relation.ReflTransGen.tail h step

/-- What every step keeps, a hand-over keeps. -/
theorem keeps {R : State → State → Prop} (start : ∀ s, R s s) (then_ : ∀ {s t u}, R s t → R t u → R s u)
    (one : ∀ {s t}, HandStep W s t → R s t) (h : Hands W a s) : R a s := by
  induction h with
  | refl => exact start a
  | tail _ step ih => exact then_ ih (one step)

theorem foldl {β : Type} {f : State → β → State} (hf : ∀ s b, Hands W a s → Hands W a (f s b)) (l : List β)
    (h : Hands W a s) : Hands W a (l.foldl f s) := by
  induction l generalizing s with
  | nil => exact h
  | cons b l ih => exact ih (hf s b h)

theorem applyTarget (h : Hands W a s) (n : Fin 2) : Hands W a (Machine.applyTarget n s) := by
  unfold Machine.applyTarget Machine.setFan
  dsimp only
  split
  · have stored := h.tail (.fan n (s.targetOf n) s)
    have told := stored.tail (.fanNotice n ((s.fnc.fans.get n).follow (s.targetOf n) s.now) _)
    split <;> split
    · exact stored
    · exact told
    · exact stored.tail (.derate n _ _)
    · exact told.tail (.derate n _ _)
  · exact h

theorem applyTargets (h : Hands W a s) : Hands W a (Machine.applyTargets s) := foldl (fun _ n h => h.applyTarget n) _ h

theorem handDemand (h : Hands W a s) (z : Fin 6) (n : Fin 2) : Hands W a (Machine.handDemand z n s) := by
  unfold Machine.handDemand
  dsimp only
  split
  · exact h
  · exact (h.tail (.demand z _ s)).applyTarget n

theorem handDemands (h : Hands W a s) (z : Fin 6) : Hands W a (Machine.handDemands z s) :=
  foldl (fun _ n h => h.handDemand z n) _ h

theorem reformDemands (h : Hands W a s) : Hands W a (Machine.reformDemands s) :=
  (h.tail (.demands s.demandsOf s)).applyTargets

theorem wakeUp (h : Hands W a s) (dozing : s.mdc.mode = .dozing) : Hands W a (Machine.wakeUp s) :=
  (h.tail (.wake s dozing)).reformDemands

theorem updateThermalClaim (h : Hands W a s) : Hands W a (Machine.updateThermalClaim s) := by
  unfold Machine.updateThermalClaim
  split
  · exact h
  · split
    · exact (h.tail (.claim true s)).tail (.clamp _)
    · exact (h.tail (.claim false s)).tail (.unclamp _)

theorem handSevere (h : Hands W a s) (z : Fin 6) (old : ZoneState) : Hands W a (Machine.handSevere z old s) := by
  unfold Machine.handSevere
  dsimp only
  split
  · exact h.updateThermalClaim
  · refine foldl (fun u n h => ?_) _ (Hands.updateThermalClaim (h.tail (.severity z _ s)))
    split
    · exact h.applyTarget n
    · exact h

theorem zoneChanged (h : Hands W a s) {z : Fin 6} (hz : W z) (old : ZoneState) {wakes : Bool}
    (dozing : wakes = true → s.mdc.mode = .dozing) : Hands W a (Machine.zoneChanged z old wakes s) := by
  unfold Machine.zoneChanged
  have told := h.tail (.zoneNotice z s hz)
  split
  · next w => exact (told.wakeUp (dozing w)).handSevere z old
  · exact told.handSevere z old

theorem evaluateZone (h : Hands W a s) {z : Fin 6} (hz : W z) : Hands W a (Machine.evaluateZone z s) := by
  unfold Machine.evaluateZone
  dsimp only
  split
  · exact h
  · split
    · exact h.handDemands z
    · refine Hands.handDemands (Hands.zoneChanged (h.tail (.judged z _ _ s hz)) hz _ fun w => ?_) z
      simp only [Bool.and_eq_true, beq_iff_eq] at w
      exact w.1

end Hands

/-! ## The units of the two scans -/

/-- The part has left DOZING between two states. -/
structure Woken (s t : State) : Prop where
  dozing : s.mdc.mode = .dozing
  mdc : t.mdc = { s.mdc with mode := .running }
  msu : t.msu = s.msu.stopped s.now
  csu : t.csu = (s.csu.stopped s.msu).woken

/-- The units of the two scans stay as they are, unless the part leaves DOZING. -/
structure Units (s t : State) : Prop where
  now : t.now = s.now
  units : (t.mdc = s.mdc ∧ t.msu = s.msu ∧ t.csu = s.csu) ∨ Woken s t

namespace Units

variable {s t u : State}

theorem same (now : t.now = s.now) (mdc : t.mdc = s.mdc) (msu : t.msu = s.msu) (csu : t.csu = s.csu) : Units s t :=
  ⟨now, .inl ⟨mdc, msu, csu⟩⟩

theorem refl (s : State) : Units s s := same rfl rfl rfl rfl

theorem trans (h : Units s t) (k : Units t u) : Units s u := by
  refine ⟨k.now.trans h.now, ?_⟩
  rcases h.units with ⟨mdc, msu, csu⟩ | w <;> rcases k.units with ⟨mdc', msu', csu'⟩ | w'
  · exact .inl ⟨mdc'.trans mdc, msu'.trans msu, csu'.trans csu⟩
  · refine .inr ⟨mdc ▸ w'.dozing, mdc ▸ w'.mdc, ?_, ?_⟩
    · rw [w'.msu, msu, h.now]
    · rw [w'.csu, csu, msu]
  · exact .inr ⟨w.dozing, mdc'.trans w.mdc, msu'.trans w.msu, csu'.trans w.csu⟩
  · have dozing := w'.dozing
    rw [w.mdc] at dozing
    cases dozing

theorem ofGrants (h : Grants s t) : Units s t := by
  have e := h.only
  apply same <;> rw [e]

theorem withBudget (s : State) (f : Budget → Budget) : Units s (s.withBudget f) := same rfl rfl rfl rfl

theorem withSrm (s : State) (f : Srm → Srm) : Units s (s.withSrm f) := same rfl rfl rfl rfl

theorem ofStep {W : Fin 6 → Prop} (h : HandStep W s t) : Units s t := by
  cases h with
  | wake s dozing => exact ⟨by rw [State.awake_eq], .inr ⟨dozing, by rw [State.awake_eq], by rw [State.awake_eq],
      by rw [State.awake_eq]⟩⟩
  | severity z v s =>
    exact (withBudget s _).trans (ofGrants ((Grants.refl _).recompute _))
  | derate n v s =>
    exact (withBudget s _).trans (ofGrants ((Grants.refl _).recompute _))
  | clamp s => exact ofGrants ((Grants.refl _).addCauseTo _ _)
  | unclamp s => exact ofGrants ((Grants.refl _).withdrawCauseFrom _ _)
  | _ => exact same rfl rfl rfl rfl

theorem ofHands {W : Fin 6 → Prop} (h : Hands W s t) : Units s t := h.keeps refl trans ofStep

theorem evaluateZone (z : Fin 6) (s : State) : Units s (Machine.evaluateZone z s) :=
  ofHands ((Hands.refl (W := fun _ => True) s).evaluateZone trivial)

theorem takeNewSet (c : RoundCause) (s : State) : Units s (Machine.takeNewSet c s) := by
  unfold Machine.takeNewSet
  exact (withBudget s _).trans (ofGrants ((Grants.refl _).recomputeCeilings c))

theorem updateSeverity (s : State) : Units s (Machine.updateSeverity s) := by
  unfold Machine.updateSeverity
  dsimp only
  split
  · exact refl s
  · refine (withSrm s fun r => { r with severity := s.srm.severe s.managed }).trans ?_
    split
    · exact ofGrants ((Grants.refl _).addCauseTo _ _)
    · exact ofGrants ((Grants.refl _).withdrawCauseFrom _ _)

theorem handSource (s : State) : Units s (Machine.handSource s) := by
  unfold Machine.handSource
  dsimp only
  have inputs := withBudget s (·.takeSource s.srm)
  split
  · exact refl s
  · split
    · exact inputs.trans (ofGrants ((Grants.refl _).recompute _))
    · exact inputs.trans (ofGrants ((Grants.refl _).recomputeCeilings _))

theorem post (n : Notice) (s : State) : Units s (s.post n) := same rfl rfl rfl rfl

theorem sourceChanged (s : State) : Units s (Machine.sourceChanged s) := by
  have formed : Units s (formLimit s) := withSrm s _
  have told : ∀ t, Units t (postSource t) := fun t => post _ t
  exact ((formed.trans (updateSeverity _)).trans (told _)).trans (handSource _)

theorem sourceCompletion (c : Completion) (s : State) : Units s (Machine.sourceCompletion c s) := by
  unfold Machine.sourceCompletion
  dsimp only
  split
  · exact refl s
  · exact (withSrm s _).trans (sourceChanged _)

theorem updateBurst (c : Completion) (dtMs : Nat) (s : State) : Units s (Machine.updateBurst c dtMs s) := by
  unfold Machine.updateBurst
  dsimp only
  split
  · exact withBudget s _
  · exact (withBudget s _).trans (ofGrants ((Grants.refl _).recompute _))

theorem allocatorCompletion (c : Completion) (dtMs : Nat) (s : State) :
    Units s (Machine.allocatorCompletion c dtMs s) := by
  have measured : Units s (measureDomains c s) := same rfl rfl rfl rfl
  have checked : Grants (measureDomains c s) (closeIfDone (six.foldl (fun t i => checkDomain c.timeMs i t) (measureDomains c s))) :=
    (Grants.foldl (fun _ i h => h.checkDomain c.timeMs i) _ (Grants.refl _)).closeIfDone
  exact (measured.trans (ofGrants checked)).trans (updateBurst c dtMs _)

theorem completionConsumer (c : Completion) (dtMs n : Nat) (s : State) :
    Units s (Machine.completionConsumer c dtMs n s) := by
  unfold Machine.completionConsumer
  split
  · exact sourceCompletion c s
  · exact allocatorCompletion c dtMs s
  · split
    · exact evaluateZone _ s
    · exact refl s

theorem setConsumer (cause : RoundCause) (n : Nat) (s : State) : Units s (Machine.setConsumer cause n s) := by
  unfold Machine.setConsumer
  split
  · exact takeNewSet cause s
  · split
    · exact evaluateZone _ s
    · exact ofHands (Hands.refl (W := fun _ => True) s).applyTargets

theorem inFreeOrder {n : Nat} {agent : Nat → State → State} (h : ∀ k s, Units s (agent k s)) (s : State) :
    Units s (Machine.inFreeOrder n agent s) :=
  inFreeOrder_keeps (P := Units s) (same rfl rfl rfl rfl) fun k t _ ih => ih.trans (h k t)

theorem handSet (cause : RoundCause) (s : State) : Units s (Machine.handSet cause s) := by
  unfold Machine.handSet
  split
  · exact inFreeOrder (setConsumer cause) s
  · exact refl s

theorem judgeGuard (c : Completion) (s : State) :
    (Machine.judgeGuard c s).now = s.now ∧ (Machine.judgeGuard c s).msu = s.msu ∧ (Machine.judgeGuard c s).csu = s.csu := by
  have added := fun v => (Grants.refl (s.setGuard v)).addCauseTo six .guard
  have taken := fun v => (Grants.refl (s.setGuard v)).withdrawCauseFrom six .guard
  unfold Machine.judgeGuard
  split
  · exact ⟨rfl, rfl, rfl⟩
  · dsimp only
    split
    · split
      · rw [(taken false).only]
        exact ⟨rfl, rfl, rfl⟩
      · exact ⟨rfl, rfl, rfl⟩
    · split
      · rw [(added true).only]
        exact ⟨rfl, rfl, rfl⟩
      · exact ⟨rfl, rfl, rfl⟩

end Units

/-! ## The completion of a measurement scan -/

/-- The consumers of a completion leave the units of the scans, unless the part leaves DOZING. -/
theorem consume_units (c : Completion) (dtMs : Nat) (s : State) :
    (consume c dtMs s).now = s.now ∧
      (((consume c dtMs s).msu = s.msu ∧ (consume c dtMs s).csu = s.csu) ∨
        (consume c dtMs s).msu = s.msu.stopped s.now ∧ (consume c dtMs s).csu = (s.csu.stopped s.msu).woken) := by
  have handed : ∀ t, Units s t → t.now = s.now ∧
      ((t.msu = s.msu ∧ t.csu = s.csu) ∨ t.msu = s.msu.stopped s.now ∧ t.csu = (s.csu.stopped s.msu).woken) := fun t h =>
    ⟨h.now, h.units.imp (fun w => w.2) fun w => ⟨w.msu, w.csu⟩⟩
  unfold consume
  split
  · exact handed s (Units.refl s)
  · obtain ⟨now, msu, csu⟩ := Units.judgeGuard c s
    exact ⟨now, .inl ⟨msu, csu⟩⟩
  · exact handed _ (Units.inFreeOrder (Units.completionConsumer c dtMs) s)

/-- With the claim dropped no consumer touches the Measurement Unit. -/
theorem consume_msu {c : Completion} {dtMs : Nat} {s : State} (claim : s.msu.claim = .unclaimed) :
    (consume c dtMs s).msu = s.msu := by
  obtain ⟨-, ⟨msu, -⟩ | ⟨msu, -⟩⟩ := consume_units c dtMs s
  · exact msu
  · rw [msu, Msu.stopped_of_unclaimed claim]

/-- A completion with the claim dropped: the scan is gone, and the completion is the last one. -/
theorem completeMeasurement_msu {s : State} (claim : s.msu.claim = .unclaimed) :
    (completeMeasurement s).msu = { s.msu with scan := none, last := s.completionNow } :=
  consume_msu claim

/-- The front end is free after a completion that finds the claim dropped. -/
theorem handOnFrontEnd_unclaimed {s : State} (claim : s.msu.claim = .unclaimed) :
    handOnFrontEnd s = { s with msu := { s.msu with frontEnd := .free } } := by
  simp [handOnFrontEnd, claim, State.withMsu]

end Sys2Proof.Machine

/-! PROOFS. The sequence timer, the ends of contact conversions, and the electrode requests (sections 2.5, 3.3 to 3.8). -/

namespace Sys2Proof.Machine

/-! ## SEQUENCE_TIMER_MATCH (R26 to R29) -/

theorem scanPeriod_eq (m : Mode) : m.scanPeriod = if m = .dozing then 1000 else 100 := by cases m <;> rfl

/-- Channels that have left the list lose history and last raw. -/
theorem dropLeft_eq (s : State) : dropLeft s = { s with msu := { s.msu with
    prevCopy := s.msu.scanList
    channels := tabulate fun n => if n ∈ s.msu.prevCopy ∧ n ∉ s.msu.scanList then
      { s.msu.channels.get n with history := [], lastRaw := none } else s.msu.channels.get n } } := by
  simp only [dropLeft, State.withMsu, List.contains_eq_mem, Bool.and_eq_true, decide_eq_true_eq, Bool.not_eq_true',
    decide_eq_false_iff_not]

/-- The scan that a trigger makes, waiting for the front end. -/
def State.triggered (s : State) : State :=
  { s with msu := { s.msu with scan := some { todo := s.msu.scanList, current := none }, pendingMeas := true } }

section
variable {s t : State} (dropped : dropLeft s = t) (list : t.msu.scanList ≠ [])
include dropped list

theorem takeTrigger_waits (busy : t.msu.frontEnd ≠ .free) : takeTrigger s = t.triggered := by
  subst dropped
  exact (if_neg list).trans (if_neg busy)

theorem takeTrigger_begins (free : t.msu.frontEnd = .free) : takeTrigger s = finishScan (beginMeasurement t.triggered) := by
  subst dropped
  exact (if_neg list).trans (if_pos free)

end

/-- A scan that is spent as it begins: it completes, and no contact scan waits for the front end. -/
theorem finishScan_begin_disabled {s : State} {l : List (Fin 16)} (scan : s.msu.scan = some { todo := l, current := none })
    (off : ∀ x ∈ l, (s.msu.channels.get x).enabled = false) (claim : s.msu.claim = .unclaimed) :
    (finishScan (beginMeasurement s)).msu =
      { s.msu with scan := none, pendingMeas := false, frontEnd := .free, last := s.completionNow } := by
  have begun : beginMeasurement s = { s with msu := { s.msu with
      pendingMeas := false, frontEnd := .measuring, scan := some { todo := [], current := none } } } := by
    simp [beginMeasurement, advanceScan, State.withMsu, scan, nextConversion_of_disabled _ s.now _ off]
  have spent : (beginMeasurement s).scanSpent = true := by rw [begun]; rfl
  have unclaimed : (beginMeasurement s).msu.claim = .unclaimed := by rw [begun]; exact claim
  have done := completeMeasurement_msu unclaimed
  rw [finishScan, if_pos spent, handOnFrontEnd_unclaimed (by rw [done]; exact unclaimed), done, begun]
  rfl

/-- Settles O25. -/
theorem sequenceMatchStartsAScan : Obligations.SequenceMatchStartsAScan := by
  unfold Obligations.SequenceMatchStartsAScan
  intro s due period channels copied
  have reloaded : reloadSequenceTimer due (s.reach due) =
      { s.reach due with msu := { s.msu with seqStart := due, seqPeriod := period } } := by
    rw [reloadSequenceTimer, State.withMsu, State.reach_mdc, scanPeriod_eq]
    rfl
  have dropped : dropLeft { s.reach due with msu := { s.msu with seqStart := due, seqPeriod := period } } =
      { s.reach due with msu := copied } := dropLeft_eq _
  have enabled : ∀ n, (channels.get n).enabled = (s.msu.channels.get n).enabled := fun n => by
    simp only [channels, get_tabulate]
    split <;> rfl
  have idle : s.msu.scan = none → exec .sequenceTimerMatch s =
      .next (takeTrigger { s.reach due with msu := { s.msu with seqStart := due, seqPeriod := period } })   := fun unscanned => by
    show Host.Outcome.next (if (reloadSequenceTimer due (s.reach due)).msu.scan.isSome then _ else _) = _
    rw [reloaded, if_neg (by simp [unscanned])]
  refine ⟨fun busy => ?_, fun skipped c l unscanned list off on free => ?_, fun unscanned list sensing => ?_, fun unscanned off => ?_⟩
  · show Host.Outcome.next (if (reloadSequenceTimer due (s.reach due)).msu.scan.isSome then _ else _) = _
    rw [reloaded, if_pos busy]
  · have ne : s.msu.scanList ≠ [] := fun e => by simp [e] at list
    have begun := beginMeasurement_measures ({ s.reach due with msu := copied } : State).triggered
      { todo := s.msu.scanList, current := none } skipped c l rfl list (fun x hx => (enabled x).trans (off x hx))
      ((enabled c).trans on)
    rw [idle unscanned, takeTrigger_begins dropped ne free, begun]
    exact congrArg Host.Outcome.next (finishScan_measures _ _ c l)
  · rw [idle unscanned, takeTrigger_waits dropped list (fun free => by cases sensing.symm.trans free)]
    rfl
  · have gone : copied = { copied with scan := none } := by simp only [copied, unscanned]
    refine ⟨fun empty => ?_, fun list free claim => ⟨_, idle unscanned, ?_⟩⟩
    · have taken : takeTrigger { s.reach due with msu := { s.msu with seqStart := due, seqPeriod := period } } =
          completeMeasurement { s.reach due with msu := copied } := by
        unfold takeTrigger
        rw [dropped]
        exact if_pos empty
      rw [idle unscanned, taken, gone]
      rfl
    · have off' : ∀ x ∈ s.msu.scanList, (channels.get x).enabled = false := fun x hx => (enabled x).trans (off x hx)
      have done := finishScan_begin_disabled (s := ({ s.reach due with msu := copied } : State).triggered) rfl off' claim
      rw [takeTrigger_begins dropped list free, done]
      simp only [State.triggered, copied, free]
      rfl

end Sys2Proof.Machine

/-! PROOFS. The end of an electrode's conversion and the completion of a sequential scan (sections 3.4 to 3.8). -/

namespace Sys2Proof.Machine

/-! ## What a sequential completion leaves -/

theorem beginsGroups_electrodes (s : State) : s.beginsGroups.csu.electrodes = s.csu.electrodes := by
  unfold State.beginsGroups
  dsimp only
  split <;> rfl

theorem rebaseGoesOn_electrodes (s : State) : s.rebaseGoesOn.csu.electrodes = s.csu.electrodes := by
  unfold State.rebaseGoesOn
  split
  · rfl
  · split
    · rfl
    · exact beginsGroups_electrodes s

theorem beginsGroups_plu (s : State) : s.beginsGroups.plu = s.plu := by
  unfold State.beginsGroups
  dsimp only
  split <;> rfl

theorem rebaseGoesOn_plu (s : State) : s.rebaseGoesOn.plu = s.plu := by
  unfold State.rebaseGoesOn
  split
  · rfl
  · split
    · rfl
    · exact beginsGroups_plu s

/-- An evidence report: the record is counted anew, candidate and dwell follow. -/
theorem evaluateCandidate_report (s : State) (r : Vector TouchClass 8) : ∃ p d,
    evaluateCandidate { s with plu := { s.plu with evidence := s.plu.evidence.recount r } } =
      { s with plu := { s.plu with evidence := s.plu.evidence.recount r, candidate := p, dwell := d } } := by
  obtain ⟨p, d, h⟩ := evaluateCandidate_touches { s with plu := { s.plu with evidence := s.plu.evidence.recount r } }
  exact ⟨p, d, h s.csu s.msu⟩

/-- A sequential completion reports, and then a rebase may go on. -/
theorem contactCompleted_sequential (measured : List (Fin 3)) (s : State) : ∃ p d,
    s.contactCompleted false measured = State.rebaseGoesOn
      { s with plu := { s.plu with evidence := s.plu.evidence.recount s.csu.report, candidate := p, dwell := d } } := by
  obtain ⟨p, d, h⟩ := evaluateCandidate_report s s.csu.report
  exact ⟨p, d, congrArg State.rebaseGoesOn h⟩

theorem contactCompleted_electrodes (measured : List (Fin 3)) (s : State) :
    (s.contactCompleted false measured).csu.electrodes = s.csu.electrodes := by
  obtain ⟨p, d, h⟩ := contactCompleted_sequential measured s
  rw [h, rebaseGoesOn_electrodes]

/-! ## The electrodes through the end of a sequential scan -/

theorem freed_electrodes (s : State) : (freeFrontEnd s).csu = s.csu := by rw [freeFrontEnd_freed]

theorem continueContact_electrodes {s : State} (single : ∀ sc, s.csu.scan = some sc → sc.grouped = false) :
    (continueContact s).csu.electrodes = s.csu.electrodes := by
  unfold continueContact
  split
  · rfl
  · next sc scan =>
    split
    · rw [endContact_eq, freed_electrodes, single sc scan]
      exact contactCompleted_electrodes ..
    · rfl

theorem afterContactConversion_electrodes {s : State} (single : ∀ sc, s.csu.scan = some sc → sc.grouped = false) :
    (afterContactConversion s).csu.electrodes = s.csu.electrodes := by
  unfold afterContactConversion
  split
  · rfl
  · split
    · rfl
    · exact continueContact_electrodes single

/-- The records of the electrodes through a completion, and the kind of the scan that goes on after it. -/
theorem completeMeasurement_csu (s : State) : (completeMeasurement s).csu.electrodes = s.csu.electrodes ∧
    ((completeMeasurement s).csu.scan = s.csu.scan ∨ (completeMeasurement s).csu.scan = none) := by
  obtain ⟨-, ⟨-, csu⟩ | ⟨-, csu⟩⟩ := consume_units s.completionNow (s.completionNow.timeMs - s.msu.last.timeMs)
    (deriveZones s.completionNow (s.withMsu fun m => { m with scan := none, last := s.completionNow }))
  · exact ⟨congrArg Csu.electrodes csu, .inl (congrArg Csu.scan csu)⟩
  · constructor
    · rw [completeMeasurement, csu, Csu.woken_electrodes, Csu.stopped]
      split <;> rfl
    · rw [completeMeasurement, csu, Csu.woken_scan, Csu.stopped]
      split
      · exact .inl rfl
      · exact .inr rfl

theorem handOnFrontEnd_electrodes {s : State} (single : ∀ sc, s.csu.scan = some sc → sc.grouped = false) :
    (handOnFrontEnd s).csu.electrodes = s.csu.electrodes := by
  unfold handOnFrontEnd
  dsimp only
  split
  · exact continueContact_electrodes single
  · rfl

theorem finishScan_electrodes {s : State} (single : ∀ sc, s.csu.scan = some sc → sc.grouped = false) :
    (finishScan s).csu.electrodes = s.csu.electrodes := by
  unfold finishScan
  split
  · obtain ⟨electrodes, scan⟩ := completeMeasurement_csu s
    refine (handOnFrontEnd_electrodes fun sc h => ?_).trans electrodes
    rcases scan with same | gone
    · exact single sc (same ▸ h)
    · rw [gone] at h
      cases h
  · rfl

theorem beginsGroups_scan (s : State) : s.beginsGroups.csu.scan = s.csu.scan := by
  unfold State.beginsGroups
  dsimp only
  split <;> rfl

theorem rebaseGoesOn_scan (s : State) : s.rebaseGoesOn.csu.scan = s.csu.scan := by
  unfold State.rebaseGoesOn
  split
  · rfl
  · split
    · rfl
    · exact beginsGroups_scan s

/-- A sequential scan stays one while it goes on. -/
theorem afterContactConversion_single {s : State} (single : ∀ sc, s.csu.scan = some sc → sc.grouped = false) :
    ∀ sc, (afterContactConversion s).csu.scan = some sc → sc.grouped = false := by
  unfold afterContactConversion
  split
  · exact single
  · split
    · exact single
    · unfold continueContact
      split
      · exact single
      · next sc scan =>
        split
        · intro sc' h
          obtain ⟨p, d, done⟩ := contactCompleted_sequential sc.measured { s with csu := { s.csu with scan := none } }
          rw [endContact_eq, freed_electrodes, single sc scan, done, rebaseGoesOn_scan] at h
          cases h
        · intro sc' h
          cases h
          exact single sc scan

/-! ## The end of an electrode's conversion (R44) -/

/-- Only the faults and the notices take part in a detection. -/
theorem detect_csu (k : FaultKind) (x : Nat) (s : State) (c : Csu) :
    detect k x { s with csu := c } = { detect k x s with csu := c } := by
  unfold detect
  dsimp only
  split <;> rfl

theorem detect_msu (k : FaultKind) (x : Nat) (s : State) : (detect k x s).msu = s.msu := by
  unfold detect
  dsimp only
  split <;> rfl

theorem detect_csu_eq (k : FaultKind) (x : Nat) (s : State) : (detect k x s).csu = s.csu := by
  unfold detect
  dsimp only
  split <;> rfl

theorem detect_now (k : FaultKind) (x : Nat) (s : State) : (detect k x s).now = s.now := by
  unfold detect
  dsimp only
  split <;> rfl

theorem set_get_self {α : Type} {n : Nat} (v : Vector α n) (i : Fin n) : v.set i (v.get i) = v :=
  table_ext fun j => by
    rw [get_set]
    split
    · next e => rw [e]
    · rfl

/-- The state in which a sequential scan goes on after a conversion: the raw has acted, and a passage into FAULT is
detected. -/
def State.sensed (sc : ContactScan) (v : ContactConversion) (i : Fin 8) (raw : Nat) (s : State) : State :=
  let full := 2 ^ s.csu.resolution - 1
  let old := s.csu.electrodes.get i
  let new := if v.discard then old else old.convert (min raw full) full
  let told := if old.state ≠ .fault ∧ new.state = .fault then detect .electrode i (s.reach v.doneAt) else s.reach v.doneAt
  { told with csu := { s.csu with electrodes := s.csu.electrodes.set i new, scan := some { sc with current := none } } }

/-- A detection changes the fault records and the notices. -/
theorem detect_touches (k : FaultKind) (x : Nat) (s : State) :
    ∃ mdc slk, detect k x s = { s with mdc := mdc, slk := slk } := by
  unfold detect
  dsimp only
  split
  · exact ⟨_, _, rfl⟩
  · exact ⟨_, s.slk, rfl⟩

theorem endElectrodeConversion_sensed {sc : ContactScan} {v : ContactConversion} {i : Fin 8} {raw : Nat} {s : State}
    (scan : s.csu.scan = some sc) :
    endElectrodeConversion i raw v (s.reach v.doneAt) = finishScan (afterContactConversion (s.sensed sc v i raw)) := by
  have noted : noteMeasured none (s.reach v.doneAt) =
      { s.reach v.doneAt with csu := { s.csu with scan := some { sc with current := none } } } := by
    simp [noteMeasured, State.withCsu, scan]
  have acted : (if v.discard then noteMeasured none (s.reach v.doneAt)
      else convertElectrode i raw (noteMeasured none (s.reach v.doneAt))) = s.sensed sc v i raw := by
    rw [noted]
    cases dis : v.discard with
    | true => simp [State.sensed, dis, set_get_self]
    | false =>
      unfold State.sensed convertElectrode
      simp only [dis, Bool.false_eq_true, if_false]
      rw [apply_ite (fun t : State => ({ t with csu := { s.csu with
        electrodes := s.csu.electrodes.set i ((s.csu.electrodes.get i).convert (min raw (2 ^ s.csu.resolution - 1))
          (2 ^ s.csu.resolution - 1)), scan := some { sc with current := none } } } : State)), ← detect_csu]
      rfl
  exact congrArg (finishScan ∘ afterContactConversion) acted

theorem exec_electrodeConversionEnd {raw : BitVec 16} {sc : ContactScan} {v : ContactConversion} {i : Fin 8} {s : State}
    (scan : s.csu.scan = some sc) (current : sc.current = some v) (target : v.target = .electrode i) :
    exec (.electrodeConversionEnd raw) s =
      .next (finishScan (afterContactConversion (s.sensed sc v i raw.toNat))) := by
  have sensing : s.sensing = some v := by simp [State.sensing, scan, current]
  show execElectrodeConversionEnd raw s = _
  rw [execElectrodeConversionEnd, sensing]
  simp only [target]
  rw [endElectrodeConversion_sensed scan]

/-- A rebase in its ELECTRODES phase, every enabled electrode having learned, goes on to GROUPS. -/
theorem rebaseGoesOn_of_learned {s : State} (rebase : s.csu.rebase = .electrodes)
    (learned : ∀ i : Fin 8, ¬((s.csu.electrodes.get i).enabled = true ∧ (s.csu.electrodes.get i).state = .learning)) :
    s.rebaseGoesOn = s.beginsGroups := by
  rw [State.rebaseGoesOn, if_neg (not_not.mpr rebase), if_neg (by simpa using learned)]

theorem rebaseGoesOn_of_other {s : State} (h : s.csu.rebase ≠ .electrodes ∨
    ∃ i : Fin 8, (s.csu.electrodes.get i).enabled = true ∧ (s.csu.electrodes.get i).state = .learning) :
    s.rebaseGoesOn = s := by
  unfold State.rebaseGoesOn
  split
  · rfl
  · next r => rw [if_pos (h.resolve_left r)]

theorem mem_membersNow {c : Csu} {i : Fin 8} {g : Fin 3} : i ∈ c.membersNow g ↔
    ((c.electrodes.get i).enabled = true ∧ (c.electrodes.get i).state ≠ .fault) ∧
      g = if i.val < 4 then 0 else if i.val < 6 then 1 else 2 := by
  have pins : (i ∈ (if g = 0 then [0, 1, 2, 3] else if g = 1 then [4, 5] else [6, 7] : List (Fin 8))) ↔
      g = if i.val < 4 then 0 else if i.val < 6 then 1 else 2 := by
    revert i g
    decide
  rw [Csu.membersNow, List.mem_filter, pins]
  simp [and_comm]

theorem beginsGroups_some {s : State} {g : Fin 3} (h : s.csu.membersNow g ≠ []) : s.beginsGroups =
    { s with csu := { s.csu with groups := s.csu.groupsBegun, rebase := .groups, learning := .learning .rebase 0 } } :=
  if_neg fun none => h (none g)

theorem beginsGroups_none {s : State} (h : ∀ g, s.csu.membersNow g = []) : s.beginsGroups =
    State.post (.done .ok)
      { s with csu := { s.csu with groups := s.csu.groupsBegun, rebase := .noRebase, learning := .idle } } := if_pos h

theorem beginsGroups_members (s : State) (g : Fin 3) :
    (s.beginsGroups.csu.groups.get g).members = s.csu.membersNow g := by
  unfold State.beginsGroups
  dsimp only
  split <;> simp

/-- Settles O29: the two branches of the arbiter (a measurement scan waits or none does), each with something left to measure
or nothing. -/
theorem electrodeConversionEndActsAndGoesOn : Obligations.ElectrodeConversionEndActsAndGoesOn := by
  unfold Obligations.ElectrodeConversionEndActsAndGoesOn
  refine ⟨fun raw sc v i s scan single current target => ?_, fun s measured => ?_⟩
  · intro full old new electrodes now told goes ends left
    have row := exec_electrodeConversionEnd (raw := raw) scan current target
    obtain ⟨mdc, slk, told_eq⟩ : ∃ mdc slk, told = { s.reach v.doneAt with mdc := mdc, slk := slk } := by
      simp only [told]
      split
      · exact detect_touches ..
      · exact ⟨s.mdc, s.slk, rfl⟩
    have x_eq : s.sensed sc v i raw.toNat =
        { told with csu := { s.csu with electrodes := electrodes, scan := some { sc with current := none } } } := rfl
    rw [x_eq] at row
    clear_value told
    subst told_eq
    set x : State := { s.reach v.doneAt with
      mdc := mdc, slk := slk
      csu := { s.csu with electrodes := electrodes, scan := some { sc with current := none } } } with hx
    have single_x : ∀ sc', x.csu.scan = some sc' → sc'.grouped = false := fun sc' h => by
      cases h
      exact single
    have next_none : ¬left → x.csu.nextTarget sc.grouped sc.next = none := fun none => by
      rw [← Option.not_isSome_iff_eq_none, single, nextTarget_electrode_isSome]
      exact none
    refine ⟨⟨_, row, ?_⟩, fun idle sensing => ⟨fun j le on least => ?_, fun none => ?_⟩, ?_⟩
    · rw [finishScan_electrodes (afterContactConversion_single single_x), afterContactConversion_electrodes single_x]
    · have next : x.csu.nextTarget sc.grouped sc.next = some (j.val, .electrode j) := by
        rw [single]
        exact nextTarget_electrode le on least
      have goesOn := (afterContactConversion_idle (s := x) rfl idle).trans (continueContact_next rfl next)
      rw [row, goesOn, finishScan_of_elsewhere (fun e => by cases e)]
      simp only [goes, ← sensing]
      rfl
    · have ended := (afterContactConversion_done (s := x) rfl (next_none none)).trans
        (endContact_frees sc.grouped sc.measured idle)
      rw [row, ended, finishScan_of_elsewhere (fun e => by cases e), single]
      rfl
    · intro m skipped c l pending sensing mscan todo off on measuring
      refine ⟨fun left => ?_, fun none => ?_⟩
      · have next : (x.csu.nextTarget sc.grouped sc.next).isSome = true := by
          rw [single, nextTarget_electrode_isSome]
          exact left
        have paused := (afterContactConversion_left (s := x) rfl pending next).trans
          (beginMeasurement_measures _ m skipped c l mscan todo off on)
        rw [row, paused, finishScan_measures]
        rfl
      · have ended := (afterContactConversion_done (s := x) rfl (next_none none)).trans
          (endContact_measures sc.grouped sc.measured pending mscan todo off on)
        rw [row, ended, finishScan_measures, single]
        rfl
  · intro c t learns taken
    obtain ⟨p, d, done⟩ := contactCompleted_sequential measured s
    refine ⟨?_, ?_, fun other => ?_, fun rebase learned => ?_⟩
    · rw [show t = _ from done, rebaseGoesOn_plu]
    · rw [show t = _ from done, rebaseGoesOn_plu]
    · rw [show t = _ from done, rebaseGoesOn_of_other (by exact other)]
      exact ⟨rfl, rfl⟩
    · have begun := done.trans (rebaseGoesOn_of_learned rebase (not_exists.mp fun h => learned h.choose h.choose_spec))
      refine ⟨fun i g => ?_, fun ⟨i, hi⟩ => ?_, fun none => ?_⟩
      · rw [show t = _ from begun, beginsGroups_members, mem_membersNow]
      · have ne : c.membersNow (if i.val < 4 then 0 else if i.val < 6 then 1 else 2) ≠ [] :=
          List.ne_nil_of_mem (mem_membersNow.mpr ⟨hi, rfl⟩)
        rw [show t = _ from begun, beginsGroups_some (by exact ne)]
        exact ⟨rfl, rfl, rfl⟩
      · have empty : ∀ g, c.membersNow g = [] := fun g =>
          List.eq_nil_iff_forall_not_mem.mpr fun i hi => none i (mem_membersNow.mp hi).1
        rw [show t = _ from begun, beginsGroups_none (by exact empty)]
        exact ⟨rfl, rfl, rfl⟩

end Sys2Proof.Machine

/-! PROOFS. The end of a group's conversion, group learning, ELECTRODE_SETUP and REBASE (sections 3.3, 3.6 to 3.8). -/

namespace Sys2Proof.Machine

/-! ## The end of a group's conversion (R51) -/

/-- What a group's raw leaves, in the words of the statement. -/
def Csu.sensed (c : Csu) (g : Fin 3) (r : Nat) : Csu :=
  let old := c.groups.get g
  match c.learning with
  | .learning _ _ => { c with groups := c.groups.set g { old with raw := some r } }
  | .idle => { c with
      groups := c.groups.set g (c.followGroup r old)
      electrodes := tabulate fun i => if i ∈ old.members ∧ (c.followGroup r old).confirmed ≠ old.confirmed then
        { c.electrodes.get i with confirmed := (c.followGroup r old).confirmed } else c.electrodes.get i }

theorem convertGroup_sensed (c : Csu) (g : Fin 3) (r : Nat) : c.convertGroup g r = c.sensed g r := by
  unfold Csu.convertGroup Csu.sensed
  cases learning : c.learning with
  | learning o n => rfl
  | idle =>
    simp only [GroupLearning.active, Bool.false_eq_true, if_false]
    congr 1
    split
    · next same => exact table_ext fun i => by simp [same]
    · next differs => exact table_ext fun i => by simp [applyClass, differs]

theorem followGroup_members (c : Csu) (r : Nat) (g : Group) : (c.followGroup r g).members = g.members := by
  unfold Csu.followGroup
  split <;> rfl

theorem sensed_members (c : Csu) (g : Fin 3) (r : Nat) (k : Fin 3) :
    ((c.sensed g r).groups.get k).members = (c.groups.get k).members := by
  unfold Csu.sensed
  dsimp only
  split <;> simp only [get_set] <;> split
  · next e => rw [e]
  · rfl
  · next e => rw [followGroup_members, e]
  · rfl

theorem sensed_same (c : Csu) (g : Fin 3) (r : Nat) :
    (c.sensed g r).resolution = c.resolution ∧ (c.sensed g r).scan = c.scan := by
  unfold Csu.sensed
  dsimp only
  split <;> exact ⟨rfl, rfl⟩

theorem sensed_scan (c : Csu) (g : Fin 3) (r : Nat) (scan : Option ContactScan) :
    Csu.sensed { c with scan := scan } g r = { c.sensed g r with scan := scan } := by
  unfold Csu.sensed
  dsimp only
  cases c.learning <;> rfl

theorem exec_groupConversionEnd {raw : BitVec 16} {sc : ContactScan} {v : ContactConversion} {g : Fin 3} {s : State}
    (scan : s.csu.scan = some sc) (current : sc.current = some v) (target : v.target = .group g) :
    exec (.groupConversionEnd raw) s = .next (finishScan (afterContactConversion { s.reach v.doneAt with
      csu := { s.csu.sensed g (min raw.toNat (2 ^ s.csu.resolution - 1)) with
        scan := some { sc with current := none, measured := sc.measured ++ [g] } } })) := by
  have sensing : s.sensing = some v := by simp [State.sensing, scan, current]
  have noted : noteMeasured (some g) (s.reach v.doneAt) =
      { s.reach v.doneAt with csu := { s.csu with
        scan := some { sc with current := none, measured := sc.measured ++ [g] } } } := by
    simp [noteMeasured, State.withCsu, scan]
  show execGroupConversionEnd raw s = _
  rw [execGroupConversionEnd, sensing]
  simp only [target, endGroupConversion, noted, State.withCsu, convertGroup_sensed, Csu.fullScale]
  rw [sensed_scan]

/-! ## The completion of a grouped scan (R51, R52) -/

/-- Outside learning a grouped completion reports, and then a rebase may go on. -/
theorem contactCompleted_idle {s : State} (idle : s.csu.learning = .idle) (measured : List (Fin 3)) : ∃ p d,
    s.contactCompleted true measured = State.rebaseGoesOn
      { s with plu := { s.plu with evidence := s.plu.evidence.recount s.csu.groupReport, candidate := p, dwell := d } } := by
  obtain ⟨p, d, h⟩ := evaluateCandidate_report s s.csu.groupReport
  refine ⟨p, d, congrArg State.rebaseGoesOn (Eq.trans ?_ h)⟩
  simp only [State.contactActed, Bool.true_eq_false, if_false, idle]

section
variable {s : State} {o : LearnOrigin} {n : Nat} (learning : s.csu.learning = .learning o n)
  (rebase : s.csu.rebase ≠ .electrodes) (measured : List (Fin 3))
include learning rebase

/-- A completion before the eighth counts. -/
theorem contactCompleted_counts (more : n ≠ 7) : s.contactCompleted true measured =
    { s with csu := { s.csu with groups := s.csu.summed measured, learning := .learning o (n + 1) } } := by
  have acted : s.contactActed true measured =
      { s with csu := { s.csu with groups := s.csu.summed measured, learning := .learning o (n + 1) } } := by
    simp only [State.contactActed, Bool.true_eq_false, if_false, learning, if_pos more]
  rw [State.contactCompleted, acted, rebaseGoesOn_of_other (.inl (by exact rebase))]

theorem contactCompleted_doze (eighth : n = 7) (doze : o = .doze) : s.contactCompleted true measured =
    { s with csu := Csu.learned { s.csu with groups := s.csu.summed measured } } := by
  have acted : s.contactActed true measured =
      { s with csu := Csu.learned { s.csu with groups := s.csu.summed measured } } := by
    simp [State.contactActed, learning, eighth, doze]
  rw [State.contactCompleted, acted, rebaseGoesOn_of_other (.inl (by exact rebase))]

omit rebase in
theorem contactCompleted_rebase (eighth : n = 7) (origin : o = .rebase) : s.contactCompleted true measured =
    State.post (.done .ok)
      { s with csu := { Csu.learned { s.csu with groups := s.csu.summed measured } with rebase := .noRebase } } := by
  have acted : s.contactActed true measured = State.post (.done .ok)
      { s with csu := { Csu.learned { s.csu with groups := s.csu.summed measured } with rebase := .noRebase } } := by
    simp [State.contactActed, learning, eighth, origin]
  rw [State.contactCompleted, acted, rebaseGoesOn_of_other (.inl (by simp))]

/-- The eighth completion: its groups and electrodes whatever began the learning. -/
theorem contactCompleted_learned (eighth : n = 7) :
    (s.contactCompleted true measured).plu = s.plu ∧ (s.contactCompleted true measured).csu.learning = .idle ∧
      (s.contactCompleted true measured).csu.groups = (Csu.learned { s.csu with groups := s.csu.summed measured }).groups ∧
      (s.contactCompleted true measured).csu.electrodes =
        (Csu.learned { s.csu with groups := s.csu.summed measured }).electrodes := by
  cases origin : o with
  | doze =>
    rw [contactCompleted_doze learning rebase measured eighth origin]
    exact ⟨rfl, rfl, rfl, rfl⟩
  | rebase =>
    rw [contactCompleted_rebase learning measured eighth origin]
    exact ⟨rfl, rfl, rfl, rfl⟩

end

/-- The highest confirmed class among some electrodes, as the statements write it. -/
def Csu.highest (c : Csu) (l : List (Fin 8)) : TouchClass :=
  if l.any fun i => (c.electrodes.get i).confirmed == .contact then TouchClass.contact
  else if l.any fun i => (c.electrodes.get i).confirmed == .near then .near else .noTouch

section
variable (c : Csu) (measured : List (Fin 3))

/-- A group's sum with what its scan adds. -/
def Csu.total (k : Fin 3) : Nat :=
  (c.groups.get k).learnSum + (if k ∈ measured then (c.groups.get k).raw.getD 0 else 0)

theorem summed_get (k : Fin 3) :
    (c.summed measured).get k = { c.groups.get k with learnSum := c.total measured k } := by
  rw [Csu.summed, get_tabulate]
  rfl

/-- A group at the eighth completion. -/
theorem learned_group (k : Fin 3) :
    let new := (Csu.learned { c with groups := c.summed measured }).groups.get k
    new.learnSum = 0 ∧ new.pending = none ∧ new.confirmCount = 0 ∧
      ((c.groups.get k).members = [] → new.baseline = (c.groups.get k).baseline ∧
        new.confirmed = (c.groups.get k).confirmed) ∧
      ((c.groups.get k).members ≠ [] →
        new.baseline =
          some (min (2 ^ c.resolution - 1) (((c.total measured k / 8 : Nat) : Int) - (c.groups.get k).carried).toNat) ∧
        new.confirmed = c.highest (c.groups.get k).members) := by
  simp only [Csu.learned, get_tabulate, summed_get]
  split
  · next empty => exact ⟨rfl, rfl, rfl, fun _ => ⟨rfl, rfl⟩, fun some => absurd empty some⟩
  · next some => exact ⟨rfl, rfl, rfl, fun empty => absurd empty some, fun _ => ⟨rfl, rfl⟩⟩

theorem learned_electrode (i : Fin 8) : (Csu.learned { c with groups := c.summed measured }).electrodes.get i =
    match ([2, 1, 0] : List (Fin 3)).find? fun g => decide (i ∈ (c.groups.get g).members) with
    | none => c.electrodes.get i
    | some g => { c.electrodes.get i with confirmed := c.highest (c.groups.get g).members } := by
  simp only [Csu.learned, get_tabulate, summed_get]
  rfl

/-- A member takes its group's class. -/
theorem learned_member (disjoint : ∀ k l, ∀ i ∈ (c.groups.get k).members, i ∈ (c.groups.get l).members → k = l)
    {k : Fin 3} {i : Fin 8} (hi : i ∈ (c.groups.get k).members) :
    (Csu.learned { c with groups := c.summed measured }).electrodes.get i =
      { c.electrodes.get i with confirmed := c.highest (c.groups.get k).members } := by
  have all : ∀ g : Fin 3, g ∈ ([2, 1, 0] : List (Fin 3)) := by decide
  rw [learned_electrode]
  split
  · next none => exact absurd (decide_eq_true hi) (List.find?_eq_none.mp none k (all k))
  · next g found => rw [disjoint g k i (by simpa using List.find?_some found) hi]

theorem learned_nonMember {i : Fin 8} (none : ∀ k, i ∉ (c.groups.get k).members) :
    (Csu.learned { c with groups := c.summed measured }).electrodes.get i = c.electrodes.get i := by
  rw [learned_electrode]
  split
  · rfl
  · next g found => exact absurd (by simpa using List.find?_some found) (none g)

end

/-- Settles O31. -/
theorem groupConversionEndActsAndLearns : Obligations.GroupConversionEndActsAndLearns := by
  unfold Obligations.GroupConversionEndActsAndLearns
  refine ⟨fun raw sc v g s scan current target grouped sensing => ?_, fun s measured => ?_⟩
  · intro c old r sum now followed stored measured goes ends left
    have row := exec_groupConversionEnd (raw := raw) scan current target
    have stored_eq : c.sensed g r = stored := by
      simp only [stored, Csu.sensed]
      cases c.learning <;> rfl
    have members : ∀ k, (stored.groups.get k).members = (c.groups.get k).members := fun k => by
      rw [← stored_eq, sensed_members]
    have resolution : stored.resolution = c.resolution := by rw [← stored_eq, (sensed_same c g r).1]
    rw [show s.csu.sensed g _ = stored from stored_eq] at row
    clear_value stored
    have next_none : ¬left → stored.nextTarget sc.grouped sc.next = none := fun none => by
      rw [← Option.not_isSome_iff_eq_none, grouped, nextTarget_group_isSome]
      simpa only [members] using none
    set x : State := { s.reach v.doneAt with
      csu := { stored with scan := some { sc with current := none, measured := measured } } } with hx
    refine ⟨fun m skipped n l pending mscan todo off on => ?_, fun idle => ⟨fun h le held least => ?_, fun none => ?_⟩⟩
    · intro measuring
      refine ⟨fun left => ?_, fun none => ?_⟩
      · have next : (stored.nextTarget sc.grouped sc.next).isSome = true := by
          rw [grouped, nextTarget_group_isSome]
          simpa only [members] using left
        have paused := (afterContactConversion_left (s := x) rfl pending next).trans
          (beginMeasurement_measures _ m skipped n l mscan todo off on)
        rw [row, paused, finishScan_measures]
        rfl
      · have ended := (afterContactConversion_done (s := x) rfl (next_none none)).trans
          (endContact_measures sc.grouped measured pending mscan todo off on)
        rw [row, ended, finishScan_measures, grouped]
        rfl
    · have next : stored.nextTarget sc.grouped sc.next = some (h.val, .group h) := by
        rw [grouped]
        exact nextTarget_group le (by rwa [members]) fun k le lt => (members k).trans (least k le lt)
      have goesOn := (afterContactConversion_idle (s := x) rfl idle).trans (continueContact_next rfl next)
      rw [row, goesOn, finishScan_of_elsewhere (fun e => by cases e)]
      simp only [goes, ← sensing, ← resolution]
      rfl
    · have ended := (afterContactConversion_done (s := x) rfl (next_none none)).trans
        (endContact_frees sc.grouped measured idle)
      rw [row, ended, finishScan_of_elsewhere (fun e => by cases e), grouped]
      rfl
  · intro c t highest total
    refine ⟨fun idle => ?_, fun o n learning rebase => ?_⟩
    · obtain ⟨p, d, done⟩ := contactCompleted_idle idle measured
      rw [show t = _ from done, rebaseGoesOn_plu]
      exact ⟨rfl, rfl⟩
    · have counts : n ≠ 7 → t = _ := contactCompleted_counts learning rebase measured
      have learned : n = 7 → _ := contactCompleted_learned learning rebase measured
      refine ⟨?_, fun more => ?_, fun eighth => ?_⟩
      · by_cases eighth : n = 7
        · exact (learned eighth).1
        · rw [counts eighth]
      · rw [counts more]
        exact ⟨rfl, rfl, rfl, fun k => by simp [Csu.summed, total, c]⟩
      · obtain ⟨-, idle, groups, electrodes⟩ := learned eighth
        refine ⟨idle, fun origin => ?_, fun origin => ?_, fun k => ?_, fun disjoint => ⟨fun k i hi => ?_, fun i none => ?_⟩⟩
        · rw [show t = _ from contactCompleted_rebase learning measured eighth origin]
          exact ⟨rfl, rfl⟩
        · rw [show t = _ from contactCompleted_doze learning rebase measured eighth origin]
          exact ⟨rfl, rfl⟩
        · rw [groups]
          exact learned_group c measured k
        · rw [electrodes]
          exact learned_member c measured disjoint hi
        · rw [electrodes]
          exact learned_nonMember c measured none

/-! ## ELECTRODE_SETUP (R39 to R41, R58) -/

/-- What a setup does to a rebase in flight, in the words of the statement. -/
def State.resumed (u : State) : State :=
  let c := u.csu
  if c.rebase ≠ .groups then u
  else if ∃ i : Fin 8, (c.electrodes.get i).enabled = true ∧ (c.electrodes.get i).state = .learning then
    { u with csu := { c with groups := c.groupsBegun, rebase := .electrodes, learning := .idle } }
  else u.beginsGroups

theorem anyLearning_iff (c : Csu) : c.anyLearning = true ↔
    ∃ i : Fin 8, (c.electrodes.get i).enabled = true ∧ (c.electrodes.get i).state = .learning := by
  simp [Csu.anyLearning, mem_eight]

theorem resumeRebase_resumed (u : State) : resumeRebase u = u.resumed := by
  unfold resumeRebase State.resumed
  dsimp only
  split
  · rfl
  · next h =>
    have groups : u.csu.rebase = .groups := not_not.mp h
    by_cases learning : u.csu.anyLearning = true
    · rw [if_pos learning, if_pos ((anyLearning_iff _).mp learning)]
      have dropped : tabulate (fun g => { (tabulate u.csu.groupAtStart).get g with learnSum := 0 }) = u.csu.groupsBegun := by
        rw [Csu.groupAtStart_groupsBegun]
        exact table_ext fun g => by simp [Csu.groupsBegun]
      simp only [State.withCsu, Csu.beginLearning, Csu.dropLearning, dropped]
    · rw [if_neg learning, if_neg fun h => learning ((anyLearning_iff _).mpr h)]
      have same : ({ u with csu := { u.csu with rebase := .groups } } : State) = u := by rw [← groups]
      have begun := startGroups_beginsGroups u
      rw [startGroups, State.withCsu, same] at begun
      exact begun

theorem resumed_msu (u : State) : u.resumed.msu = u.msu := by
  unfold State.resumed State.beginsGroups
  dsimp only
  split_ifs <;> rfl

/-- A step that leaves a scan spent only where it was so completes none. -/
theorem finishNew_of_imp {s t : State} (h : t.scanSpent = true → s.scanSpent = true) : finishNew s t = t := by
  unfold finishNew finishScan
  split
  · rfl
  · next n => rw [if_neg fun spent => n (h spent)]

theorem afresh_eq (e : Electrode) (h : e.enabled = true) : e.afresh = { e with
    state := .learning, raw := none, baseline := none, delta := none, confirmed := .noTouch, pending := none
    confirmCount := 0, satCount := 0, learnSum := 0, learnCount := 0 } := by
  rw [Electrode.afresh, if_pos h]

/-- A changed resolution on the records a stopped contact scan leaves. -/
theorem changeResolution_eq {s : State} {scan : Option ContactScan} {m : Msu} {b : Nat}
    (stopped : stopContact s = { s with msu := m, csu := { s.csu with scan := scan } }) :
    changeResolution b s = State.resumed { s with
      msu := m
      csu := { s.csu with
        scan := scan, resolution := b
        groups := tabulate fun g => { s.csu.groups.get g with baseline := none }
        electrodes := tabulate fun i =>
          if (s.csu.electrodes.get i).enabled then (s.csu.electrodes.get i).afresh else s.csu.electrodes.get i } } := by
  rw [changeResolution, resumeRebase_resumed, stopped]
  rfl

section
variable {f : ElectrodeFields} {s : State}

theorem electrodeFieldsOk_iff : electrodeFieldsOk f = true ↔
    1 ≤ f.near ∧ f.near ≤ 65534 ∧ f.near < f.contact ∧ f.contact ≤ 65535 ∧ f.hyst < f.near := by
  simp [electrodeFieldsOk, and_assoc]

theorem electrodeSetup_managed (h : s.managed = true) : electrodeSetup f s = (s, .only .notReady) := if_pos h

theorem electrodeSetup_noSuch (h : s.managed = false) (big : 8 ≤ f.target) : electrodeSetup f s = (s, .only .noSuch) := by
  rw [electrodeSetup, h, index?_none big]
  rfl

theorem electrodeSetup_badField (h : s.managed = false) (small : f.target < 8)
    (bad : f.enabled = none ∨ ¬electrodeFieldsOk f = true) : electrodeSetup f s = (s, .only .badField) := by
  have number : index? 8 f.target = some ⟨f.target, small⟩ := dif_pos small
  rw [electrodeSetup, h, number]
  simp only [Bool.false_eq_true, if_false]
  cases on : f.enabled with
  | none => rfl
  | some e => exact if_neg (bad.resolve_left (by simp [on]))

theorem electrodeSetup_good {i : Fin 8} {e : Bool} (h : s.managed = false) (number : f.target = i.val)
    (on : f.enabled = some e) (good : electrodeFieldsOk f = true) :
    electrodeSetup f s = (setupElectrode i e f s, .only .ok) := by
  rw [electrodeSetup, h, number, index?_val, on]
  exact if_pos good

variable {b : Nat}

theorem electrodeSetupResolution_badField (h : s.managed = false) (bad : b < 9 ∨ 16 < b) :
    electrodeSetupResolution b s = (s, .only .badField) := by
  rw [electrodeSetupResolution, h]
  exact if_pos bad

theorem electrodeSetupResolution_same (h : s.managed = false) (good : ¬(b < 9 ∨ 16 < b)) (same : b = s.csu.resolution) :
    electrodeSetupResolution b s = (s, .only .ok) := by
  rw [electrodeSetupResolution, h]
  exact (if_neg good).trans (if_pos same)

theorem electrodeSetupResolution_other (h : s.managed = false) (good : ¬(b < 9 ∨ 16 < b))
    (differs : b ≠ s.csu.resolution) : electrodeSetupResolution b s = (changeResolution b s, .only .ok) := by
  rw [electrodeSetupResolution, h]
  exact (if_neg good).trans (if_neg differs)

end

section
variable {s : State}

theorem stopContact_unclaimed (h : s.msu.claim = .unclaimed) : stopContact s = s := if_pos h

theorem stopContact_elsewhere (h : s.msu.claim ≠ .unclaimed) (other : s.msu.frontEnd ≠ .sensing) : stopContact s =
    { s with msu := { s.msu with claim := .unclaimed }, csu := { s.csu with scan := none } } :=
  (if_neg h).trans (if_neg other)

theorem stopContact_frees (h : s.msu.claim ≠ .unclaimed) (sensing : s.msu.frontEnd = .sensing)
    (idle : s.msu.pendingMeas = false) : stopContact s =
      { s with msu := { s.msu with claim := .unclaimed, frontEnd := .free }, csu := { s.csu with scan := none } } :=
  (if_neg h).trans <| (if_pos sensing).trans (freeFrontEnd_free idle)

theorem stopContact_measures {m : MeasScan} {skipped l : List (Fin 16)} {c : Fin 16} (h : s.msu.claim ≠ .unclaimed)
    (sensing : s.msu.frontEnd = .sensing) (pending : s.msu.pendingMeas = true) (scan : s.msu.scan = some m)
    (todo : m.todo = skipped ++ c :: l) (off : ∀ x ∈ skipped, (s.msu.channels.get x).enabled = false)
    (on : (s.msu.channels.get c).enabled = true) : stopContact s =
      { s with
        msu := ({ s.msu with claim := .unclaimed } : Msu).measures s.now c l, csu := { s.csu with scan := none } } :=
  (if_neg h).trans <| (if_pos sensing).trans
    (freeFrontEnd_measures (s := { s with msu := { s.msu with claim := .unclaimed }, csu := { s.csu with scan := none } })
      pending scan todo off on)

end

/-- Settles O32. -/
theorem electrodeSetupStartsAfresh : Obligations.ElectrodeSetupStartsAfresh := by
  unfold Obligations.ElectrodeSetupStartsAfresh
  intro dt tag f b s takes fresh answers t good resumed
  have electrode : ∀ {st u}, electrodeSetup f t = (u, .only st) → answers (.electrodeSetup dt tag f) st u := fun h =>
    owner_answers takes h
  have unit : ∀ {st u}, electrodeSetupResolution b t = (u, .only st) → finishNew t u = u →
      answers (.electrodeSetupResolution dt tag b) st u := fun {st u} h same => by
    refine owner_answers (owner := finishing (electrodeSetupResolution b)) takes ?_
    rw [finishing, show electrodeSetupResolution b (s.elapse dt) = _ from h, same]
    rfl
  have itself : finishNew t t = t := finishNew_of_same rfl
  have resumed_eq : ∀ u, resumed u = u.resumed := fun _ => rfl
  refine ⟨fun managed => ⟨electrode (electrodeSetup_managed managed), unit (if_pos managed) itself⟩,
    fun open_ big => electrode (electrodeSetup_noSuch open_ big.le),
    fun open_ small bad => electrode (electrodeSetup_badField open_ small (bad.imp id (mt electrodeFieldsOk_iff.mp))),
    fun i enabled open_ number on ok => ?_,
    fun open_ bad => unit (electrodeSetupResolution_badField open_ bad) itself,
    fun open_ low high same => unit (electrodeSetupResolution_same open_ (by omega) same.symm) itself,
    fun open_ low high differs => ?_⟩
  · intro old stored
    have set : setupElectrode i enabled f t = if old.enabled = enabled then stored else resumeRebase stored := rfl
    rw [resumeRebase_resumed, ← resumed_eq] at set
    have accepted := electrodeSetup_good (s := t) open_ number on (electrodeFieldsOk_iff.mpr ok)
    rw [set] at accepted
    simp only [eq_comm (a := old.enabled)] at accepted
    exact electrode accepted
  · intro rescaled
    have accepted := electrodeSetupResolution_other (s := t) open_ (by omega) (Ne.symm differs)
    have change : ∀ scan m, stopContact t = { t with msu := m, csu := { s.csu with scan := scan } } →
        (State.scanSpent { t with msu := m } = true → t.scanSpent = true) → rescaled scan m := fun scan m stopped spent => by
      rw [changeResolution_eq (s := t) stopped] at accepted
      refine unit accepted (finishNew_of_imp fun h => spent ?_)
      rw [resumed_eq, scanSpent_congr (resumed_msu _)] at h
      exact h
    exact ⟨fun unclaimed => change _ _ (stopContact_unclaimed (s := t) unclaimed) id,
      fun claimed other => change _ _ (stopContact_elsewhere (s := t) claimed other) id,
      fun claimed sensing idle => change _ _ (stopContact_frees (s := t) claimed sensing idle) (fun h => by cases h),
      fun m skipped c l claimed sensing pending scan todo off on =>
        change _ _ (stopContact_measures (s := t) claimed sensing pending scan todo off on) (fun h => by cases h)⟩

/-! ## REBASE (R56, R57) -/

theorem rebaseOwner_accepts {s : State} (awake : s.mdc.mode ≠ .dozing) (none : s.csu.rebase = .noRebase) :
    rebaseOwner s = (State.rebaseGoesOn { s with
      csu := { s.csu with rebase := .electrodes, electrodes := tabulate fun i => (s.csu.electrodes.get i).relearn } },
      .only .accepted) := by
  rw [rebaseOwner, if_neg awake, if_neg (not_not.mpr none), leaveElectrodes_rebaseGoesOn]
  rfl

/-- Settles O33. -/
theorem rebaseSendsElectrodesToLearning : Obligations.RebaseSendsElectrodesToLearning := by
  unfold Obligations.RebaseSendsElectrodesToLearning
  intro dt tag s takes t answers
  have answer : ∀ {st u}, rebaseOwner t = (u, .only st) → answers st u := fun h => owner_answers takes h
  refine ⟨fun dozing => answer (if_pos dozing), fun awake busy => answer ((if_neg awake).trans (if_pos busy)),
    fun awake none ⟨i, on⟩ => ?_, fun awake none off => ?_⟩
  · have relearned := rebaseOwner_accepts (s := t) awake none
    rw [rebaseGoesOn_of_other (.inr ⟨i, by simp [Electrode.relearn, on, t]⟩)] at relearned
    exact answer relearned
  · have same : (tabulate fun i => (s.csu.electrodes.get i).relearn) = s.csu.electrodes :=
      table_ext fun i => by simp [Electrode.relearn, off i]
    have idle : ∀ i : Fin 8, ¬((s.csu.electrodes.get i).enabled = true ∧ (s.csu.electrodes.get i).state = .learning) :=
      fun i h => by simp [off i] at h
    have empty : ∀ g, s.csu.membersNow g = [] := fun g => List.eq_nil_iff_forall_not_mem.mpr fun i hi => by
      simpa [off i] using (mem_membersNow.mp hi).1
    have relearned := rebaseOwner_accepts (s := t) awake none
    rw [show t.csu = s.csu from rfl, same, rebaseGoesOn_of_learned (by rfl) (by exact idle),
      beginsGroups_none (by exact empty)] at relearned
    exact ⟨_, answer relearned, rfl, rfl, rfl, rfl⟩

end Sys2Proof.Machine

/-! PROOFS. The Allocator's operations as sequences of a few kinds of step, and what no such step touches: the clamp lines, the
notices of other blocks, and of a domain all but its grant and its timers (R115, R130 to R134, R140 to R150). -/

namespace Sys2Proof.Machine

/-! ## Notices of other kinds -/

theorem mem_of_mem_post {n m : Notice} {k : Slk} (h : n ∈ (k.post m).notices) : n = m ∨ n ∈ k.notices := by
  unfold Slk.post at h
  split at h
  · obtain ⟨x, hx, e⟩ := List.mem_map.mp h
    split at e
    · exact .inl e.symm
    · exact .inr (e ▸ hx)
  · split at h
    · rcases List.mem_append.mp h with h | h
      · exact .inr h
      · exact .inl (List.mem_singleton.mp h)
    · exact .inr h

/-- Between two states only notices of some kinds were posted. -/
structure Quiet (K : Nat → Prop) (s t : State) : Prop where
  notices : ∀ n : Notice, ¬K n.kind → (n ∈ t.slk.notices ↔ n ∈ s.slk.notices)
  dropped : s.slk.dropped = true → t.slk.dropped = true

namespace Quiet

variable {K : Nat → Prop} {s t u : State}

theorem same (h : t.slk = s.slk) : Quiet K s t := ⟨fun _ _ => by rw [h], by rw [h]; exact id⟩

theorem refl (s : State) : Quiet K s s := same rfl

theorem trans (h : Quiet K s t) (k : Quiet K t u) : Quiet K s u :=
  ⟨fun n hn => (k.notices n hn).trans (h.notices n hn), k.dropped ∘ h.dropped⟩

theorem mono {L : Nat → Prop} (h : Quiet K s t) (le : ∀ k, K k → L k) : Quiet L s t :=
  ⟨fun n hn => h.notices n (mt (le _) hn), h.dropped⟩

theorem post {m : Notice} (hm : K m.kind) (s : State) : Quiet K s (s.post m) :=
  ⟨fun n hn => ⟨fun h => (mem_of_mem_post h).resolve_left fun e => hn (e ▸ hm),
    mem_post fun e => hn (by rwa [← show m.kind = n.kind from congrArg Prod.fst e])⟩, dropped_post m⟩

/-- A notice of another kind that waits or was dropped is so still. -/
theorem waits {n : Notice} (h : Quiet K s t) (hn : ¬K n.kind) (w : n ∈ s.slk.notices ∨ s.slk.dropped = true) :
    n ∈ t.slk.notices ∨ t.slk.dropped = true := w.imp (h.notices n hn).mpr h.dropped

end Quiet

/-- A posted notice waits, or was dropped. -/
theorem post_waits (n : Notice) (s : State) : n ∈ (s.post n).slk.notices ∨ (s.post n).slk.dropped = true := by
  have h := post_waits_or_drops n s.slk
  split at h
  · exact .inl h
  · exact .inr h

/-! ## The Allocator's steps -/

/-- The fields of a domain that lowering, raising and settling leave: setup, permit, request, ceiling, measurement, clamps. -/
def Domain.base (d : Domain) : Domain :=
  { d with grant := none, state := .unmanaged, deadline := none, holdStart := none, revocations := 0, overdueSince := none }

/-- What an allocation consists of; `C` says whether it forms ceilings. -/
inductive AllocStep (C : Prop) : State → State → Prop
  | grantNotice (reason : GrantReason) (i : Fin 6) (s : State) : AllocStep C s (postGrant reason i s)
  | roundNotice (s : State) : AllocStep C s (postRound s)
  | queue (q : List QueueEntry) (s : State) : AllocStep C s (s.setQueue q)
  | round (r : Round) (s : State) : AllocStep C s { s with alc := { s.alc with round := r } }
  | budget (b : Option Nat) (s : State) : AllocStep C s (s.setB b)
  | regrant {i : Fin 6} {d e : Domain} (s : State) : s.alc.domains.get i = some d → e.base = d.base → e.grant ≠ none →
    AllocStep C s (s.setDomain i (some e))
  | ceiling {i : Fin 6} {d : Domain} (c : Nat) (s : State) : C → s.alc.domains.get i = some d →
    AllocStep C s (s.setDomain i (some { d with effCeiling := some c }))

/-- An allocation: steps in a row. -/
def Allocs (C : Prop) : State → State → Prop := Relation.ReflTransGen (AllocStep C)

namespace Allocs

variable {C : Prop} {a s t : State}

theorem refl (s : State) : Allocs C s s := Relation.ReflTransGen.refl

theorem tail (h : Allocs C a s) (step : AllocStep C s t) : Allocs C a t := Relation.ReflTransGen.tail h step

/-- What every step keeps, an allocation keeps. -/
theorem keeps {R : State → State → Prop} (start : ∀ s, R s s) (then_ : ∀ {s t u}, R s t → R t u → R s u)
    (one : ∀ {s t}, AllocStep C s t → R s t) (h : Allocs C a s) : R a s := by
  induction h with
  | refl => exact start a
  | tail _ step ih => exact then_ ih (one step)

theorem foldl {β : Type} {f : State → β → State} (hf : ∀ s b, Allocs C a s → Allocs C a (f s b)) (l : List β)
    (h : Allocs C a s) : Allocs C a (l.foldl f s) := by
  induction l generalizing s with
  | nil => exact h
  | cons b l ih => exact ih (hf s b h)

theorem postGrant (h : Allocs C a s) (reason : GrantReason) (i : Fin 6) : Allocs C a (Machine.postGrant reason i s) :=
  h.tail (.grantNotice reason i s)

theorem syncQueue (h : Allocs C a s) (i : Fin 6) : Allocs C a (Machine.syncQueue i s) := by
  obtain ⟨q, e⟩ := syncQueue_eq i s
  rw [e]
  exact h.tail (.queue q s)

theorem reserve (h : Allocs C a s) (amount : Nat) (holder : Option (Fin 6)) : Allocs C a (s.reserve amount holder) :=
  h.tail (.round _ s)

theorem adjustReservation (h : Allocs C a s) (i : Fin 6) : Allocs C a (Machine.adjustReservation i s) := by
  unfold Machine.adjustReservation
  split
  · split
    · exact h.reserve _ _
    · split
      · exact h.reserve _ _
      · exact h.reserve _ _
  · exact h

theorem joinRound (h : Allocs C a s) (c : RoundCause) (lowersNone : Bool) :
    Allocs C a (Machine.joinRound c lowersNone s) := by
  unfold Machine.joinRound
  split
  · exact h
  · exact h.tail (.round _ s)

theorem lowerOne (h : Allocs C a s) (c : RoundCause) (target : Nat) (i : Fin 6) :
    Allocs C a (Machine.lowerOne c target i s) := by
  unfold Machine.lowerOne
  split
  · exact h
  · next d hd =>
    have lowered := h.tail (.regrant (e := d.lowered target (s.deadlineFor c) (s.alc.round.lists i)) s hd rfl (by simp [Domain.lowered]))
    have listed : Allocs C a (listAffected i d.held _) := lowered.tail (.round _ _)
    exact (listed.syncQueue i).postGrant .round i

theorem lowerAll (h : Allocs C a s) (c : RoundCause) (order : List (Fin 6)) (targets : Vector Nat 6) :
    Allocs C a (Machine.lowerAll c order targets s) :=
  foldl (fun _ i h => h.lowerOne c _ i) _ (h.joinRound c _)

theorem reduce (h : Allocs C a s) (c : RoundCause) : Allocs C a (Machine.reduce c s) :=
  (h.reserve 0 none).lowerAll c _ _

theorem raiseGrant (h : Allocs C a s) (amount : Nat) (i : Fin 6) : Allocs C a (Machine.raiseGrant amount i s) := by
  unfold Machine.raiseGrant
  split
  · exact h
  · next d hd =>
    have raised := h.tail (.regrant (e := { d with grant := some (d.held + amount) }) s hd rfl (by simp))
    exact (raised.postGrant .raise i).syncQueue i

theorem serveHeads (h : Allocs C a s) (n : Nat) : Allocs C a (Machine.serveHeads n s) := by
  induction n generalizing s with
  | zero => exact h
  | succ n ih =>
    unfold Machine.serveHeads
    dsimp only
    split
    · exact h
    · next e _ _ =>
      split
      · exact h
      · next d _ =>
        have served : Allocs C a (if min s.alc.spare d.shortfall = 0 then s
            else Machine.raiseGrant (min s.alc.spare d.shortfall) e.slot s) := by
          split
          · exact h
          · exact h.raiseGrant _ _
        split
        · exact ih served
        · exact served

theorem preemptFor (h : Allocs C a s) (i : Fin 6) (d : Domain) : Allocs C a (Machine.preemptFor i d s) := by
  unfold Machine.preemptFor
  dsimp only
  split
  · exact h
  · exact ((h.joinRound .preempt false).reserve _ _).lowerAll .preempt _ _

theorem weighPreemption (h : Allocs C a s) : Allocs C a (Machine.weighPreemption s) := by
  unfold Machine.weighPreemption
  split
  · exact h
  · split
    · exact h
    · exact h.preemptFor _ _

theorem serve (h : Allocs C a s) : Allocs C a (Machine.serve s) := by
  unfold Machine.serve
  split
  · exact h
  · exact (h.serveHeads _).weighPreemption

theorem settleBudget (h : Allocs C a s) (c : RoundCause) : Allocs C a (Machine.settleBudget c s) := by
  unfold Machine.settleBudget
  split
  · exact h.reduce c
  · split
    · exact h.serve
    · exact h

theorem recompute (h : Allocs C a s) (c : RoundCause) : Allocs C a (Machine.recompute c s) := by
  unfold Machine.recompute
  split
  · exact Allocs.settleBudget (h.tail (.budget _ s)) c
  · exact h

theorem reformCeiling (hC : C) (h : Allocs C a s) (i : Fin 6) : Allocs C a (Machine.reformCeiling i s) := by
  unfold Machine.reformCeiling
  dsimp only
  split
  · exact h
  · next d hd =>
    have formed := ((h.tail (.ceiling (s.ceilingOf d) s hC hd)).adjustReservation i).syncQueue i
    split
    · exact h
    · split
      · exact formed.postGrant .ceiling i
      · exact formed

theorem reformCeilings (hC : C) (h : Allocs C a s) : Allocs C a (Machine.reformCeilings s) :=
  foldl (fun _ i h => reformCeiling hC h i) _ h

theorem recomputeCeilings (hC : C) (h : Allocs C a s) (c : RoundCause) :
    Allocs C a (Machine.recomputeCeilings c s) := by
  unfold Machine.recomputeCeilings
  dsimp only
  split
  · exact ((reformCeilings hC h).recompute c).serve
  · exact (reformCeilings hC h).recompute c

theorem grantReservation (h : Allocs C a s) : Allocs C a (Machine.grantReservation s) := by
  unfold Machine.grantReservation
  split
  · exact h
  · exact (h.reserve 0 none).raiseGrant _ _

theorem closeRound (h : Allocs C a s) : Allocs C a (Machine.closeRound s) := by
  have told := h.grantReservation.tail (.roundNotice _)
  exact Allocs.serve (told.tail (.round _ _))

theorem closeIfDone (h : Allocs C a s) : Allocs C a (Machine.closeIfDone s) := by
  unfold Machine.closeIfDone
  split
  · exact h.closeRound
  · exact h

/-! ## What an allocation leaves -/

theorem postGrant_touches (reason : GrantReason) (i : Fin 6) (s : State) :
    ∃ k, Machine.postGrant reason i s = { s with slk := k } := by
  unfold Machine.postGrant
  split
  · exact ⟨s.slk, rfl⟩
  · exact ⟨_, rfl⟩

/-- An allocation touches neither the clamp lines nor another block's records. -/
theorem clu (h : Allocs C s t) : t.clu = s.clu := by
  refine h.keeps (R := fun s t => t.clu = s.clu) (fun _ => rfl) (fun h k => k.trans h) fun {s t} step => ?_
  cases step with
  | grantNotice reason i s =>
    obtain ⟨k, e⟩ := postGrant_touches reason i s
    rw [e]
  | _ => rfl

/-- An allocation posts GRANT and ROUND notices only. -/
theorem quiet (h : Allocs C s t) : Quiet (fun k => k = 0x41 ∨ k = 0x42) s t := by
  refine h.keeps Quiet.refl Quiet.trans fun {s t} step => ?_
  cases step with
  | grantNotice reason i s =>
    unfold Machine.postGrant
    split
    · exact .refl s
    · exact .post (.inl rfl) s
  | roundNotice s => exact .post (.inr rfl) s
  | _ => exact .same rfl

/-- The bases of the slots. -/
theorem bases (h : Allocs False s t) (i : Fin 6) : (t.alc.domains.get i).map Domain.base = (s.alc.domains.get i).map Domain.base := by
  refine h.keeps (R := fun s t => (t.alc.domains.get i).map Domain.base = (s.alc.domains.get i).map Domain.base)
    (fun _ => rfl) (fun h k => k.trans h) fun {s t} step => ?_
  cases step with
  | grantNotice reason j s => rw [postGrant_alc]
  | @regrant j d e s slot base granted =>
    simp only [State.setDomain_alc, get_set]
    split
    · next eq =>
      subst eq
      simp [slot, base]
    · rfl
  | ceiling c s hC => exact hC.elim
  | _ => rfl

/-- An allocation leaves setups, permits, requests and the budget's inputs. -/
theorem grants (h : Allocs C s t) : Grants s t := by
  refine h.keeps Grants.refl Grants.trans fun {s t} step => ?_
  cases step with
  | grantNotice reason i s => exact (Grants.refl s).postGrant reason i
  | roundNotice s => exact (Grants.refl s).postRound
  | queue q s => exact (Grants.refl s).setQueue q
  | round r s => exact (Grants.refl s).alcSame rfl rfl rfl
  | budget b s => exact (Grants.refl s).setB b
  | regrant s slot base => exact (Grants.refl s).setDomain slot (congrArg Domain.core base :)
  | ceiling c s hC slot => exact (Grants.refl s).setDomain slot rfl

/-- A domain with a grant keeps one. -/
theorem granted (h : Allocs C s t) : (∀ i d, s.alc.domains.get i = some d → d.grant ≠ none) →
    ∀ i d, t.alc.domains.get i = some d → d.grant ≠ none := by
  refine h.keeps (R := fun s t => (∀ i d, s.alc.domains.get i = some d → d.grant ≠ none) →
    ∀ i d, t.alc.domains.get i = some d → d.grant ≠ none) (fun _ => id) (fun h k => k ∘ h) fun {s t} step all => ?_
  cases step with
  | grantNotice reason i s =>
    rw [postGrant_alc]
    exact all
  | @regrant i d e s slot base granted =>
    intro j x hx
    rw [State.setDomain_alc, get_set] at hx
    split at hx
    · cases hx
      exact granted
    · exact all j x hx
  | @ceiling i d c s hC slot =>
    intro j x hx
    rw [State.setDomain_alc, get_set] at hx
    split at hx
    · cases hx
      exact all i d slot
    · exact all j x hx
  | _ => exact all

end Allocs

/-- Domains with the same bases have the same effective ceilings. -/
theorem effCeiling_of_bases {x y : Option Domain} (h : x.map Domain.base = y.map Domain.base) :
    x.map Domain.effCeiling = y.map Domain.effCeiling := by
  have e : ∀ z : Option Domain, z.map Domain.effCeiling = (z.map Domain.base).map Domain.effCeiling := fun z => by
    cases z <;> rfl
  rw [e x, e y, h]

theorem recompute_clu (c : RoundCause) (s : State) : (recompute c s).clu = s.clu := ((Allocs.refl s).recompute c (C := False)).clu

theorem handDerate_clu (n : Fin 2) (v : Bool) (s : State) : (handDerate n v s).clu = s.clu := recompute_clu ..

theorem handSeverity_clu (z : Fin 6) (v : Bool) (s : State) : (handSeverity z v s).clu = s.clu := recompute_clu ..

end Sys2Proof.Machine

/-! PROOFS. Clamp lines: causes, forces and setup (sections 8.6, 8.7, R151 to R156). -/

namespace Sys2Proof.Machine

/-! ## Cause sets (R153) -/

theorem mem_allClampCauses (x : ClampCause) : x ∈ allClampCauses := by cases x <;> decide

theorem mem_withCause {l : List ClampCause} {c x : ClampCause} : x ∈ withCause l c ↔ x = c ∨ x ∈ l := by
  simp [withCause, mem_allClampCauses, or_comm]

theorem mem_withoutCause {l : List ClampCause} {c x : ClampCause} : x ∈ withoutCause l c ↔ x ≠ c ∧ x ∈ l := by
  simp [withoutCause, and_comm]

theorem withCause_twice (l : List ClampCause) (c : ClampCause) : withCause (withCause l c) c = withCause l c := by
  refine List.filter_congr fun x _ => ?_
  rw [Bool.eq_iff_iff]
  simp only [Bool.or_eq_true, List.contains_iff_mem, beq_iff_eq, mem_withCause]
  tauto

theorem withoutCause_twice (l : List ClampCause) (c : ClampCause) : withoutCause (withoutCause l c) c = withoutCause l c := by
  simp [withoutCause, List.filter_filter]

/-! ## One line -/

/-- A line's record is replaced, and a change of its level is told. -/
theorem setLine_eq (n : Fin 6) (l : Line) (s : State) : setLine n l s =
    if l.active = (s.clu.get n).active then { s with clu := s.clu.set n l }
    else State.post (.clamp n l.active l.causes) { s with clu := s.clu.set n l } := by
  simp only [setLine, eq_comm (a := (s.clu.get n).active)]

theorem setLine_clu (n : Fin 6) (l : Line) (s : State) : (setLine n l s).clu = s.clu.set n l := by
  rw [setLine_eq]
  split <;> rfl

theorem linesOnly_setLine (n : Fin 6) (l : Line) (s : State) : s.linesOnly (setLine n l s) := by
  rw [setLine_eq]
  unfold State.linesOnly
  split
  · rfl
  · rw [State.post, slk_post_eq]

theorem linesOnly_refl (s : State) : s.linesOnly s := rfl

theorem linesOnly_trans {s t u : State} (h : s.linesOnly t) (k : t.linesOnly u) : s.linesOnly u := by
  unfold State.linesOnly at *
  rw [k, h]

theorem quiet_setLine (n : Fin 6) (l : Line) (s : State) : Quiet (· = 0x43) s (setLine n l s) := by
  rw [setLine_eq]
  split
  · exact .same rfl
  · have stored : Quiet (· = 0x43) s { s with clu := s.clu.set n l } := .same rfl
    exact stored.trans (.post (by rfl) _)

theorem addCause_get (c : ClampCause) (n m : Fin 6) (s : State) : (addCause c n s).clu.get m =
    if n = m then { s.clu.get m with causes := withCause (s.clu.get m).causes c } else s.clu.get m := by
  rw [addCause, setLine_clu, get_set]
  split
  · next e => rw [e]
  · rfl

theorem withdrawCause_get (c : ClampCause) (n m : Fin 6) (s : State) : (withdrawCause c n s).clu.get m =
    if n = m then { s.clu.get m with causes := withoutCause (s.clu.get m).causes c } else s.clu.get m := by
  rw [withdrawCause, setLine_clu, get_set]
  split
  · next e => rw [e]
  · rfl

/-! ## Several lines -/

theorem addCauseTo_get (lines : List (Fin 6)) (c : ClampCause) (s : State) (m : Fin 6) :
    (addCauseTo lines c s).clu.get m =
      if m ∈ lines then { s.clu.get m with causes := withCause (s.clu.get m).causes c } else s.clu.get m := by
  induction lines generalizing s with
  | nil => rfl
  | cons n l ih =>
    rw [addCauseTo, List.foldl_cons, ← addCauseTo, ih, addCause_get]
    by_cases e : n = m
    · subst e
      simp [withCause_twice]
    · simp [e, Ne.symm e]

theorem withdrawCauseFrom_get (lines : List (Fin 6)) (c : ClampCause) (s : State) (m : Fin 6) :
    (withdrawCauseFrom lines c s).clu.get m =
      if m ∈ lines then { s.clu.get m with causes := withoutCause (s.clu.get m).causes c } else s.clu.get m := by
  induction lines generalizing s with
  | nil => rfl
  | cons n l ih =>
    rw [withdrawCauseFrom, List.foldl_cons, ← withdrawCauseFrom, ih, withdrawCause_get]
    by_cases e : n = m
    · subst e
      simp [withoutCause_twice]
    · simp [e, Ne.symm e]

theorem linesOnly_addCauseTo (lines : List (Fin 6)) (c : ClampCause) (s : State) : s.linesOnly (addCauseTo lines c s) := by
  induction lines generalizing s with
  | nil => exact linesOnly_refl s
  | cons n l ih => exact linesOnly_trans (linesOnly_setLine n _ s) (ih _)

theorem linesOnly_withdrawCauseFrom (lines : List (Fin 6)) (c : ClampCause) (s : State) :
    s.linesOnly (withdrawCauseFrom lines c s) := by
  induction lines generalizing s with
  | nil => exact linesOnly_refl s
  | cons n l ih => exact linesOnly_trans (linesOnly_setLine n _ s) (ih _)

theorem quiet_addCauseTo (lines : List (Fin 6)) (c : ClampCause) (s : State) :
    Quiet (· = 0x43) s (addCauseTo lines c s) := by
  induction lines generalizing s with
  | nil => exact .refl s
  | cons n l ih => exact (quiet_setLine n _ s).trans (ih _)

theorem quiet_withdrawCauseFrom (lines : List (Fin 6)) (c : ClampCause) (s : State) :
    Quiet (· = 0x43) s (withdrawCauseFrom lines c s) := by
  induction lines generalizing s with
  | nil => exact .refl s
  | cons n l ih => exact (quiet_setLine n _ s).trans (ih _)

/-- A cause on every line or on none, as a claim says. -/
theorem six_cause (c : ClampCause) (v : Bool) (s : State) (n : Fin 6) :
    c ∈ ((if v then addCauseTo six c s else withdrawCauseFrom six c s).clu.get n).causes ↔ v = true := by
  cases v with
  | true => simp [addCauseTo_get, mem_six, mem_withCause]
  | false => simp [withdrawCauseFrom_get, mem_six, mem_withoutCause]

/-! ## CLAMP_FORCE and LINE_SETUP (R154, R155) -/

section
variable {f : LineFields} {s : State}

theorem lineSetup_managed (h : s.managed = true) : lineSetup f s = (s, .only .notReady) := if_pos h

theorem lineSetup_noSuch (h : s.managed = false) (big : 6 ≤ f.line) : lineSetup f s = (s, .only .noSuch) := by
  rw [lineSetup, h, index?_none big]
  rfl

theorem lineSetup_badField (h : s.managed = false) (small : f.line < 6)
    (bad : f.enabled = none ∨ f.polarity = none ∨ f.drive = none) : lineSetup f s = (s, .only .badField) := by
  have number : index? 6 f.line = some ⟨f.line, small⟩ := dif_pos small
  rw [lineSetup, h, number]
  cases he : f.enabled with
  | none => rfl
  | some e =>
    cases hp : f.polarity with
    | none => rfl
    | some p =>
      cases hd : f.drive with
      | none => rfl
      | some d => simp [he, hp, hd] at bad

theorem lineSetup_good {n : Fin 6} {e : Bool} {p : Polarity} {d : Drive} (h : s.managed = false) (number : f.line = n.val)
    (he : f.enabled = some e) (hp : f.polarity = some p) (hd : f.drive = some d) :
    lineSetup f s = (setLine n { s.clu.get n with enabled := e, polarity := p, drive := d } s, .only .ok) := by
  rw [lineSetup, h, number, index?_val, he, hp, hd]
  rfl

end

theorem clampForce_badField {mask : Byte} {a : Option ClampAction} {s : State} (big : 64 ≤ mask.toNat) :
    clampForce mask a s = (s, .only .badField) := if_pos big

/-- Settles O54. -/
theorem clampLinesFollowTheirCauses : Obligations.ClampLinesFollowTheirCauses := by
  unfold Obligations.ClampLinesFollowTheirCauses
  refine ⟨fun l => ⟨?_, ?_⟩, fun s n => ⟨rfl, rfl⟩, fun c n s => ?_, fun dt tag mask f s takes => ?_⟩
  · simp [Line.active]
  · cases hp : l.polarity <;> cases hd : l.drive <;> cases ha : l.active <;> simp [Line.pin, hp, hd, ha]
  · intro old changes
    have set : ∀ {u : State} {l : Line} {holds : ClampCause → Prop}, u = setLine n l s →
        l = { old with causes := l.causes } → (∀ x, x ∈ l.causes ↔ holds x) → changes u holds := by
      rintro u l holds rfl record causes
      have new : (setLine n l s).clu.get n = l := by rw [setLine_clu, get_set, if_pos rfl]
      refine ⟨by rw [new]; exact record, by rw [new]; exact causes, ?_⟩
      rw [new, setLine_eq]
    exact ⟨set rfl rfl fun x => mem_withCause, set rfl rfl fun x => mem_withoutCause⟩
  · intro shown forces answers
    have answer : ∀ {st u}, lineSetup f (s.elapse dt) = (u, .only st) → answers st u := fun h => owner_answers takes h
    have named : ∀ n, n ∈ maskLines mask ↔ mask.getLsbD n.val = true := fun n => by simp [maskLines, mem_six]
    have bad : ∀ {c : Instr} {a}, exec c s = .next (acceptRequest 0x2A tag (clampForce mask a) (s.elapse dt)) →
        64 ≤ mask.toNat → exec c s = .next ((s.elapse dt).answered 0x2A tag { status := .badField, body := .empty }) :=
      fun row big => row.trans (owner_answers takes (clampForce_badField big))
    refine ⟨⟨bad rfl, fun small => ⟨addCauseTo (maskLines mask) .forced (s.elapse dt), ?_, rfl, linesOnly_addCauseTo ..,
        fun n => ?_⟩⟩, ⟨bad rfl, fun small => ⟨withdrawCauseFrom (maskLines mask) .forced (s.elapse dt), ?_, rfl,
        linesOnly_withdrawCauseFrom .., fun n => ?_⟩⟩, fun managed => answer (lineSetup_managed managed),
      fun open_ big => answer (lineSetup_noSuch open_ big),
      fun open_ small missing => answer (lineSetup_badField open_ small missing),
      fun n e p d open_ number he hp hd => ?_⟩
    · exact owner_answers (owner := clampForce mask (some .set)) takes (if_neg (Nat.not_le.mpr small))
    · by_cases on : mask.getLsbD n.val = true
      · simp [addCauseTo_get, (named n).mpr on, on, mem_withCause]
      · simp [addCauseTo_get, mt (named n).mp on, on]
    · exact owner_answers (owner := clampForce mask (some .clear)) takes (if_neg (Nat.not_le.mpr small))
    · by_cases on : mask.getLsbD n.val = true
      · simp [withdrawCauseFrom_get, (named n).mpr on, on, mem_withoutCause]
      · simp [withdrawCauseFrom_get, mt (named n).mp on, on]
    · intro new stored
      have good := lineSetup_good (s := s.elapse dt) open_ number he hp hd
      rw [setLine_eq] at good
      exact ⟨fun same => answer (good.trans (by rw [if_pos (by exact same)]; rfl)),
        fun differs => answer (good.trans (by rw [if_neg (by exact differs)]; rfl))⟩

end Sys2Proof.Machine

/-! PROOFS. Line filters and evidence (section 4.2), zone setup and evaluation (sections 5.2, 5.4), the bucket (section
6.6). -/

namespace Sys2Proof.Machine

/-! ## LINE_FILTER_SAMPLE, LID_CHANGE, MOTION_CHANGE, STILL_TIMER_EXPIRY (R61 to R63) -/

theorem Level.flip_eq (l : Level) : Level.flip l = if l = .high then .low else .high := by cases l <;> rfl

theorem changeDue_eq {f : LineFilter} (h : f.run = 2) : f.changeDue = some (f.sampledAt + 1000) := if_pos h

/-- Settles O36: the third differing sample on LID and on MOTION, either way. -/
theorem linesUpdateTheEvidence : Obligations.LinesUpdateTheEvidence := by
  unfold Obligations.LinesUpdateTheEvidence
  intro lid motion adp d s p changed sampled update
  have accept : ∀ f : LineFilter, f.accept = changed f := fun f => by
    rw [LineFilter.accept, Level.flip_eq]
    rfl
  refine ⟨rfl, fun third => ?_, fun third low => ?_, fun third high => ?_, fun due => ?_⟩
  · show Host.Outcome.next (atExpiry p.lid.changeDue changeLid s) = _
    rw [changeDue_eq third]
    simp only [atExpiry, changeLid, updateEvidence, State.withPlu]
    rw [show (s.reach _).plu.lid.accept = changed p.lid from accept p.lid]
    cases h : p.lid.accepted <;> simp [changed, h, Level.lid] <;> rfl
  · show Host.Outcome.next (atExpiry p.motion.changeDue changeMotion s) = _
    rw [changeDue_eq third]
    simp only [atExpiry, changeMotion, updateEvidence, State.withPlu]
    rw [show (s.reach _).plu.motion.accept = changed p.motion from accept p.motion]
    simp [changed, low]
    rfl
  · show Host.Outcome.next (atExpiry p.motion.changeDue changeMotion s) = _
    rw [changeDue_eq third]
    simp only [atExpiry, changeMotion, updateEvidence, State.withPlu]
    rw [show (s.reach _).plu.motion.accept = changed p.motion from accept p.motion]
    simp [changed, high]
    rfl
  · show Host.Outcome.next (atExpiry p.stillTimer becomeStill s) = _
    rw [due]
    rfl

/-! ## ZONE_SETUP (R81, R82) -/

theorem highest_eq_max? (l : List Int) : highest l = l.max? := by cases l <;> rfl

section
variable {f : ZoneFields} {k : ZoneSource} {s : State} (open_ : s.managed = false)
include open_

theorem zoneSetup_noSuch (big : 6 ≤ f.zone) : zoneSetup f s = (s, .only .noSuch) := by
  rw [zoneSetup, open_, index?_none big]
  rfl

theorem zoneSetup_badField (small : f.zone < 6)
    (bad : ∀ k, f.source = some k → (!countFits k f.channels.length || decide (4 ≤ f.fanMap.toNat)) = true) :
    zoneSetup f s = (s, .only .badField) := by
  have number : index? 6 f.zone = some ⟨f.zone, small⟩ := dif_pos small
  rw [zoneSetup, open_, number]
  cases hk : f.source with
  | none => rfl
  | some k => exact if_pos (bad k hk)

variable {z : Fin 6} (number : f.zone = z.val) (source : f.source = some k) (fans : f.fanMap.toNat < 4)
  (count : countFits k f.channels.length = true)
include number source fans count

/-- A setup whose counts fit, up to the check of its channels. -/
theorem zoneSetup_counted : zoneSetup f s =
    if f.channels.any (16 ≤ ·) then refuse .noSuch s
    else if !distinct f.channels then refuse .badField s
    else if f.enabled && k == .channels && !(f.channels.filterMap (index? 16)).all (s.kindIs · .temp) then refuse .conflict s
    else (s.setZone z ((s.znm.zones.get z).setup f k s.msu.last), .only .ok) := by
  rw [zoneSetup, open_, number, index?_val, source]
  have fits : ¬(!countFits k f.channels.length || decide (4 ≤ f.fanMap.toNat)) = true := by
    simp [count, Nat.not_le.mpr fans]
  exact if_neg fits

variable {l : List (Fin 16)} (channels : f.channels = l.map Fin.val)
include channels

theorem zoneSetup_named : zoneSetup f s =
    if ¬l.Nodup then refuse .badField s
    else if f.enabled = true ∧ k = .channels ∧ ∃ c ∈ l, (s.msu.channels.get c).kind ≠ .temp then refuse .conflict s
    else (s.setZone z ((s.znm.zones.get z).setup f k s.msu.last), .only .ok) := by
  have exist : (f.channels.any fun n => decide (16 ≤ n)) = false := by
    rw [channels, List.any_eq_false]
    rintro _ hn
    obtain ⟨c, -, rfl⟩ := List.mem_map.mp hn
    simp
  have nodup : (!distinct f.channels) = true ↔ ¬l.Nodup := by
    rw [Bool.not_eq_true', Bool.eq_false_iff, Ne, distinct_iff, channels, List.nodup_map_iff Fin.val_injective]
  have kinds : (f.enabled && k == .channels && !(f.channels.filterMap (index? 16)).all (s.kindIs · .temp)) = true ↔
      f.enabled = true ∧ k = .channels ∧ ∃ c ∈ l, (s.msu.channels.get c).kind ≠ .temp := by
    rw [channels, filterMap_index?_val]
    simp [State.kindIs, and_assoc]
  rw [zoneSetup_counted open_ number source fans count, exist]
  simp only [Bool.false_eq_true, if_false, nodup, kinds]

end

/-- The record after an accepted setup, in the words of the statement. -/
theorem zone_setup_eq {f : ZoneFields} {k : ZoneSource} {l : List (Fin 16)} (channels : f.channels = l.map Fin.val)
    (c : Completion) (z : Zone) : z.setup f k c = { z with
      enabled := f.enabled, source := k, channels := l, fanMap := [0, 1].filter fun n => f.fanMap.getLsbD n.val
      temperature := if f.enabled ∧ k = .channels then
        (l.filterMap fun n => if c.states.get n = .valid then c.values.get n else none).max? else none
      lastFeed := none, feedTimer := none } := by
  simp only [Zone.setup, Zone.derive, channels, filterMap_index?_val, Zone.readings, highest_eq_max?]
  split <;> rfl

/-- Settles O39: the checks in their order. -/
theorem zoneSetupReplacesTheSetup : Obligations.ZoneSetupReplacesTheSetup := by
  unfold Obligations.ZoneSetupReplacesTheSetup
  intro dt tag f s takes answers
  have answer : ∀ {st u}, zoneSetup f (s.elapse dt) = (u, .only st) → answers st u := fun h => owner_answers takes h
  have counts : ∀ k n, countFits k n = true ↔ if k = .fed then n = 0 else n ∈ [1, 2] := fun k n => by
    cases k <;> simp [countFits]
  refine ⟨fun managed => answer (if_pos managed), fun open_ big => answer (zoneSetup_noSuch open_ big),
    fun open_ small bad => answer (zoneSetup_badField open_ small fun k hk => ?_),
    fun k open_ small source fans count big => answer ?_,
    fun z l k open_ number source fans channels count => ?_⟩
  · rcases bad with none | fans | ⟨fed, some⟩ | ⟨chans, count⟩
    · simp [none] at hk
    · simp [fans]
    · cases hk.symm.trans fed
      simp [countFits, some]
    · cases hk.symm.trans chans
      simp only [Bool.or_eq_true, Bool.not_eq_true', Bool.eq_false_iff, Ne, counts]
      exact .inl count
  · have fits : countFits k f.channels.length = true := by
      rw [counts]
      by_cases fed : k = .fed
      · rw [if_pos fed] at count ⊢
        simp [count]
      · rwa [if_neg fed] at count ⊢
    exact (zoneSetup_counted (s := s.elapse dt) (z := ⟨f.zone, small⟩) open_ rfl source fans fits).trans
      (if_pos (by simpa using big))
  · have fits : countFits k f.channels.length = true := by
      rw [counts, channels, List.length_map]
      by_cases fed : k = .fed
      · rw [if_pos fed] at count ⊢
        simp [count]
      · rwa [if_neg fed] at count ⊢
    have named := zoneSetup_named (s := s.elapse dt) open_ number source fans fits channels
    refine ⟨fun twice => ?_, fun once on other => ?_, fun once good => ?_⟩
    · rw [if_pos twice] at named
      exact answer named
    · have chans : k = .channels := by
        obtain ⟨c, hc, -⟩ := other
        cases k with
        | channels => rfl
        | fed => simp [show l = [] from count] at hc
      rw [if_neg (not_not.mpr once), if_pos ⟨on, chans, other⟩] at named
      exact answer named
    · intro readings
      have ok : ¬(f.enabled = true ∧ k = .channels ∧ ∃ c ∈ l, (s.msu.channels.get c).kind ≠ .temp) := by
        rintro ⟨on, -, c, hc, bad⟩
        rcases good with off | good
        · simp [on] at off
        · exact bad (good c hc)
      rw [if_neg (not_not.mpr once), if_neg (by exact ok), zone_setup_eq channels] at named
      exact answer named

/-! ## Evaluation (R87) -/

section
variable {t : Thresholds} {h : Nat} {old : ZoneState} {v : Int}

theorem judge_faulted : judge t h .faulted (some v) = .ofLevel (targetLevel t v) := rfl

/-- A level below the target's gives way to the target. -/
theorem judge_rises (level : old ≠ .faulted) (on : old ≠ .off) (below : old.level < targetLevel t v) :
    judge t h old (some v) = .ofLevel (targetLevel t v) := by
  cases old with
  | faulted => exact absurd rfl level
  | off => exact absurd rfl on
  | _ => exact if_pos below

/-- A level not below the target's falls by one at its exit threshold, and stays above it. -/
theorem judge_stays (level : 0 < old.level) (above : targetLevel t v ≤ old.level) :
    judge t h old (some v) =
      if v ≤ Thresholds.entry t old.level - h then .ofLevel (old.level - 1) else old := by
  have notBelow : ¬old.level < targetLevel t v := Nat.not_lt.mpr above
  cases old with
  | warm => exact (if_neg notBelow).trans (ite_congr (by simp [ZoneState.level]) (fun _ => rfl) fun _ => rfl)
  | hot => exact (if_neg notBelow).trans (ite_congr (by simp [ZoneState.level]) (fun _ => rfl) fun _ => rfl)
  | critical => exact (if_neg notBelow).trans (ite_congr (by simp [ZoneState.level]) (fun _ => rfl) fun _ => rfl)
  | _ => cases level

end

/-- Settles O41. -/
theorem evaluationFollowsTheTable : Obligations.EvaluationFollowsTheTable := by
  unfold Obligations.EvaluationFollowsTheTable
  intro t h old v _ _ rank target
  have target_eq : ZoneState.ofLevel (targetLevel t v) = target := by
    simp only [targetLevel, target]
    split
    · rfl
    · split
      · rfl
      · split <;> rfl
  have rank_target : rank target = targetLevel t v := by
    simp only [targetLevel, target]
    split
    · rfl
    · split
      · rfl
      · split <;> rfl
  have rank_old : rank old = old.level := by cases old <;> rfl
  have highest : targetLevel t v ≤ 3 := by
    unfold targetLevel
    split_ifs <;> omega
  refine ⟨rfl, target_eq, fun level on below => ?_, judge_stays (by decide) highest, fun le => ?_, fun le => ?_, fun zero => ?_⟩
  · rw [judge_rises level on (by rwa [← rank_old, ← rank_target]), target_eq]
  · exact judge_stays (by decide) (by rwa [← rank_target])
  · exact judge_stays (by decide) (by rwa [← rank_target])
  · rw [rank_target] at zero
    simp [judge, zero, ZoneState.level]

end Sys2Proof.Machine

/-! PROOFS. The Source Monitor: adapter, battery, setup and hand-over; the bucket at a completion (sections 6.1 to 6.6). -/

namespace Sys2Proof.Machine

/-! ## B after a recomputation of ceilings (R114) -/

theorem Grants.managed {s t : State} (h : Grants s t) : t.managed = s.managed := by rw [h.only]; rfl

theorem recomputeCeilings_effective (c : RoundCause) {s : State} (managed : s.managed = true) :
    (recomputeCeilings c s).alc.budget.effective = some (recomputeCeilings c s).formB := by
  have formed : (reformCeilings s).managed = true := by rw [(Grants.refl s).reformCeilings.managed, managed]
  have settled := recompute_effective c formed
  unfold recomputeCeilings
  dsimp only
  split
  · rw [serve_budget, settled, ((Grants.refl _).serve).formB_eq]
  · exact settled

/-! ## The hand-over of the source record (R106, R114) -/

/-- In RUNNING and DOZING a change of a value is handed over by one recomputation. -/
theorem handSource_cases (s : State) : handSource s = s ∧ (s.managed = false ∨ s.alc.budget.takeSource s.srm = s.alc.budget) ∨
    s.managed = true ∧ ∃ c, handSource s = recompute c (s.withBudget (·.takeSource s.srm)) ∨
      handSource s = recomputeCeilings c (s.withBudget (·.takeSource s.srm)) := by
  unfold handSource
  dsimp only
  split
  · next h =>
    simp only [Bool.or_eq_true, Bool.not_eq_true', decide_eq_true_eq] at h
    exact .inl ⟨rfl, h⟩
  · next h =>
    simp only [Bool.or_eq_true, Bool.not_eq_true', not_or] at h
    refine .inr ⟨by simpa using h.1, .source, ?_⟩
    split
    · exact .inl rfl
    · exact .inr rfl

section
variable {s : State}

theorem handSource_grants (s : State) :
    handSource s = s ∨ (Grants (s.withBudget (·.takeSource s.srm)) (handSource s) ∧
      Allocs True (s.withBudget (·.takeSource s.srm)) (handSource s)) := by
  rcases handSource_cases s with ⟨same, -⟩ | ⟨-, c, e | e⟩
  · exact .inl same
  · rw [e]
    exact .inr ⟨(Grants.refl _).recompute c, (Allocs.refl _).recompute c⟩
  · rw [e]
    exact .inr ⟨(Grants.refl _).recomputeCeilings c, Allocs.recomputeCeilings trivial (.refl _) c⟩

theorem handSource_only (s : State) : s.grantsOnly (handSource s) := by
  rcases handSource_grants s with same | ⟨g, -⟩
  · rw [same]
  · have e := g.only
    rw [State.grantsOnly] at e ⊢
    rw [e]
    rfl

theorem handSource_clu (s : State) : (handSource s).clu = s.clu := by
  rcases handSource_grants s with same | ⟨-, a⟩
  · rw [same]
  · exact a.clu

theorem handSource_quiet (s : State) : Quiet (fun k => k = 0x41 ∨ k = 0x42) s (handSource s) := by
  rcases handSource_grants s with same | ⟨-, a⟩
  · rw [same]
    exact .refl s
  · have stored : Quiet (fun k => k = 0x41 ∨ k = 0x42) s (s.withBudget (·.takeSource s.srm)) := .same rfl
    exact stored.trans a.quiet

theorem handSource_unmanaged (h : s.managed = false) : handSource s = s := by
  simp [handSource, h]

/-- After a hand-over the Allocator has the source record's values. -/
theorem handSource_inputs (h : s.managed = true) : (handSource s).alc.budget.sourceLimit = s.srm.sourceLimit ∧
    (handSource s).alc.budget.adapterPresent = s.srm.adapterPresent ∧
    (handSource s).alc.budget.sourceSeverity = s.srm.severity := by
  rcases handSource_cases s with ⟨same, un | taken⟩ | ⟨-, c, e⟩
  · simp [h] at un
  · rw [same, ← taken]
    exact ⟨rfl, rfl, rfl⟩
  · have grants : Grants (s.withBudget (·.takeSource s.srm)) (handSource s) := by
      rcases e with e | e <;> rw [e]
      · exact (Grants.refl _).recompute c
      · exact (Grants.refl _).recomputeCeilings c
    rw [grants.budget]
    exact ⟨rfl, rfl, rfl⟩

/-- A hand-over leaves B as it is formed from its inputs. -/
theorem handSource_effective (formed : s.alc.budget.effective = some s.formB) :
    (handSource s).alc.budget.effective = some (handSource s).formB := by
  rcases handSource_cases s with ⟨same, -⟩ | ⟨managed, c, e | e⟩
  · rw [same, formed]
  · rw [e]
    exact recompute_effective c managed
  · rw [e]
    exact recomputeCeilings_effective c managed

/-- B is formed from the Allocator's records, the limits and the active set. -/
theorem formB_congr {s t : State} (alc : t.alc = s.alc) (lst : t.lst = s.lst)
    (placement : t.plu.placement = s.plu.placement) : t.formB = s.formB := by
  simp only [State.formB, State.base, State.cap, State.active, State.activeId, State.derate, alc, lst, placement]

/-! ## Limit, severity and notice (R102, R105, R106) -/

/-- The limit formed with the reserve that the statements name. -/
theorem limit_eq {reserve : Nat} (h : s.srm.setup ≠ none → ∃ c, s.lst.chassis = some c ∧ c.systemReserve = reserve)
    (r : Srm) (setup : r.setup = s.srm.setup) : r.limit s.reserveOf = s.srm.setup.map fun u =>
      if r.adapterPresent then u.rating - reserve else if r.battery = .normal then u.discharge else u.lowLimit := by
  rw [Srm.limit, setup]
  cases hs : s.srm.setup with
  | none => rfl
  | some u =>
    obtain ⟨c, hc, e⟩ := h (by simp [hs])
    simp only [Option.map_some, State.reserveOf, hc, e]

/-- The severity follows its inputs, and SOURCE stands on every line or on none where it has changed. -/
theorem updateSeverity_facts (s : State) :
    State.linesOnly { s with srm := { s.srm with severity := s.srm.severe s.managed } } (updateSeverity s) ∧
      Quiet (· = 0x43) s (updateSeverity s) ∧
      (s.srm.severe s.managed ≠ s.srm.severity →
        ∀ n, ClampCause.source ∈ ((updateSeverity s).clu.get n).causes ↔ s.srm.severe s.managed = true) := by
  unfold updateSeverity
  dsimp only
  split
  · next same =>
    refine ⟨?_, .refl s, fun ne => absurd same ne⟩
    rw [same]
  · have stored : Quiet (· = 0x43) s (s.withSrm fun r => { r with severity := s.srm.severe s.managed }) := .same rfl
    refine ⟨?_, ?_, fun _ => six_cause _ _ _⟩
    · split
      · exact linesOnly_addCauseTo six .source (s.withSrm _)
      · exact linesOnly_withdrawCauseFrom six .source (s.withSrm _)
    · split
      · exact stored.trans (quiet_addCauseTo ..)
      · exact stored.trans (quiet_withdrawCauseFrom ..)

theorem updateSeverity_same (h : s.srm.severe s.managed = s.srm.severity) : updateSeverity s = s := if_pos h

/-- A change of presence or battery: what it stores, tells and hands over. -/
theorem sourceChanged_facts {s : State} {limit : Option Nat} {severity : Bool} (formed : s.srm.limit s.reserveOf = limit)
    (severe : s.srm.severe s.managed = severity) :
    let t := sourceChanged s
    State.grantsOnly { s with srm := { s.srm with sourceLimit := limit, severity := severity } } t ∧
      (severity ≠ s.srm.severity → ∀ n, ClampCause.source ∈ (t.clu.get n).causes ↔ severity = true) ∧
      (Notice.source s.srm.adapterPresent s.srm.battery limit ∈ t.slk.notices ∨ t.slk.dropped = true) ∧
      (s.managed = true → t.alc.budget.sourceLimit = limit ∧ t.alc.budget.adapterPresent = s.srm.adapterPresent ∧
        t.alc.budget.sourceSeverity = severity ∧
        (s.alc.budget.effective = some s.formB → t.alc.budget.effective = some t.formB)) ∧
      (s.managed = false → s.srm.severity = false → t = State.post (.source s.srm.adapterPresent s.srm.battery limit)
        { s with srm := { s.srm with sourceLimit := limit, severity := severity } }) := by
  intro t
  subst formed severe
  set limit := s.srm.limit s.reserveOf
  set severity := s.srm.severe s.managed
  obtain ⟨lines, -, cause⟩ := updateSeverity_facts (formLimit s)
  set u := updateSeverity (formLimit s) with hu
  have u_eq : u = { s with
      srm := { s.srm with sourceLimit := limit, severity := severity }, clu := u.clu
      slk := { s.slk with notices := u.slk.notices, dropped := u.slk.dropped } } := lines
  have srm : u.srm = { s.srm with sourceLimit := limit, severity := severity } := by rw [u_eq]
  have managed : u.managed = s.managed := by rw [u_eq]; rfl
  have told : postSource u = u.post (.source s.srm.adapterPresent s.srm.battery limit) := by rw [postSource, srm]
  have t_eq : t = handSource (u.post (.source s.srm.adapterPresent s.srm.battery limit)) := congrArg handSource told
  rw [t_eq]
  refine ⟨?_, fun differs n => ?_, (handSource_quiet _).waits (by simp [Notice.kind]) (post_waits _ u), fun m => ?_, fun un off => ?_⟩
  · have only := handSource_only (u.post (.source s.srm.adapterPresent s.srm.battery limit))
    rw [State.grantsOnly] at only ⊢
    rw [only, State.post, slk_post_eq, u_eq]
  · rw [handSource_clu]
    exact cause differs n
  · obtain ⟨limit', adapter, severity'⟩ := handSource_inputs (s := u.post (.source s.srm.adapterPresent s.srm.battery limit))
      (managed.trans m)
    have srm' : (u.post (.source s.srm.adapterPresent s.srm.battery limit)).srm = u.srm := rfl
    rw [srm', srm] at limit' adapter severity'
    refine ⟨limit', adapter, severity', fun formed => handSource_effective ?_⟩
    have alc : u.alc = s.alc := by rw [u_eq]
    have same : (u.post (.source s.srm.adapterPresent s.srm.battery limit)).formB = s.formB :=
      formB_congr alc (by rw [u_eq]; rfl) (by rw [u_eq]; rfl)
    rw [same, State.post_alc, alc, formed]
  · have clear : severity = false := by simp [severity, Srm.severe, un]
    have quiet : u = formLimit s := updateSeverity_same (by
      show severity = s.srm.severity
      rw [clear, off])
    have still := handSource_unmanaged (s := u.post (.source s.srm.adapterPresent s.srm.battery limit)) (managed.trans un)
    rw [still, quiet, clear, ← off]
    rfl

end

/-! ## The battery (R104) -/

section
variable {u : SourceSetup} (h : u.criticalThreshold < u.lowThreshold) (hyst : 0 < u.hysteresis) (v : Nat)
include h hyst

theorem batteryAfter_normal : batteryAfter u v .normal =
    if v ≤ u.criticalThreshold then .critical else if v ≤ u.lowThreshold then .low else .normal := by
  by_cases low : v ≤ u.lowThreshold
  · have below : ¬u.lowThreshold + u.hysteresis ≤ v := by omega
    simp [batteryAfter, batteryStep, low, below]
  · have above : ¬v ≤ u.criticalThreshold := by omega
    simp [batteryAfter, batteryStep, low, above]

omit h in
theorem batteryAfter_low : batteryAfter u v .low =
    if u.lowThreshold + u.hysteresis ≤ v then .normal else if v ≤ u.criticalThreshold then .critical else .low := by
  by_cases high : u.lowThreshold + u.hysteresis ≤ v
  · have above : ¬v ≤ u.lowThreshold := by omega
    simp [batteryAfter, batteryStep, high, above]
  · by_cases critical : v ≤ u.criticalThreshold
    · have below : ¬u.criticalThreshold + u.hysteresis ≤ v := by omega
      simp [batteryAfter, batteryStep, high, critical, below]
    · simp [batteryAfter, batteryStep, high, critical]

theorem batteryAfter_critical : batteryAfter u v .critical =
    if u.lowThreshold + u.hysteresis ≤ v then .normal
    else if u.criticalThreshold + u.hysteresis ≤ v then .low else .critical := by
  by_cases rises : u.criticalThreshold + u.hysteresis ≤ v
  · have above : ¬v ≤ u.criticalThreshold := by omega
    simp [batteryAfter, batteryStep, rises, above]
  · have below : ¬u.lowThreshold + u.hysteresis ≤ v := by omega
    simp [batteryAfter, batteryStep, rises, below]

end

theorem evaluated_absent {c : Completion} {r : Srm} {u : SourceSetup} (setup : r.setup = some u)
    (absent : c.values.get u.batteryChannel = none) : r.evaluated c = r.battery := by
  simp [Srm.evaluated, setup, Completion.magnitude, absent]

theorem evaluated_present {c : Completion} {r : Srm} {u : SourceSetup} {v : Nat} (setup : r.setup = some u)
    (present : c.values.get u.batteryChannel = some (v : Int)) : r.evaluated c = batteryAfter u v r.battery := by
  simp [Srm.evaluated, setup, Completion.magnitude, present]

/-- Settles O43. -/
theorem sourceFollowsAdapterAndBattery : Obligations.SourceFollowsAdapterAndBattery := by
  unfold Obligations.SourceFollowsAdapterAndBattery
  refine ⟨fun s reserve third chassis => ?_, fun s c reserve chassis => ?_, fun c r u setup order hyst => ⟨?_, fun v value => ?_⟩⟩
  · intro due present filtered limit severity srm
    have level : (filtered.plu.adp.accepted == .high) = present := by
      show ((if present = true then Level.high else .low) == .high) = present
      cases present <;> rfl
    have accepted : (s.reach due).withPlu (fun r => { r with adp := r.adp.accept }) = filtered := by
      have flip : Level.flip s.plu.adp.accepted = if present then .high else .low := by
        cases h : s.plu.adp.accepted <;> simp [present, h, Level.flip]
      simp only [State.withPlu, State.reach_plu, LineFilter.accept, flip]
      rfl
    have row : exec .adpChange s = .next (deliverAdapter present filtered) := by
      show Host.Outcome.next (atExpiry s.plu.adp.changeDue changeAdp s) = _
      rw [changeDue_eq third]
      show Host.Outcome.next (changeAdp (s.reach due)) = _
      rw [changeAdp, accepted, level]
    refine ⟨fun same => row.trans (congrArg _ (if_pos same)), fun differs => ?_⟩
    have changed : deliverAdapter present filtered =
        sourceChanged { filtered with srm := { s.srm with adapterPresent := present } } := if_neg differs
    have severe : Srm.severe s.managed { s.srm with adapterPresent := present } = severity := rfl
    obtain ⟨only, cause, told, managed, unmanaged⟩ := sourceChanged_facts
      (s := { filtered with srm := { s.srm with adapterPresent := present } }) (limit_eq chassis _ rfl) severe
    refine ⟨_, row.trans (congrArg _ changed), only, cause, told, fun m => ?_, fun un off => unmanaged un off⟩
    obtain ⟨limit', adapter, severity', effective⟩ := managed m
    exact ⟨adapter, limit', severity', fun formed => effective formed⟩
  · intro battery here limit severity srm t
    refine ⟨fun still => if_pos (by simpa using still), fun m differs => ?_⟩
    have changed : t = sourceChanged { s with srm := { s.srm with battery := battery } } :=
      if_neg (by simpa [m] using differs)
    have severe : Srm.severe s.managed { s.srm with battery := battery } = severity := by
      rw [m]
      rfl
    obtain ⟨only, cause, told, managed, -⟩ := sourceChanged_facts
      (s := { s with srm := { s.srm with battery := battery } }) (limit_eq chassis _ rfl) severe
    obtain ⟨limit', adapter, severity', effective⟩ := managed m
    rw [changed]
    exact ⟨only, adapter, limit', severity', told, fun formed => effective formed, cause⟩
  · exact evaluated_absent setup
  · rw [evaluated_present setup value]
    exact ⟨fun h => by rw [h, batteryAfter_normal order hyst], fun h => by rw [h, batteryAfter_low hyst],
      fun h => by rw [h, batteryAfter_critical order hyst]⟩

/-! ## SOURCE_SETUP (R100, R101) -/

section
variable {f : SourceFields} {s : State}

theorem sourceFieldsOk_iff : sourceFieldsOk f = true ↔ f.rating ≤ 250000 ∧ f.discharge ≤ 250000 ∧ f.lowLimit ≤ 250000 ∧
    f.lowLimit ≤ f.discharge ∧ 1 ≤ f.lowThreshold ∧ f.lowThreshold ≤ 65535 ∧ f.criticalThreshold < f.lowThreshold ∧
    50 ≤ f.hysteresis ∧ f.hysteresis ≤ 400 := by
  simp [sourceFieldsOk, and_assoc]

/-- The channels that a setup names. -/
theorem sourceChannels_named {b : Fin 16} {pair : Option (Fin 16 × Fin 16)} (hb : f.batteryChannel = b.val)
    (hp : f.pair = pair.map fun p => (p.1.val, p.2.val)) : sourceChannels f = some (b, pair) := by
  rw [sourceChannels, hb, hp, index?_val]
  cases pair with
  | none => rfl
  | some p => simp

theorem sourceChannels_none (h : ¬(f.batteryChannel < 16 ∧ ∀ p, f.pair = some p → p.1 < 16 ∧ p.2 < 16)) :
    sourceChannels f = none := by
  by_cases hb : f.batteryChannel < 16
  · cases hp : f.pair with
    | none => exact absurd ⟨hb, by simp [hp]⟩ h
    | some p =>
      have out : ¬(p.1 < 16 ∧ p.2 < 16) := fun ok => h ⟨hb, fun q hq => by
        cases hp.symm.trans hq
        exact ok⟩
      by_cases h1 : p.1 < 16
      · have h2 : ¬p.2 < 16 := fun h2 => out ⟨h1, h2⟩
        simp [sourceChannels, hp, index?, h1, h2, hb]
      · simp [sourceChannels, hp, index?, h1, hb]
  · simp [sourceChannels, index?, hb]

theorem sourceSetup_prepare (h : s.lst.chassis = none) : sourceSetup f s = (s, .only .notReady) := by
  simp [sourceSetup, h, refuse]

variable (locked : s.lst.chassis ≠ none)
include locked

theorem sourceSetup_badField (bad : ¬sourceFieldsOk f = true) : sourceSetup f s = (s, .only .badField) := by
  rw [sourceSetup, if_neg (by simpa using locked)]
  exact if_pos (by simpa using bad)

theorem sourceSetup_checked (ok : sourceFieldsOk f = true) : sourceSetup f s = match sourceChannels f with
    | none => refuse .noSuch s
    | some (b, pair) =>
      if !sourceKindsOk s b pair then refuse .conflict s
      else
        let t := storeSource
          { rating := f.rating, discharge := f.discharge, lowLimit := f.lowLimit, batteryChannel := b
            lowThreshold := f.lowThreshold, criticalThreshold := f.criticalThreshold, hysteresis := f.hysteresis
            pair := pair } s
        (t, { status := .ok, body := .sourceLimit t.srm.sourceLimit }) := by
  rw [sourceSetup, if_neg (by simpa using locked)]
  exact if_neg (by simpa using ok)

theorem sourceSetup_noSuch (ok : sourceFieldsOk f = true) (none : sourceChannels f = none) :
    sourceSetup f s = (s, .only .noSuch) := by
  rw [sourceSetup_checked locked ok, none]
  rfl

variable {b : Fin 16} {pair : Option (Fin 16 × Fin 16)} (ok : sourceFieldsOk f = true)
  (named : sourceChannels f = some (b, pair))
include ok named

theorem sourceSetup_conflict (unfit : ¬sourceKindsOk s b pair = true) : sourceSetup f s = (s, .only .conflict) := by
  rw [sourceSetup_checked locked ok, named]
  exact if_pos (by simpa using unfit)

theorem sourceSetup_good (fit : sourceKindsOk s b pair = true) : sourceSetup f s =
    (storeSource
      { rating := f.rating, discharge := f.discharge, lowLimit := f.lowLimit, batteryChannel := b
        lowThreshold := f.lowThreshold, criticalThreshold := f.criticalThreshold, hysteresis := f.hysteresis
        pair := pair } s,
      { status := .ok, body := .sourceLimit (storeSource
        { rating := f.rating, discharge := f.discharge, lowLimit := f.lowLimit, batteryChannel := b
          lowThreshold := f.lowThreshold, criticalThreshold := f.criticalThreshold, hysteresis := f.hysteresis
          pair := pair } s).srm.sourceLimit }) := by
  rw [sourceSetup_checked locked ok, named]
  exact if_neg (by simpa using fit)

end

/-- Settles O44. -/
theorem sourceSetupReplacesTheSetup : Obligations.SourceSetupReplacesTheSetup := by
  unfold Obligations.SourceSetupReplacesTheSetup
  intro dt tag f s takes refused good exist
  have refusal : ∀ {st}, sourceSetup f (s.elapse dt) = (s.elapse dt, .only st) → refused st := fun h => owner_answers takes h
  refine ⟨fun h => refusal (sourceSetup_prepare h), fun locked bad => refusal (sourceSetup_badField locked
      (mt sourceFieldsOk_iff.mp bad)), fun locked ok missing => refusal (sourceSetup_noSuch locked
      (sourceFieldsOk_iff.mpr ok) (sourceChannels_none missing)), fun c b pair chassis ok hb hp => ?_⟩
  intro kind fits
  have locked : (s.elapse dt).lst.chassis ≠ none := by
    show s.lst.chassis ≠ none
    simp [chassis]
  have named := sourceChannels_named hb hp
  have fits_iff : sourceKindsOk (s.elapse dt) b pair = true ↔ fits := by
    cases pair <;> simp [sourceKindsOk, State.kindIs, fits, kind]
  refine ⟨fun unfit => refusal (sourceSetup_conflict locked (sourceFieldsOk_iff.mpr ok) named (mt fits_iff.mp unfit)),
    fun fit => ?_⟩
  intro limit stored
  have accepted := sourceSetup_good locked (sourceFieldsOk_iff.mpr ok) named (fits_iff.mpr fit)
  have formed : formLimit ((s.elapse dt).withSrm fun r => { r with setup := stored.srm.setup }) = stored := by
    simp only [formLimit, State.withSrm, Srm.limit, State.reserveOf, State.elapse_lst, chassis]
    rfl
  rw [storeSource, show formLimit ((s.elapse dt).withSrm _) = stored from formed] at accepted
  have only := handSource_only stored
  have srm : (handSource stored).srm.sourceLimit = some limit := by
    rw [State.grantsOnly] at only
    rw [only]
  rw [srm] at accepted
  exact ⟨handSource stored, owner_answers takes accepted, only, handSource_clu stored,
    fun un => handSource_unmanaged un, fun m => (handSource_inputs (s := stored) m).1⟩

/-! ## The bucket at a completion (R109, R110) -/

/-- The armed flag weighed, in the words of the statements. -/
theorem weighArmed_iff {l : LimitSet} {armed : Bool} {credit : Nat} : weighArmed l armed credit = true ↔
    if armed then 0 < credit ∧ 0 < l.bucket else 0 < l.bucket ∧ l.bucket * l.rearm ≤ credit * 100 := by
  have rounded : rearmAt l ≤ credit ↔ l.bucket * l.rearm ≤ credit * 100 := by
    unfold rearmAt
    generalize l.bucket * l.rearm = n
    omega
  cases armed
  · simp [weighArmed, rounded]
  · simp [weighArmed, Nat.pos_iff_ne_zero]

theorem platformPower_pair {s : State} {c : Completion} {u : SourceSetup} {i v : Fin 16} {x y : Nat}
    (setup : s.srm.setup = some u) (pair : u.pair = some (i, v)) (hi : c.states.get i = .valid)
    (hv : c.states.get v = .valid) (hx : c.values.get i = some (Int.ofNat x)) (hy : c.values.get v = some (Int.ofNat y)) :
    platformPower s c = x * y / 1000 := by
  simp [platformPower, pairPower, setup, pair, hi, hv, Completion.magnitude, hx, hy]

theorem pairPower_none {s : State} {c : Completion} (h : ∀ u i v, s.srm.setup = some u → u.pair = some (i, v) →
    c.states.get i ≠ .valid ∨ c.states.get v ≠ .valid ∨ c.values.get i = none ∨ c.values.get v = none) :
    pairPower s c = none := by
  cases setup : s.srm.setup with
  | none => simp [pairPower, setup]
  | some u =>
    cases pair : u.pair with
    | none => simp [pairPower, setup, pair]
    | some p =>
      obtain ⟨i, v⟩ := p
      rcases h u i v setup pair with hi | hv | hi | hv
      · simp [pairPower, setup, pair, hi]
      · simp [pairPower, setup, pair, hv]
      · simp [pairPower, setup, pair, Completion.magnitude, hi]
      · simp [pairPower, setup, pair, Completion.magnitude, hv]

/-- Settles O46. -/
theorem creditAndArmingFollowTheCompletion : Obligations.CreditAndArmingFollowTheCompletion := by
  unfold Obligations.CreditAndArmingFollowTheCompletion
  intro c dtMs s managed l b t delta credit
  have stored_eq : t = if weighArmed l b.armed credit = b.armed
      then s.withBudget fun x => { x with credit := credit, armed := weighArmed l b.armed credit }
      else recompute .burst (s.withBudget fun x => { x with credit := credit, armed := weighArmed l b.armed credit }) := rfl
  set stored := s.withBudget fun x => { x with credit := credit, armed := weighArmed l b.armed credit } with hstored
  have grants : Grants stored t := by
    rw [stored_eq]
    split
    · exact .refl _
    · exact (Grants.refl _).recompute .burst
  have clu : t.clu = s.clu := by
    rw [stored_eq]
    split
    · rfl
    · exact recompute_clu ..
  have armed : t.alc.budget.armed = weighArmed l b.armed credit := by rw [grants.budget]; rfl
  refine ⟨by rw [grants.budget]; rfl, by rw [armed]; exact weighArmed_iff, fun changed => ?_, fun same => ?_, ?_, clu,
    fun u i v x y => platformPower_pair, fun none => ?_⟩
  · rw [armed] at changed
    rw [stored_eq, if_neg changed]
    exact recompute_effective _ managed
  · rw [armed] at same
    rw [stored_eq, if_pos same, hstored, same]
    rfl
  · have only := grants.only
    rw [State.grantsOnly] at only ⊢
    rw [only]
    rfl
  · rw [platformPower, pairPower_none none]
    simp only [Alc.sumDomains, sumSix, List.map_cons, List.map_nil, List.sum_cons, List.sum_nil, Nat.add_zero, Nat.add_assoc]
    rfl

end Sys2Proof.Machine

/-! PROOFS. Fans: tachometer, ramp and PWM, the timers of spin-up, stall and retry, and the fan requests (chapter 9). -/

namespace Sys2Proof.Machine

/-! ## A fan's record replaced (R165) -/

/-- The state with a fan's record replaced. -/
def State.stored (n : Fin 2) (g : Fan) (s : State) : State := { s with fnc := { s.fnc with fans := s.fnc.fans.set n g } }

section
variable {n : Fin 2} {g : Fan} {s : State}

/-- Neither state nor claim changes: the record alone does. -/
theorem setFan_stored (same : (s.fnc.fans.get n).state.same g.state = true)
    (claim : (s.fnc.fans.get n).state.claim = g.state.claim) : setFan n g s = s.stored n g := by
  simp only [setFan, same, claim, if_true]
  rfl

/-- The state changes and the claim does not: a notice. -/
theorem setFan_told (differs : (s.fnc.fans.get n).state.same g.state = false)
    (claim : (s.fnc.fans.get n).state.claim = g.state.claim) : setFan n g s = (s.stored n g).post (g.notice n) := by
  simp only [setFan, differs, claim, if_true, Bool.false_eq_true, if_false]
  rfl

/-- The claim changes: it is handed over, after the notice where the state changes. -/
theorem setFan_claims (claim : (s.fnc.fans.get n).state.claim ≠ g.state.claim) : ∃ t : State,
    setFan n g s = handDerate n g.state.claim t ∧ (s.stored n g).noticesOnly t := by
  refine ⟨if (s.fnc.fans.get n).state.same g.state then s.stored n g else (s.stored n g).post (g.notice n), if_neg claim, ?_⟩
  split
  · rfl
  · exact noticesOnly_post _ _

end

/-- A claim handed over: what it reaches, and what of the budget record it leaves. -/
theorem handDerate_facts (n : Fin 2) (v : Bool) (s : State) :
    s.grantsOnly (handDerate n v s) ∧ (handDerate n v s).clu = s.clu ∧
      (handDerate n v s).alc.budget.derates = s.alc.budget.derates.set n v ∧
      (s.managed = false → (handDerate n v s).alc =
        { s.alc with budget := { s.alc.budget with derates := s.alc.budget.derates.set n v } }) := by
  have grants : Grants (s.withBudget fun b => { b with derates := b.derates.set n v }) (handDerate n v s) :=
    (Grants.refl _).recompute .fan
  have only := grants.only
  refine ⟨?_, handDerate_clu n v s, by rw [grants.budget]; rfl, fun un => ?_⟩
  · rw [State.grantsOnly] at only ⊢
    rw [only]
    rfl
  · have off : ¬s.managed = true := by simp [un]
    exact congrArg State.alc (if_neg (by exact off))

/-- A fan whose claim changes, as a whole. -/
theorem setFan_claims_facts {n : Fin 2} {g : Fan} {s : State} (claim : (s.fnc.fans.get n).state.claim ≠ g.state.claim) :
    (s.stored n g).grantsOnly (setFan n g s) ∧ (setFan n g s).clu = s.clu ∧
      (setFan n g s).alc.budget.derates = s.alc.budget.derates.set n g.state.claim ∧
      (s.managed = false → (setFan n g s).alc =
        { s.alc with budget := { s.alc.budget with derates := s.alc.budget.derates.set n g.state.claim } }) := by
  obtain ⟨t, e, told⟩ := setFan_claims claim
  obtain ⟨only, clu, derates, unmanaged⟩ := handDerate_facts n g.state.claim t
  rw [State.noticesOnly] at told
  have alc : t.alc = s.alc := by rw [told]; rfl
  rw [e]
  refine ⟨?_, clu.trans (by rw [told]; rfl), by rw [derates, alc], fun un => ?_⟩
  · rw [State.grantsOnly] at only ⊢
    rw [only, told]
  · have off : t.managed = false := by
      rw [told]
      exact un
    rw [unmanaged off, alc]

/-! ## TACH_EDGE, SPEED_TIMEOUT, ramp and PWM (R158, R159, R161) -/

theorem FanState.same_self (x : FanState) : x.same x = true := by cases x <;> rfl

theorem speedAt_uncounted {f : Fan} {now : Nat} (h : f.lastEdge = none ∨ f.periodOpen = false) : f.speedAt now = none := by
  rcases h with h | h
  · simp [Fan.speedAt, h]
  · cases e : f.lastEdge <;> simp [Fan.speedAt, e, h]

theorem speedAt_long {f : Fan} {x now : Nat} (edge : f.lastEdge = some x) (long : x + 1000000 < now) :
    f.speedAt now = none := by
  have gap : ¬now - x ≤ sec 1 := by
    simp only [sec]
    omega
  simp [Fan.speedAt, edge, gap]

theorem speedAt_counted {f : Fan} {x now : Nat} (open_ : f.periodOpen = true) (edge : f.lastEdge = some x) (lt : x < now)
    (short : now ≤ x + 1000000) : f.speedAt now = some (60000000 / ((now - x) * f.ppr)) := by
  have gap : now - x ≤ sec 1 := by
    simp only [sec]
    omega
  have period : now - x ≠ 0 := by omega
  simp [Fan.speedAt, edge, open_, gap, speedOf, period]

/-- Settles O55. -/
theorem tachometerRampAndPwm : Obligations.TachometerRampAndPwm := by
  unfold Obligations.TachometerRampAndPwm
  intro dt e n v s f now gives captured turning stored
  have speed : gives → f.speedAt now = v := by
    rintro (⟨uncounted, rfl⟩ | ⟨-, x, edge, long, rfl⟩ | ⟨open_, x, edge, lt, short, rfl⟩)
    · exact speedAt_uncounted uncounted
    · exact speedAt_long edge long
    · exact speedAt_counted open_ edge lt short
  have capture : gives → f.capture now = captured := fun h => by rw [Fan.capture, speed h]
  have row : ∀ {g}, f.edge now = g → exec (.tachEdge dt n) s = .next (setFan n g (s.elapse dt)) := by
    rintro g rfl
    rfl
  refine ⟨fun h notRunning notProving => ?_, fun h running => ?_, fun h proving => ?_, fun open_ edge => ?_, rfl, rfl, ?_,
    rfl⟩
  · have edge : f.edge now = captured := by
      rw [← capture h, Fan.edge]
      split
      · next r => exact absurd r notRunning
      · next p => exact absurd p notProving
      · rfl
    exact (row edge).trans (congrArg _ (setFan_stored (FanState.same_self _) rfl))
  · have edge : f.edge now = turning := by
      rw [Fan.edge, running, capture h]
      rfl
    refine (row edge).trans (congrArg _ (setFan_stored ?_ ?_))
    · rw [show ((s.elapse dt).fnc.fans.get n).state = .running from running]
      rfl
    · rw [show ((s.elapse dt).fnc.fans.get n).state = .running from running]
  · have edge : f.edge now = turning := by
      rw [Fan.edge, proving, capture h]
      rfl
    have claim : ((s.elapse dt).fnc.fans.get n).state.claim ≠ turning.state.claim := by
      rw [show ((s.elapse dt).fnc.fans.get n).state = .spinup .retry .proving from proving]
      exact Bool.noConfusion
    obtain ⟨only, clu, derates, -⟩ := setFan_claims_facts claim
    refine ⟨_, row edge, only, clu, ?_⟩
    rw [derates, get_set, if_pos rfl]
    rfl
  · show Host.Outcome.next (atExpiry f.speedDue _ s) = _
    have due : f.speedDue = some (e + 1000000) := by simp [Fan.speedDue, open_, edge, sec]
    rw [due]
    rfl
  · simp [State.fanPin, State.pwmOut, pwmHigh]

/-! ## The timers (R162 to R164) -/

/-- A detection reaches the fault record of its kind and the notices. -/
theorem detect_only (k : FaultKind) (x : Nat) (s : State) :
    let faults := s.mdc.faults.set k.index { s.mdc.faults.get k.index with detected := true, subject := some x }
    ({ s with mdc := { s.mdc with faults := faults } } : State).noticesOnly (detect k x s) ∧
      (detect k x s).mdc.faults = faults := by
  unfold detect
  dsimp only
  split
  · exact ⟨noticesOnly_post _ _, rfl⟩
  · exact ⟨rfl, rfl⟩


/-- Settles O56: timer by timer. -/
theorem fansSpinUpStallAndRetry : Obligations.FansSpinUpStallAndRetry := by
  unfold Obligations.FansSpinUpStallAndRetry
  intro n e s f now stored told
  have fan : (s.reach e).fnc.fans.get n = f := rfl
  have tells : ∀ {g : Fan}, f.state.same g.state = false → f.state.claim = g.state.claim →
      (Host.Outcome.next (setFan n g (s.reach e)) : Host.Outcome State Fault Refusal) = .next (told g) := fun same claim =>
    congrArg _ (setFan_told same claim)
  refine ⟨fun kick due => ?_, fun kick due => ?_, fun proving due => ?_, fun stalled due => ?_, fun running due => ?_⟩
  · have timer : f.phaseDue .ordinary .kick = some e := by simp [Fan.phaseDue, kick, due]
    show Host.Outcome.next (atExpiry (f.phaseDue .ordinary .kick) _ s) = _
    rw [timer]
    exact tells (by rw [kick]; rfl) (by rw [kick]; rfl)
  · have timer : f.phaseDue .retry .kick = some e := by simp [Fan.phaseDue, kick, due]
    show Host.Outcome.next (atExpiry (f.phaseDue .retry .kick) _ s) = _
    rw [timer]
    refine congrArg _ (setFan_stored ?_ ?_)
    · rw [fan, kick]
      rfl
    · rw [fan, kick]
      rfl
  · have timer : f.phaseDue .retry .proving = some e := by simp [Fan.phaseDue, proving, due]
    show Host.Outcome.next (atExpiry (f.phaseDue .retry .proving) _ s) = _
    rw [timer]
    have failed : f.failAttempt now = { f with
        state := .stalled, duty := 0, phaseTimer := none
        retryTimer := if f.attempts < 3 then some (now + 5000000) else none
        finalFlag := if f.attempts = 3 then true else f.finalFlag } := by
      rw [Fan.failAttempt]
      by_cases third : f.attempts = 3 <;> simp [third, sec]
    refine Eq.trans ?_ (tells (by rw [proving]; rfl) (by rw [proving]; rfl))
    rw [← failed]
    rfl
  · have timer : f.retryDue = some e := by simp [Fan.retryDue, stalled, due]
    show Host.Outcome.next (atExpiry f.retryDue _ s) = _
    rw [timer]
    exact tells (by rw [stalled]; rfl) (by rw [stalled]; rfl)
  · intro g
    have timer : f.stallDue = some e := by simp [Fan.stallDue, running, due]
    have claim : ((s.reach e).fnc.fans.get n).state.claim ≠ g.state.claim := by
      rw [fan, running]
      exact Bool.noConfusion
    obtain ⟨only, clu, derates, unmanaged⟩ := setFan_claims_facts claim
    have row : exec (.stallTimerExpiry n) s = .next (detect .fanStall n (setFan n g (s.reach e))) := by
      show Host.Outcome.next (atExpiry f.stallDue (stallFan n) s) = _
      rw [timer]
      rfl
    obtain ⟨notices, faults⟩ := detect_only .fanStall n (setFan n g (s.reach e))
    rw [State.noticesOnly] at notices
    rw [State.grantsOnly] at only
    refine ⟨_, row, ?_, ?_, ?_, ?_, fun un => ?_⟩
    · rw [State.grantsOnly, notices, only]
      rfl
    · rw [notices]
      exact clu
    · rw [notices]
      show (setFan n g (s.reach e)).alc.budget.derates.get n = true
      rw [derates, get_set, if_pos rfl]
      rfl
    · rw [faults, only]
      rfl
    · rw [notices]
      exact unmanaged un

/-! ## FAN_SETUP and FAN_RETRY (R166, R167) -/

theorem stored_stored (n : Fin 2) (f g : Fan) (s : State) : (s.stored n f).stored n g = s.stored n g := by
  have set : ∀ v : Vector Fan 2, (v.set n f).set n g = v.set n g := fun v => table_ext fun m => by
    rw [get_set, get_set, get_set]
    split <;> rfl
  simp only [State.stored, set]

theorem stored_get (n : Fin 2) (g : Fan) (s : State) : (s.stored n g).fnc.fans.get n = g := by
  rw [State.stored, get_set, if_pos rfl]

/-- Outside RUNNING and DOZING the target is guard duty (R160, R169). -/
theorem targetOf_guard {n : Fin 2} {s : State} (h : s.managed = false) (low : (s.fnc.fans.get n).minDuty ≤ 60) :
    s.targetOf n = 60 := by
  simp [State.targetOf, State.rawTarget, h, guardDuty, Fan.heldTarget, low]

section
variable {fan ppr minDuty : Nat} {enabled : Bool} {s : State} (open_ : s.managed = false)
include open_

theorem fanSetup_noSuch (big : 2 ≤ fan) : fanSetup fan enabled ppr minDuty s = (s, .only .noSuch) := by
  rw [fanSetup, open_, index?_none big]
  rfl

theorem fanSetup_badField (small : fan < 2) (bad : ¬(1 ≤ ppr ∧ ppr ≤ 4 ∧ 10 ≤ minDuty ∧ minDuty ≤ 60)) :
    fanSetup fan enabled ppr minDuty s = (s, .only .badField) := by
  have number : index? 2 fan = some ⟨fan, small⟩ := dif_pos small
  have out : ppr < 1 ∨ 4 < ppr ∨ minDuty < 10 ∨ 60 < minDuty := by omega
  rw [fanSetup, open_, number]
  exact if_pos out

variable {n : Fin 2} (good : 1 ≤ ppr ∧ ppr ≤ 4 ∧ 10 ≤ minDuty ∧ minDuty ≤ 60)
include good

theorem fanSetup_good : fanSetup n.val enabled ppr minDuty s =
    let g := { s.fnc.fans.get n with ppr := ppr, minDuty := minDuty }
    if enabled then (applyTarget n (setFan n g.enable s), .only .ok) else (setFan n g.disable s, .only .ok) := by
  have within : ¬(ppr < 1 ∨ 4 < ppr ∨ minDuty < 10 ∨ 60 < minDuty) := by omega
  rw [fanSetup, open_, index?_val]
  exact if_neg within

end

section
variable {n : Fin 2} {g : Fan} {s : State}

/-- A fan disabled: whether or not it held a derate claim. -/
theorem setFan_disable : (s.stored n g.disable).grantsOnly (setFan n g.disable s) ∧ (setFan n g.disable s).clu = s.clu ∧
    (s.managed = false → (setFan n g.disable s).alc = { s.alc with budget := { s.alc.budget with
      derates := if (s.fnc.fans.get n).state.claim then s.alc.budget.derates.set n false else s.alc.budget.derates } }) := by
  cases claim : (s.fnc.fans.get n).state.claim with
  | true =>
    obtain ⟨only, clu, -, unmanaged⟩ := setFan_claims_facts (n := n) (g := g.disable) (s := s) (by
      rw [claim]
      exact Bool.noConfusion)
    exact ⟨only, clu, unmanaged⟩
  | false =>
    have none : (s.fnc.fans.get n).state.claim = g.disable.state.claim := claim
    cases same : (s.fnc.fans.get n).state.same g.disable.state with
    | true =>
      rw [setFan_stored same none]
      exact ⟨rfl, rfl, fun _ => rfl⟩
    | false =>
      rw [setFan_told same none]
      have notices := noticesOnly_post (g.disable.notice n) (s.stored n g.disable)
      rw [State.noticesOnly] at notices
      refine ⟨?_, rfl, fun _ => rfl⟩
      rw [State.grantsOnly, notices]

/-- A fan that keeps its state keeps it under a target above 0. -/
theorem applyTarget_keeps (h : s.managed = false) (low : (s.fnc.fans.get n).minDuty ≤ 60)
    (on : (s.fnc.fans.get n).enabled = true) (off : (s.fnc.fans.get n).state ≠ .off)
    (turning : (s.fnc.fans.get n).state ≠ .stopped) :
    applyTarget n s = s.stored n { s.fnc.fans.get n with target := 60 } := by
  have follow : (s.fnc.fans.get n).follow 60 s.now = { s.fnc.fans.get n with target := 60 } := by
    unfold Fan.follow
    split
    · next h => exact absurd h off
    · next h => exact absurd h turning
    · rfl
  rw [applyTarget, if_pos on, targetOf_guard h low, follow]
  exact setFan_stored (FanState.same_self _) rfl

/-- A stopped fan is kicked. -/
theorem applyTarget_kicks (h : s.managed = false) (low : (s.fnc.fans.get n).minDuty ≤ 60)
    (on : (s.fnc.fans.get n).enabled = true) (stopped : (s.fnc.fans.get n).state = .stopped) :
    (s.stored n (({ s.fnc.fans.get n with target := 60 } : Fan).kick .ordinary s.now)).noticesOnly (applyTarget n s) := by
  have follow : (s.fnc.fans.get n).follow 60 s.now =
      ({ s.fnc.fans.get n with target := 60 } : Fan).kick .ordinary s.now := by
    simp [Fan.follow, stopped]
  rw [applyTarget, if_pos on, targetOf_guard h low, follow, setFan_told (by rw [stopped]; rfl) (by rw [stopped]; rfl)]
  exact noticesOnly_post _ _

end

theorem noticesOnly_trans {s t u : State} (h : s.noticesOnly t) (k : t.noticesOnly u) : s.noticesOnly u := by
  unfold State.noticesOnly at *
  rw [k, h]

theorem noticesOnly_stored {s t : State} (n : Fin 2) (g : Fan) (h : s.noticesOnly t) :
    (s.stored n g).noticesOnly (t.stored n g) := by
  unfold State.noticesOnly at *
  rw [h]
  rfl

theorem fanRetry_on {n : Fin 2} {s : State} (on : (s.fnc.fans.get n).state ≠ .off) : fanRetry n.val s =
    (setFan n ((s.fnc.fans.get n).retryNow s.now) s,
      { status := .ok, body := fanStateBody n (setFan n ((s.fnc.fans.get n).retryNow s.now) s) }) := by
  rw [fanRetry, index?_val]
  exact if_neg on

/-- Settles O57. -/
theorem fanRequestsActByTheState : Obligations.FanRequestsActByTheState := by
  unfold Obligations.FanRequestsActByTheState
  intro dt tag fan ppr minDuty enabled s takes now good setup answers at_
  have answer : ∀ {st u}, fanSetup fan enabled ppr minDuty (s.elapse dt) = (u, .only st) → answers setup 0x3C st u :=
    fun h => owner_answers takes h
  have refusal : ∀ {st u}, fanRetry fan (s.elapse dt) = (u, .only st) → answers (.fanRetry dt tag fan) 0x3D st u :=
    fun h => owner_answers takes h
  refine ⟨fun managed => answer (if_pos managed), fun open_ big => answer (fanSetup_noSuch open_ big),
    fun open_ small bad => answer (fanSetup_badField open_ small bad), fun big => refusal ?_, ?_⟩
  · rw [fanRetry, index?_none big]
    rfl
  rintro n rfl f g off kicked retried replies
  have stored_eq : ∀ x, (s.elapse dt).stored n x = at_ n x := fun _ => rfl
  have fan : (s.elapse dt).fnc.fans.get n = f := rfl
  have reply : ∀ {x t}, f.state ≠ .off → f.retryNow now = x → setFan n x (s.elapse dt) = t → t.fnc.fans.get n = x →
      replies x t := by
    rintro x t on rfl rfl get
    have h := fanRetry_on (n := n) (s := s.elapse dt) on
    rw [fanStateBody, show (setFan n ((s.elapse dt).fnc.fans.get n |>.retryNow (s.elapse dt).now) (s.elapse dt)).fnc.fans.get n
      = f.retryNow now from get] at h
    exact owner_answers takes h
  refine ⟨fun open_ ok disabled => ?_, fun open_ ok on isOff => ?_, fun open_ ok on notOff notStopped => ?_, fun isOff => ?_,
    fun stalled => ?_, fun p spinup => ?_, fun other => ?_⟩
  · have h := fanSetup_good (n := n) (enabled := enabled) (s := s.elapse dt) open_ ok
    rw [disabled] at h
    obtain ⟨only, clu, alc⟩ := setFan_disable (n := n) (g := g) (s := s.elapse dt)
    exact ⟨_, answer (by rw [disabled]; exact h), only, clu, alc open_⟩
  · have h := fanSetup_good (n := n) (enabled := enabled) (s := s.elapse dt) open_ ok
    rw [on] at h
    have enable : g.enable = { g with enabled := true, state := .stopped } := by
      simp [Fan.enable, g, isOff]
    have told := setFan_told (n := n) (g := g.enable) (s := s.elapse dt)
      (by rw [fan, isOff, enable]; rfl) (by rw [fan, isOff, enable]; rfl)
    set u := setFan n g.enable (s.elapse dt) with hu
    have get : u.fnc.fans.get n = { g with enabled := true, state := .stopped } := by
      rw [told, State.post_fnc, stored_get, enable]
    have managed : u.managed = false := by
      rw [told]
      exact open_
    have kicks := applyTarget_kicks (n := n) managed (by rw [get]; exact ok.2.2.2) (by rw [get]) (by rw [get])
    have now_u : u.now = now := by rw [told]; rfl
    have first : ((s.elapse dt).stored n g.enable).noticesOnly u := told ▸ noticesOnly_post _ _
    refine ⟨applyTarget n u, answer (by rw [on]; exact h), ?_⟩
    have kicked_eq : at_ n kicked = ((s.elapse dt).stored n g.enable).stored n kicked := (stored_stored ..).symm
    rw [kicked_eq]
    rw [get, now_u] at kicks
    exact noticesOnly_trans (noticesOnly_stored n kicked first) kicks
  · have h := fanSetup_good (n := n) (enabled := enabled) (s := s.elapse dt) open_ ok
    rw [on] at h
    have enable : g.enable = { g with enabled := true } := by
      unfold Fan.enable
      split
      · next isOff => exact absurd isOff notOff
      · rfl
    have stored := setFan_stored (n := n) (g := g.enable) (s := s.elapse dt)
      (by rw [fan, enable]; exact FanState.same_self _) (by rw [fan, enable])
    set u := setFan n g.enable (s.elapse dt) with hu
    have get : u.fnc.fans.get n = { g with enabled := true } := by rw [stored, stored_get, enable]
    have managed : u.managed = false := by
      rw [stored]
      exact open_
    have keeps := applyTarget_keeps (n := n) managed (by rw [get]; exact ok.2.2.2) (by rw [get])
      (by rw [get]; exact notOff) (by rw [get]; exact notStopped)
    rw [get, stored, stored_stored, ← stored] at keeps
    exact answer (by rw [on]; exact h.trans (congrArg (·, _) keeps))
  · refine refusal ?_
    rw [fanRetry, index?_val]
    exact if_pos isOff
  · have x : f.retryNow now = retried := by
      simp only [Fan.retryNow, stalled]
      rfl
    have told := setFan_told (n := n) (g := retried) (s := s.elapse dt) (by rw [fan, stalled]; rfl) (by rw [fan, stalled]; rfl)
    exact reply (by rw [stalled]; exact FanState.noConfusion) x told (stored_get ..)
  · have x : f.retryNow now = { f with attempts := 1 } := by
      simp only [Fan.retryNow, spinup]
    have stored := setFan_stored (n := n) (g := { f with attempts := 1 }) (s := s.elapse dt) (FanState.same_self _) rfl
    exact reply (by rw [spinup]; exact FanState.noConfusion) x stored (stored_get ..)
  · have x : f.retryNow now = f := by
      rcases other with h | h | ⟨p, h⟩ <;> simp only [Fan.retryNow, h]
    have stored := setFan_stored (n := n) (g := f) (s := s.elapse dt) (FanState.same_self _) rfl
    have same : (s.elapse dt).stored n f = s.elapse dt := by
      simp only [State.stored, ← fan, set_get_self]
    exact reply (by rcases other with h | h | ⟨p, h⟩ <;> (rw [h]; exact FanState.noConfusion)) x (stored.trans same) rfl

end Sys2Proof.Machine

/-! PROOFS. Lowering: what a plan's domains, the round and the raise queue are after it (R133, R140 to R143). -/

namespace Sys2Proof.Machine

/-! ## The raise queue kept in step (R130) -/

/-- A slot has an entry. -/
def Alc.entry (a : Alc) (i : Fin 6) : Prop := ∃ e ∈ a.queue, e.slot = i

/-- A slot's domain waits for a raise. -/
def Alc.waits (a : Alc) (i : Fin 6) : Bool := (a.domains.get i).any Domain.waits

/-- The raise queue is in its order with one entry a slot and the priorities of the domains, and agrees with every domain but
those of some slots. -/
structure Alc.Queued (a : Alc) (but : Fin 6 → Prop) : Prop where
  order : a.queue.Pairwise fun x y => x.before y = true
  once : (a.queue.map (·.slot)).Nodup
  fits : ∀ e ∈ a.queue, (a.domains.get e.slot).map (·.priority) = some e.priority
  waits : ∀ i, ¬but i → (a.entry i ↔ a.waits i = true)

theorem any_slot_iff {q : List QueueEntry} {i : Fin 6} : q.any (·.slot == i) = true ↔ ∃ e ∈ q, e.slot = i := by
  simp

theorem enqueue_perm (e : QueueEntry) (l : List QueueEntry) : (enqueue e l).Perm (e :: l) := by
  induction l with
  | nil => exact .refl _
  | cons a l ih =>
    rw [enqueue]
    split
    · exact .refl _
    · exact (ih.cons a).trans (.swap e a l)

theorem nodup_slots_enqueue {e : QueueEntry} {l : List QueueEntry} (h : (l.map (·.slot)).Nodup)
    (new : ∀ a ∈ l, a.slot ≠ e.slot) : ((enqueue e l).map (·.slot)).Nodup := by
  rw [((enqueue_perm e l).map _).nodup_iff, List.map_cons, List.nodup_cons]
  exact ⟨fun h => by
    obtain ⟨a, ha, same⟩ := List.mem_map.mp h
    exact new a ha same, h⟩

theorem mem_dropEntry {i : Fin 6} {q : List QueueEntry} {e : QueueEntry} : e ∈ dropEntry i q ↔ e ∈ q ∧ e.slot ≠ i := by
  simp [dropEntry]

section
variable {i : Fin 6} {s : State}

theorem syncQueue_none (slot : s.alc.domains.get i = none) : syncQueue i s = s.setQueue (dropEntry i s.alc.queue) := by
  simp [syncQueue, slot]

theorem syncQueue_still {d : Domain} (slot : s.alc.domains.get i = some d) (still : d.waits = false) :
    syncQueue i s = s.setQueue (dropEntry i s.alc.queue) := by
  have h : ¬(d.permit = .on ∧ d.held < d.wanted) := by simpa [Domain.waits] using still
  simp [syncQueue, slot, h]

theorem waits_iff {d : Domain} : d.waits = true ↔ d.permit = .on ∧ d.held < d.wanted := by simp [Domain.waits]

theorem waits_of_slot {d : Domain} (slot : s.alc.domains.get i = some d) : s.alc.waits i = d.waits := by
  simp [Alc.waits, slot]

/-- An entry of the queue brought into step. -/
theorem Alc.Queued.syncQueue {but : Fin 6 → Prop} (order : s.alc.queue.Pairwise fun x y => x.before y = true)
    (once : (s.alc.queue.map (·.slot)).Nodup)
    (fits : ∀ e ∈ s.alc.queue, e.slot ≠ i ∨ (s.alc.domains.get i).isSome = true →
      (s.alc.domains.get e.slot).map (·.priority) = some e.priority)
    (waits : ∀ j, ¬but j → j ≠ i → (s.alc.entry j ↔ s.alc.waits j = true)) :
    (Machine.syncQueue i s).alc.Queued fun j => but j ∧ j ≠ i := by
  have domains := syncQueue_domains i s
  refine ⟨pairwise_syncQueue order, ?_, fun e he => ?_, fun j hj => ?_⟩
  · unfold Machine.syncQueue
    split
    · exact once.sublist (List.Sublist.map _ List.filter_sublist)
    · split
      · split
        · exact once
        · next fresh =>
          refine nodup_slots_enqueue once fun a ha e => fresh ?_
          exact any_slot_iff.mpr ⟨a, ha, e⟩
      · exact once.sublist (List.Sublist.map _ List.filter_sublist)
  · rw [domains]
    by_cases own : e.slot = i
    · unfold Machine.syncQueue at he
      split at he
      · exact absurd own (mem_dropEntry.mp he).2
      · next d slot =>
        split at he
        · split at he
          · exact fits e he (.inr (by simp [slot]))
          · rcases mem_enqueue.mp he with rfl | he
            · simp [slot]
            · exact fits e he (.inr (by simp [slot]))
        · exact absurd own (mem_dropEntry.mp he).2
    · exact fits e ((mem_syncQueue_other own).mp he) (.inl own)
  · by_cases own : j = i
    · subst own
      rw [Alc.entry, syncQueue_waits, Alc.waits, domains]
      cases slot : s.alc.domains.get j <;> simp [waits_iff]
    · have other : (Machine.syncQueue i s).alc.entry j ↔ s.alc.entry j := by
        constructor
        · rintro ⟨e, he, rfl⟩
          exact ⟨e, (mem_syncQueue_other own).mp he, rfl⟩
        · rintro ⟨e, he, rfl⟩
          exact ⟨e, (mem_syncQueue_other own).mpr he, rfl⟩
      rw [other, Alc.waits, domains]
      exact waits j (fun b => hj ⟨b, own⟩) own

theorem entry_syncQueue_other {j : Fin 6} (other : j ≠ i) : (syncQueue i s).alc.entry j ↔ s.alc.entry j := by
  constructor
  · rintro ⟨e, he, rfl⟩
    exact ⟨e, (mem_syncQueue_other other).mp he, rfl⟩
  · rintro ⟨e, he, rfl⟩
    exact ⟨e, (mem_syncQueue_other other).mpr he, rfl⟩

end

/-! ## One domain lowered (R141) -/

section
variable {c : RoundCause} {target : Nat} {i : Fin 6} {s : State} {d : Domain}

theorem lowerOne_none (slot : s.alc.domains.get i = none) : lowerOne c target i s = s := by simp [lowerOne, slot]

theorem lowerOne_alc (slot : s.alc.domains.get i = some d) : (lowerOne c target i s).alc =
    (syncQueue i (listAffected i d.held
      (s.setDomain i (some (d.lowered target (s.deadlineFor c) (s.alc.round.lists i)))))).alc := by
  simp only [lowerOne, slot]
  rw [postGrant_alc]

theorem lowerOne_get (c : RoundCause) (target : Nat) (i j : Fin 6) (s : State) :
    (lowerOne c target i s).alc.domains.get j =
      if i = j then (s.alc.domains.get j).map fun d => d.lowered target (s.deadlineFor c) (s.alc.round.lists j)
      else s.alc.domains.get j := by
  cases slot : s.alc.domains.get i with
  | none =>
    rw [lowerOne_none slot]
    split
    · next e => rw [← e, slot]; rfl
    · rfl
  | some d =>
    rw [lowerOne_domains c target slot, get_set]
    split
    · next e => rw [← e, slot]; rfl
    · rfl

theorem lowerOne_round (slot : s.alc.domains.get i = some d) :
    (lowerOne c target i s).alc.round = s.alc.round.list i d.held := by
  rw [lowerOne_alc slot, syncQueue_round]
  rfl

theorem lists_list (r : Round) (i j : Fin 6) (old : Nat) : (r.list i old).lists j = (r.lists j || i == j) := by
  unfold Round.list
  split
  · next h =>
    by_cases e : i = j
    · subst e
      simp [h]
    · simp [e]
  · simp [Round.lists]

theorem lowerOne_lists_other {j : Fin 6} (other : i ≠ j) :
    (lowerOne c target i s).alc.round.lists j = s.alc.round.lists j := by
  cases slot : s.alc.domains.get i with
  | none => rw [lowerOne_none slot]
  | some d => rw [lowerOne_round slot, lists_list]; simp [other]

theorem lowerOne_deadlineFor (b : RoundCause) : (lowerOne c target i s).deadlineFor b = s.deadlineFor b := by
  have only := ((Grants.refl s).lowerOne c target i).only
  rw [State.grantsOnly] at only
  rw [only]
  rfl

theorem entry_lowerOne_other {j : Fin 6} (other : j ≠ i) :
    (lowerOne c target i s).alc.entry j ↔ s.alc.entry j := by
  cases slot : s.alc.domains.get i with
  | none => rw [lowerOne_none slot]
  | some d =>
    rw [lowerOne_alc slot, entry_syncQueue_other other]
    rfl

/-- Lowering keeps the queue in step with every domain but those it was out of step with. -/
theorem Alc.Queued.lowerOne {but : Fin 6 → Prop} (h : s.alc.Queued but) :
    (Machine.lowerOne c target i s).alc.Queued fun j => but j ∧ j ≠ i := by
  cases slot : s.alc.domains.get i with
  | none =>
    rw [lowerOne_none slot]
    refine ⟨h.order, h.once, h.fits, fun j hj => ?_⟩
    by_cases own : j = i
    · subst own
      refine iff_of_false (fun ⟨e, he, hs⟩ => ?_) (by simp [Alc.waits, slot])
      have := h.fits e he
      rw [hs, slot] at this
      cases this
    · exact h.waits j fun b => hj ⟨b, own⟩
  | some d =>
    rw [lowerOne_alc slot]
    refine Alc.Queued.syncQueue (but := but) h.order h.once (fun e he _ => ?_) fun j hb hj => ?_
    · show ((s.alc.domains.set i _).get e.slot).map _ = _
      rw [get_set]
      split
      · next own =>
        have := h.fits e he
        rw [← own, slot] at this
        exact this
      · exact h.fits e he
    · have same : ((s.alc.domains.set i (some (d.lowered target (s.deadlineFor c) (s.alc.round.lists i)))).get j) =
          s.alc.domains.get j := by rw [get_set, if_neg (Ne.symm hj)]
      refine (h.waits j hb).trans ?_
      simp only [Alc.waits]
      rw [← same]
      rfl

end

/-! ## A plan carried out -/

/-- The domains of a plan lowered one after the other, within the round as it stands. -/
def lowerEach (c : RoundCause) (targets : Vector Nat 6) (l : List (Fin 6)) (s : State) : State :=
  l.foldl (fun t i => lowerOne c (targets.get i) i t) s

theorem lowerAll_eq (c : RoundCause) (order : List (Fin 6)) (targets : Vector Nat 6) (s : State) :
    lowerAll c order targets s = lowerEach c targets order (joinRound c order.isEmpty s) := rfl

section
variable {c : RoundCause} {targets : Vector Nat 6} {l : List (Fin 6)}

theorem lowerEach_deadlineFor (s : State) (b : RoundCause) : (lowerEach c targets l s).deadlineFor b = s.deadlineFor b := by
  induction l generalizing s with
  | nil => rfl
  | cons i l ih => exact (ih _).trans (lowerOne_deadlineFor b)

theorem lowerEach_get (nodup : l.Nodup) (s : State) (j : Fin 6) : (lowerEach c targets l s).alc.domains.get j =
    if j ∈ l then
      (s.alc.domains.get j).map fun d => d.lowered (targets.get j) (s.deadlineFor c) (s.alc.round.lists j)
    else s.alc.domains.get j := by
  induction l generalizing s with
  | nil => rfl
  | cons i l ih =>
    obtain ⟨out, nodup⟩ := List.nodup_cons.mp nodup
    rw [lowerEach, List.foldl_cons, ← lowerEach, ih nodup, lowerOne_get]
    by_cases own : i = j
    · subst own
      simp [out]
    · rw [lowerOne_deadlineFor, lowerOne_lists_other own]
      simp [own, Ne.symm own]

/-- The round a plan leaves: the lowered domains stand in the affected list, each once, with the grant it had. -/
theorem lowerEach_round (nodup : l.Nodup) (s : State) : ∃ extra,
    (lowerEach c targets l s).alc.round = { s.alc.round with affected := s.alc.round.affected ++ extra } ∧
      (extra.map (·.slot)).Nodup ∧
      ∀ a, a ∈ extra ↔ a.slot ∈ l ∧ s.alc.round.lists a.slot = false ∧
        ∃ d, s.alc.domains.get a.slot = some d ∧ a.oldGrant = d.held := by
  induction l generalizing s with
  | nil => exact ⟨[], by simp [lowerEach], by simp, by simp⟩
  | cons i l ih =>
    obtain ⟨out, nodup⟩ := List.nodup_cons.mp nodup
    obtain ⟨extra, round, once, mem⟩ := ih nodup (lowerOne c (targets.get i) i s)
    rw [lowerEach, List.foldl_cons, ← lowerEach]
    have other : ∀ a : AffectedEntry, a.slot ∈ l → (lowerOne c (targets.get i) i s).alc.round.lists a.slot =
        s.alc.round.lists a.slot ∧ (lowerOne c (targets.get i) i s).alc.domains.get a.slot = s.alc.domains.get a.slot :=
      fun a ha => by
        have ne : i ≠ a.slot := fun e => out (e ▸ ha)
        exact ⟨lowerOne_lists_other ne, by rw [lowerOne_get, if_neg ne]⟩
    have mem' : ∀ a : AffectedEntry, a ∈ extra ↔ a.slot ∈ l ∧ s.alc.round.lists a.slot = false ∧
        ∃ d, s.alc.domains.get a.slot = some d ∧ a.oldGrant = d.held := fun a => by
      rw [mem]
      constructor
      · rintro ⟨ha, rest⟩
        rw [(other a ha).1, (other a ha).2] at rest
        exact ⟨ha, rest⟩
      · rintro ⟨ha, rest⟩
        rw [← (other a ha).1, ← (other a ha).2] at rest
        exact ⟨ha, rest⟩
    cases slot : s.alc.domains.get i with
    | none =>
      refine ⟨extra, by rw [round, lowerOne_none slot], once, fun a => ?_⟩
      rw [mem', List.mem_cons]
      constructor
      · rintro ⟨ha, rest⟩
        exact ⟨.inr ha, rest⟩
      · rintro ⟨own | ha, listed, d, hd, rest⟩
        · rw [own, slot] at hd
          cases hd
        · exact ⟨ha, listed, d, hd, rest⟩
    | some d =>
      rw [lowerOne_round slot] at round
      cases listed : s.alc.round.lists i with
      | true =>
        refine ⟨extra, by rw [round, Round.list, if_pos listed], once, fun a => ?_⟩
        rw [mem', List.mem_cons]
        constructor
        · rintro ⟨ha, rest⟩
          exact ⟨.inr ha, rest⟩
        · rintro ⟨own | ha, unlisted, rest⟩
          · rw [own, listed] at unlisted
            cases unlisted
          · exact ⟨ha, unlisted, rest⟩
      | false =>
        refine ⟨{ slot := i, oldGrant := d.held } :: extra, ?_, ?_, fun a => ?_⟩
        · rw [round, Round.list, if_neg (by simp [listed])]
          simp
        · rw [List.map_cons, List.nodup_cons]
          refine ⟨fun h => ?_, once⟩
          obtain ⟨a, ha, e⟩ := List.mem_map.mp h
          have listed := ((mem' a).mp ha).1
          rw [e] at listed
          exact out listed
        · rw [List.mem_cons, mem', List.mem_cons]
          constructor
          · rintro (rfl | ⟨ha, rest⟩)
            · exact ⟨.inl rfl, listed, d, slot, rfl⟩
            · exact ⟨.inr ha, rest⟩
          · rintro ⟨own | ha, unlisted, e, he, old⟩
            · refine .inl ?_
              rw [own, slot] at he
              cases he
              cases a
              simp_all
            · exact .inr ⟨ha, unlisted, e, he, old⟩

theorem Alc.Queued.lowerEach {but : Fin 6 → Prop} {s : State} (h : s.alc.Queued but) :
    (Machine.lowerEach c targets l s).alc.Queued but := by
  induction l generalizing s with
  | nil => exact h
  | cons i l ih =>
    refine ih ?_
    have lowered := h.lowerOne (c := c) (target := targets.get i) (i := i)
    exact ⟨lowered.order, lowered.once, lowered.fits, fun j hj => lowered.waits j fun b => hj b.1⟩

theorem entry_lowerEach_other {s : State} {j : Fin 6} (out : j ∉ l) :
    (lowerEach c targets l s).alc.entry j ↔ s.alc.entry j := by
  induction l generalizing s with
  | nil => rfl
  | cons i l ih =>
    rw [List.mem_cons, not_or] at out
    exact (ih out.2).trans (entry_lowerOne_other out.1)

theorem entry_lowerOne {s : State} {target : Nat} {j : Fin 6} {d : Domain} (slot : s.alc.domains.get j = some d) :
    (lowerOne c target j s).alc.entry j ↔ (lowerOne c target j s).alc.waits j = true := by
  rw [lowerOne_alc slot, Alc.entry, syncQueue_waits, Alc.waits, syncQueue_domains]
  simp only [listAffected, State.setDomain, get_set, if_true, Option.any_some, waits_iff]
  constructor
  · rintro ⟨e, he, waits⟩
    cases he
    exact waits
  · exact fun waits => ⟨_, rfl, waits⟩

/-- A lowered domain has an entry exactly when it waits, whatever the queue was. -/
theorem entry_lowerEach {s : State} (nodup : l.Nodup) {j : Fin 6} (mem : j ∈ l) {d : Domain}
    (slot : s.alc.domains.get j = some d) :
    (lowerEach c targets l s).alc.entry j ↔ (lowerEach c targets l s).alc.waits j = true := by
  induction l generalizing s d with
  | nil => simp at mem
  | cons i l ih =>
    obtain ⟨out, rest⟩ := List.nodup_cons.mp nodup
    show (lowerEach c targets l (lowerOne c (targets.get i) i s)).alc.entry j ↔
      (lowerEach c targets l (lowerOne c (targets.get i) i s)).alc.waits j = true
    rcases List.mem_cons.mp mem with rfl | mem
    · rw [entry_lowerEach_other out, entry_lowerOne slot, Alc.waits, Alc.waits, lowerEach_get rest, if_neg out]
    · have ne : i ≠ j := fun e => out (e ▸ mem)
      exact ih rest mem (by rw [lowerOne_get, if_neg ne, slot])

theorem lowerEach_budget (s : State) : (lowerEach c targets l s).alc.budget = s.alc.budget := by
  induction l generalizing s with
  | nil => rfl
  | cons i l ih => exact (ih _).trans (lowerOne_budget ..)

end

end Sys2Proof.Machine

/-! PROOFS. RESTART: what it clears block by block, and what it tells (R185). -/

namespace Sys2Proof.Machine

/-! ## A short notice queue -/

/-- At most `k` notices wait, and none was dropped. -/
structure FewNotices (k : Nat) (s : State) : Prop where
  length : s.slk.notices.length ≤ k
  kept : s.slk.dropped = false

theorem FewNotices.mono {k l : Nat} {s : State} (h : FewNotices k s) (le : k ≤ l) : FewNotices l s :=
  ⟨h.length.trans le, h.kept⟩

theorem FewNotices.post {k : Nat} {s : State} (h : FewNotices k s) (room : k < 16) (n : Notice) :
    FewNotices (k + 1) (s.post n) := by
  have short : s.slk.notices.length < noticeCapacity := lt_of_le_of_lt h.length room
  have le := h.length
  unfold State.post Slk.post
  split
  · exact ⟨by simpa using le.trans (Nat.le_succ k), h.kept⟩
  · exact ⟨by simpa using le, h.kept⟩

/-! ## The Contact Sensing Unit -/

/-- With no measurement scan waiting, a stopped contact scan leaves claim and front end behind. -/
theorem Msu.stopped_of_still {m : Msu} (still : m.pendingMeas = false) (now : Nat) : ∃ f,
    m.stopped now = { m with claim := .unclaimed, frontEnd := f } ∧ ((f == .measuring) = (m.frontEnd == .measuring)) := by
  unfold Msu.stopped Msu.freed
  split
  · next idle => exact ⟨m.frontEnd, by rw [← idle], rfl⟩
  · split
    · next sensing =>
      refine ⟨.free, ?_, by rw [sensing]; rfl⟩
      rw [if_neg (by simpa using still)]
    · exact ⟨m.frontEnd, rfl, rfl⟩

theorem restartContact_eq (wasDozing : Bool) (s : State) : ∃ c,
    restartContact wasDozing s = { s with msu := s.msu.stopped s.now, csu := c } ∧
      c.electrodes = s.csu.electrodes ∧ c.resolution = s.csu.resolution ∧ c.rebase = .noRebase := by
  have stopped : (s.csu.stopped s.msu).electrodes = s.csu.electrodes ∧
      (s.csu.stopped s.msu).resolution = s.csu.resolution := by
    unfold Csu.stopped
    split <;> exact ⟨rfl, rfl⟩
  have ended : ∃ c, (if (stopContact s).csu.rebase = .noRebase then stopContact s
      else (stopContact s).withCsu fun c => { c.dropLearning with rebase := .noRebase }) =
        { s with msu := s.msu.stopped s.now, csu := c } ∧
      c.electrodes = s.csu.electrodes ∧ c.resolution = s.csu.resolution ∧ c.rebase = .noRebase := by
    rw [stopContact_eq]
    split
    · next idle => exact ⟨_, rfl, stopped.1, stopped.2, idle⟩
    · exact ⟨_, rfl, stopped.1, stopped.2, rfl⟩
  obtain ⟨c, e, electrodes, resolution, rebase⟩ := ended
  unfold restartContact
  dsimp only
  rw [e]
  split
  · refine ⟨c.woken, rfl, (Csu.woken_electrodes c).trans electrodes, ?_, ?_⟩
    · refine Eq.trans ?_ resolution
      unfold Csu.woken Csu.clearGroupPending Csu.dropDozeLearning
      dsimp only
      split <;> rfl
    · refine Eq.trans ?_ rebase
      unfold Csu.woken Csu.clearGroupPending Csu.dropDozeLearning
      dsimp only
      split <;> rfl
  · exact ⟨c, rfl, electrodes, resolution, rebase⟩

/-! ## The Source Monitor -/

/-- The adapter level delivered to a cleared source record: presence and limit follow it, and a change is told. -/
theorem redeliverAdapter_cleared {s : State} (un : s.managed = false) (off : s.srm.severity = false) : ∃ limit k,
    redeliverAdapter s = { s with
      srm := { s.srm with adapterPresent := s.plu.adp.accepted == .high, sourceLimit := limit }, slk := k } ∧
      (k = s.slk ∧ (s.plu.adp.accepted == .high) = s.srm.adapterPresent ∨
        k = s.slk.post (.source (s.plu.adp.accepted == .high) s.srm.battery limit) ∧
          (s.plu.adp.accepted == .high) ≠ s.srm.adapterPresent) := by
  unfold redeliverAdapter deliverAdapter
  split
  · next same => exact ⟨s.srm.sourceLimit, s.slk, by rw [same], .inl ⟨rfl, same⟩⟩
  · next differs =>
    set t := s.withSrm fun r => { r with adapterPresent := s.plu.adp.accepted == .high }
    have severe : t.srm.severe t.managed = false := by
      have un' : t.managed = false := un
      simp [Srm.severe, un']
    obtain ⟨-, -, -, -, told⟩ := sourceChanged_facts (s := t) rfl severe
    refine ⟨t.srm.limit t.reserveOf, _, (told un off).trans ?_, .inr ⟨rfl, differs⟩⟩
    rw [← off]
    rfl

/-! ## The Fan Controller (R169) -/

section
variable (f : Fan) (now : Nat)

theorem restart_claim : (f.restart now).state.claim = f.state.claim := by
  unfold Fan.restart
  split
  · next h => rw [h]; rfl
  · next h => rw [h]; rfl
  · next h => rw [h]; rfl
  · rfl

theorem restart_state {now : Nat} {f : Fan} (h : f.state.same (f.restart now).state = false) :
    f.state = .stopped ∨ f.state = .stalled := by
  revert h
  unfold Fan.restart
  split
  · next e => exact fun _ => .inl e
  · next e => exact fun _ => .inr e
  · next e =>
    rw [e]
    exact Bool.noConfusion
  · exact fun h => absurd h (by simp [FanState.same_self])

end

/-- A fan's record replaced while its claim stays. -/
theorem setFan_unclaimed {n : Fin 2} {g : Fan} {s : State} (claim : g.state.claim = (s.fnc.fans.get n).state.claim) :
    setFan n g s = s.stored n g ∨
      (s.fnc.fans.get n).state.same g.state = false ∧ setFan n g s = (s.stored n g).post (g.notice n) := by
  cases same : (s.fnc.fans.get n).state.same g.state
  · exact .inr ⟨rfl, setFan_told same claim.symm⟩
  · exact .inl (setFan_stored same claim.symm)

/-- What RESTART at one fan gives, given what waited before. -/
theorem setFan_restart (n : Fin 2) (s : State) : ∃ k : Slk,
    setFan n ((s.fnc.fans.get n).restart s.now) s =
      { s.stored n ((s.fnc.fans.get n).restart s.now) with slk := { s.slk with notices := k.notices, dropped := k.dropped } } ∧
    (∀ l, FewNotices l s → l < 16 → k.notices.length ≤ l + 1 ∧ k.dropped = false) ∧
    ∀ m ∈ k.notices, m ∈ s.slk.notices ∨ m = ((s.fnc.fans.get n).restart s.now).notice n ∧
      ((s.fnc.fans.get n).state = .stopped ∨ (s.fnc.fans.get n).state = .stalled) := by
  rcases setFan_unclaimed (restart_claim (s.fnc.fans.get n) s.now) with e | ⟨differs, e⟩
  · exact ⟨s.slk, e, fun l few _ => ⟨few.length.trans (Nat.le_succ l), few.kept⟩, fun m hm => .inl hm⟩
  · refine ⟨s.slk.post (((s.fnc.fans.get n).restart s.now).notice n), ?_, fun l few room => ?_, fun m hm => ?_⟩
    · rw [e, State.post]
      exact congrArg (fun k => { s.stored n _ with slk := k }) (slk_post_eq _ s.slk)
    · have told := few.post room (((s.fnc.fans.get n).restart s.now).notice n)
      exact ⟨told.length, told.kept⟩
    · exact (mem_of_mem_post hm).symm.imp id fun h => ⟨h, restart_state differs⟩

/-- The fans at RESTART. -/
theorem restartFans_eq (s : State) (few : FewNotices 1 s) : ∃ k,
    restartFans s = { s with
      fnc := { s.fnc with fans := tabulate fun n => (s.fnc.fans.get n).restart s.now }
      slk := { s.slk with notices := k, dropped := false } } ∧
    ∀ m ∈ k, m ∈ s.slk.notices ∨ ∃ n, m = ((s.fnc.fans.get n).restart s.now).notice n ∧
      ((s.fnc.fans.get n).state = .stopped ∨ (s.fnc.fans.get n).state = .stalled) := by
  obtain ⟨k, e, short, mem⟩ := setFan_restart 0 s
  set t := setFan 0 ((s.fnc.fans.get 0).restart s.now) s with ht
  obtain ⟨l, e', short', mem'⟩ := setFan_restart 1 t
  have few' : FewNotices 2 t := by
    obtain ⟨length, kept⟩ := short 1 few (by omega)
    rw [e]
    exact ⟨length, kept⟩
  have other : t.fnc.fans.get 1 = s.fnc.fans.get 1 := by
    rw [e]
    exact get_set ..
  have now : t.now = s.now := by rw [e]; rfl
  rw [other, now] at e' mem'
  refine ⟨l.notices, ?_, fun m hm => ?_⟩
  · have whole : restartFans s = setFan 1 ((s.fnc.fans.get 1).restart s.now) t := by
      rw [← other, ← now]
      rfl
    rw [whole, e', (short' 2 few' (by omega)).2, e]
    have fans : (s.fnc.fans.set (0 : Fin 2).val ((s.fnc.fans.get 0).restart s.now)).set (1 : Fin 2).val
        ((s.fnc.fans.get 1).restart s.now) = tabulate fun n => (s.fnc.fans.get n).restart s.now := by
      refine table_ext (Fin.forall_fin_two.mpr ⟨?_, ?_⟩)
      · rw [get_set, if_neg (by decide), get_set, if_pos rfl, get_tabulate]
      · rw [get_set, if_pos rfl, get_tabulate]
    exact congrArg (fun v => { s with
      fnc := { s.fnc with fans := v }, slk := { s.slk with notices := l.notices, dropped := false } }) fans
  · rcases mem' m hm with h | h
    · rw [e] at h
      exact (mem m h).imp id fun h => ⟨0, h⟩
    · exact .inr ⟨1, h⟩

/-! ## The statement -/

/-- The state RESTART forms before the adapter level is delivered again; `c` and `f` are what the contact scan leaves. -/
def State.cleared (c : Csu) (f : FrontEnd) (s : State) : State :=
  { s with
    mdc := { mode := if s.lst.chassis = none then .prepare else .locked, guardClaim := false, restartAwaited := false
             faults := tabulate fun k => { s.mdc.faults.get k with detected := false, subject := none } }
    msu := { s.msu with
      channels := tabulate fun n => (s.msu.channels.get n).restart, claim := .unclaimed, frontEnd := f }
    csu := c
    plu := { s.plu with placement := .unsettled, pin := none, candidate := none, dwell := .idle }
    znm := { zones := tabulate fun z => (s.znm.zones.get z).restart, thermalClaim := false }
    srm := { s.srm with
      battery := .normal, severity := false
      sourceLimit := Srm.limit s.reserveOf { s.srm with battery := .normal, severity := false } }
    alc := { budget := { Budget.reset with derates := tabulate fun n => (s.fnc.fans.get n).state.claim }
             domains := Vector.replicate 6 none, queue := [], round := s.alc.round.closed }
    clu := tabulate fun n => { s.clu.get n with causes := [], assigned := none }
    slk := { s.slk with notices := [], dropped := false, slots := s.slk.slots.filter (·.reply.isSome) } }

theorem State.cleared_managed (c : Csu) (f : FrontEnd) (s : State) : (s.cleared c f).managed = false := by
  simp only [State.managed, State.cleared]
  split <;> rfl

theorem restartSource_eq_cleared {s : State} (still : s.msu.pendingMeas = false) : ∃ c f,
    (restartSource <| restartPlacement <| restartZones <| restartContact (s.mdc.mode == .dozing) <| restartChannels <|
      restartAllocator <| restartLines <| restartMode <| restartLink s) = s.cleared c f ∧
      (f == .measuring) = (s.msu.frontEnd == .measuring) ∧ c.electrodes = s.csu.electrodes ∧
      c.resolution = s.csu.resolution ∧ c.rebase = .noRebase := by
  obtain ⟨c, e, kept⟩ := restartContact_eq (s.mdc.mode == .dozing)
    (restartChannels <| restartAllocator <| restartLines <| restartMode <| restartLink s)
  obtain ⟨f, stopped, measuring⟩ := Msu.stopped_of_still
    (m := (restartChannels <| restartAllocator <| restartLines <| restartMode <| restartLink s).msu) still s.now
  have stopped' : (restartChannels <| restartAllocator <| restartLines <| restartMode <| restartLink s).msu.stopped
      (restartChannels <| restartAllocator <| restartLines <| restartMode <| restartLink s).now = _ := stopped
  rw [stopped'] at e
  refine ⟨c, f, ?_, measuring, kept⟩
  have mode : (if s.lst.chassis.isSome then Mode.locked else .prepare) = if s.lst.chassis = none then .prepare else .locked := by
    cases s.lst.chassis <;> rfl
  rw [e, State.cleared, ← mode]
  rfl

/-- Settles O59. -/
theorem restartKeepsAndClears : Obligations.RestartKeepsAndClears := by
  unfold Obligations.RestartKeepsAndClears
  intro dt tag s held
  have due : s.restartDue = true ↔ s.mdc.restartAwaited = true ∧ ¬held := by
    simp only [State.restartDue, RequestSlot.holdsRestart, held, Bool.and_eq_true, Bool.not_eq_true', List.any_eq_false,
      Option.isNone_iff_eq_none, beq_iff_eq, not_or, not_not, Option.isSome_iff_ne_none, not_exists, not_and, and_assoc]
  refine ⟨fun takes => owner_answers takes rfl, fun h => ?_, fun awaited free still => ?_⟩
  · refine congrArg Host.Outcome.next (if_neg ?_)
    rw [due]
    rintro ⟨a, f⟩
    exact h.elim (fun e => by simp [e] at a) f
  obtain ⟨c, f, cleared, measuring, electrodes, resolution, rebase⟩ := restartSource_eq_cleared still
  set u := s.cleared c f with hu
  obtain ⟨limit, k, delivered, told⟩ := redeliverAdapter_cleared (s := u) (s.cleared_managed c f) rfl
  set v := redeliverAdapter u with hv
  have few : FewNotices 1 v := by
    have empty : FewNotices 0 u := ⟨le_refl _, rfl⟩
    rw [delivered]
    rcases told with ⟨e, -⟩ | ⟨e, -⟩
    · rw [e]
      exact ⟨Nat.zero_le _, rfl⟩
    · rw [e]
      have one := empty.post (by omega) (.source (u.plu.adp.accepted == .high) u.srm.battery limit)
      exact ⟨one.length, one.kept⟩
  obtain ⟨l, fans, mem⟩ := restartFans_eq v few
  have row : exec .restartTakesEffect s = .next (restartFans v) := by
    refine congrArg Host.Outcome.next ((if_pos (due.mpr ⟨awaited, free⟩)).trans ?_)
    rw [takeRestart, cleared]
    refine finishNew_of_same ?_
    rw [fans, delivered]
    simp only [State.scanSpent, hu, State.cleared, measuring]
  refine ⟨_, row, ?_⟩
  have link : k = { u.slk with notices := k.notices, dropped := k.dropped } := by
    rcases told with ⟨e, -⟩ | ⟨e, -⟩
    · rw [e]
    · rw [e]
      exact slk_post_eq _ _
  have v_slk : v.slk = k := by rw [delivered]
  have v_now : v.now = s.now := by
    rw [delivered]
    rfl
  have v_fnc : v.fnc = s.fnc := by
    rw [delivered]
    rfl
  simp only [v_now, v_fnc, v_slk] at mem fans
  rw [fans, delivered]
  refine ⟨rfl, rfl, rfl, rfl, rfl, rfl, rfl, fun n => ?_, electrodes, resolution, rebase, rfl, rfl, fun z => ?_, rfl, rfl, rfl,
    rfl, fun i => get_replicate none i, rfl, rfl, rfl, rfl, rfl, fun n => ?_, (congrArg Slk.slots link).trans rfl, rfl,
    (congrArg Slk.rx link).trans rfl, (congrArg Slk.tx link).trans rfl, (congrArg Slk.txStart link).trans rfl, fun m hm => ?_,
    fun n => ?_⟩
  · simp [hu, State.cleared, get_tabulate, Channel.restart]
  · simp [hu, State.cleared, get_tabulate, Zone.restart]
  · simp [hu, State.cleared, get_tabulate]
  · rcases mem m hm with waits | ⟨n, e, was⟩
    · refine .inl ?_
      rcases told with ⟨e, -⟩ | ⟨e, differs⟩
      · rw [e] at waits
        exact absurd waits List.not_mem_nil
      · rw [e] at waits
        exact ⟨(mem_of_mem_post waits).resolve_right List.not_mem_nil, differs⟩
    · refine .inr ⟨n, ?_, was⟩
      rw [e]
      simp only [get_tabulate]
      rfl
  · simp only [get_tabulate]
    unfold Fan.restart
    split <;> simp [*, Fan.kick, Fan.retry, guardDuty, ms]

end Sys2Proof.Machine

/-! PROOFS. The hand-overs to the fans: what forming demands and targets leaves of the other blocks (R93, R160, R165). -/

namespace Sys2Proof.Machine

/-- Every declared domain has a grant. -/
def Alc.allGranted (a : Alc) : Prop := ∀ i d, a.domains.get i = some d → d.grant ≠ none

/-- The state after a hand-over to the fans: fans, demands, the Allocator's claims, grants and queue, and notices. -/
structure OnlyFans (s t : State) : Prop where
  rest : t = { s with
    znm := { s.znm with zones := t.znm.zones }, alc := t.alc, fnc := { s.fnc with fans := t.fnc.fans }
    slk := { s.slk with notices := t.slk.notices, dropped := t.slk.dropped } }
  zones : ∀ z, t.znm.zones.get z = { s.znm.zones.get z with demand := (t.znm.zones.get z).demand }
  budget : t.alc.budget = { s.alc.budget with
    derates := t.alc.budget.derates, effective := t.alc.budget.effective }
  cores : ∀ i, t.alc.coreOf i = s.alc.coreOf i
  bases : ∀ i, (t.alc.domains.get i).map Domain.base = (s.alc.domains.get i).map Domain.base
  formed : s.alc.budget.effective = some s.formB → t.alc.budget.effective = some t.formB ∨ s.managed = false
  granted : s.alc.allGranted → t.alc.allGranted
  quiet : Quiet (fun k => k = 0x41 ∨ k = 0x42 ∨ k = 0x48) s t

namespace OnlyFans

variable {s t u : State}

theorem refl (s : State) : OnlyFans s s :=
  ⟨rfl, fun _ => rfl, rfl, fun _ => rfl, fun _ => rfl, .inl, id, .refl s⟩

theorem managed (h : OnlyFans s t) : t.managed = s.managed := by
  rw [h.rest]
  rfl

theorem trans (h : OnlyFans s t) (k : OnlyFans t u) : OnlyFans s u where
  rest := by
    have e := k.rest
    rw [h.rest] at e
    exact e
  zones := fun z => by rw [k.zones z, h.zones z]
  budget := by rw [k.budget, h.budget]
  cores := fun i => (k.cores i).trans (h.cores i)
  bases := fun i => (k.bases i).trans (h.bases i)
  formed := fun f => (h.formed f).elim (fun f => (k.formed f).imp id fun un => h.managed ▸ un) .inr
  granted := k.granted ∘ h.granted
  quiet := h.quiet.trans k.quiet

/-- A change of fans and demands alone. -/
theorem records (rest : t = { s with
      znm := { s.znm with zones := t.znm.zones }, fnc := { s.fnc with fans := t.fnc.fans } })
    (zones : ∀ z, t.znm.zones.get z = { s.znm.zones.get z with demand := (t.znm.zones.get z).demand }) : OnlyFans s t where
  rest := by
    rw [rest]
  zones := zones
  budget := by rw [rest]
  cores := fun i => by rw [rest]
  bases := fun i => by rw [rest]
  formed := fun f => .inl (by
    rw [rest]
    exact f)
  granted := fun g => by
    rw [rest]
    exact g
  quiet := .same (by rw [rest])

theorem stored (n : Fin 2) (g : Fan) (s : State) : OnlyFans s (s.stored n g) := records rfl fun _ => rfl

theorem fanNotice (n : Fin 2) (f : Fan) (s : State) : OnlyFans s (s.post (f.notice n)) where
  rest := by
    rw [State.post, slk_post_eq]
  zones := fun _ => rfl
  budget := rfl
  cores := fun _ => rfl
  bases := fun _ => rfl
  formed := .inl
  granted := id
  quiet := .post (.inr (.inr rfl)) s

theorem handDerate (n : Fin 2) (v : Bool) (s : State) : OnlyFans s (Machine.handDerate n v s) := by
  set b := s.withBudget fun b => { b with derates := b.derates.set n v }
  have grants : Grants b (recompute .fan b) := (Grants.refl b).recompute .fan
  have allocs : Allocs False b (recompute .fan b) := (Allocs.refl b).recompute .fan
  have only := grants.only
  rw [State.grantsOnly] at only
  refine ⟨?_, fun z => ?_, ?_, grants.cores, allocs.bases, fun _ => ?_, allocs.granted, ?_⟩
  · have clu : (recompute .fan b).clu = s.clu := allocs.clu
    have znm : (recompute .fan b).znm = s.znm := by rw [only]; rfl
    have fnc : (recompute .fan b).fnc = s.fnc := by rw [only]; rfl
    rw [clu] at only
    show recompute .fan b = { s with
      znm := { s.znm with zones := (recompute .fan b).znm.zones }, alc := (recompute .fan b).alc
      fnc := { s.fnc with fans := (recompute .fan b).fnc.fans }, slk := _ }
    rw [znm, fnc]
    exact only
  · show (recompute .fan b).znm.zones.get z = _
    rw [Machine.handDerate, only]
    rfl
  · show (recompute .fan b).alc.budget = _
    rw [Machine.handDerate, grants.budget]
    rfl
  · cases m : s.managed
    · exact .inr rfl
    · exact .inl (recompute_effective .fan (s := b) m)
  · exact ((Quiet.same rfl : Quiet _ s b).trans allocs.quiet).mono fun _ h => h.imp id .inl

theorem setFan (n : Fin 2) (f : Fan) (s : State) : OnlyFans s (Machine.setFan n f s) := by
  have told := (stored n f s).trans (fanNotice n f _)
  unfold Machine.setFan
  dsimp only
  split <;> split
  · exact stored n f s
  · exact told
  · exact (stored n f s).trans (handDerate ..)
  · exact told.trans (handDerate ..)

theorem applyTarget (n : Fin 2) (s : State) : OnlyFans s (Machine.applyTarget n s) := by
  unfold Machine.applyTarget
  dsimp only
  split
  · exact setFan ..
  · exact refl s

theorem foldl {β : Type} {f : State → β → State} (hf : ∀ s b, OnlyFans s (f s b)) (l : List β) (s : State) :
    OnlyFans s (l.foldl f s) := by
  induction l generalizing s with
  | nil => exact refl s
  | cons b l ih => exact (hf s b).trans (ih _)

theorem applyTargets (s : State) : OnlyFans s (Machine.applyTargets s) := foldl (fun s n => applyTarget n s) _ s

theorem handDemand (z : Fin 6) (n : Fin 2) (s : State) : OnlyFans s (Machine.handDemand z n s) := by
  unfold Machine.handDemand
  dsimp only
  split
  · exact refl s
  · refine OnlyFans.trans (records rfl fun y => ?_) (applyTarget n _)
    simp only [State.setZone, State.withZnm, get_set]
    split
    · next e => rw [e]
    · rfl

theorem handDemands (z : Fin 6) (s : State) : OnlyFans s (Machine.handDemands z s) :=
  foldl (fun s n => handDemand z n s) _ s

theorem reformDemands (s : State) : OnlyFans s (Machine.reformDemands s) :=
  OnlyFans.trans (t := s.mapZones fun z r => { r with demand := s.demandsOf z })
    (records rfl fun z => by simp [State.mapZones, State.withZnm, get_tabulate]) (applyTargets _)

theorem msu (h : OnlyFans s t) : t.msu = s.msu := by rw [h.rest]

theorem mdc (h : OnlyFans s t) : t.mdc = s.mdc := by rw [h.rest]

theorem csu (h : OnlyFans s t) : t.csu = s.csu := by rw [h.rest]

theorem clu (h : OnlyFans s t) : t.clu = s.clu := by rw [h.rest]

end OnlyFans

end Sys2Proof.Machine

/-! PROOFS. RUN, DOZE and WAKE (R183, R184). -/

namespace Sys2Proof.Machine

theorem finishNew_stopped {s t : State} {now : Nat} (still : s.msu.pendingMeas = false) (h : t.msu = s.msu.stopped now) :
    finishNew s t = t := by
  refine finishNew_of_same ?_
  obtain ⟨f, e, measuring⟩ := Msu.stopped_of_still still now
  rw [State.scanSpent, h, e]
  simp only [State.scanSpent, measuring]

/-- What a stopped contact scan leaves of the Measurement Unit. -/
theorem Msu.stopped_kept (now : Nat) (m : Msu) :
    (m.stopped now).channels = m.channels ∧ (m.stopped now).scanList = m.scanList := by
  unfold Msu.stopped Msu.freed
  split
  · exact ⟨rfl, rfl⟩
  · split
    · split <;> exact ⟨rfl, rfl⟩
    · exact ⟨rfl, rfl⟩

/-! ## The RUN entries of zones, Source Monitor and Allocator (R97, R117, R137) -/

/-- The notices of the zones at RUN. -/
theorem noticesOnly_postZones (l : List (Fin 6)) (s : State) :
    s.noticesOnly (l.foldl (fun u z => if (u.znm.zones.get z).enabled then postZone z u else u) s) := by
  induction l generalizing s with
  | nil => rfl
  | cons z l ih =>
    rw [List.foldl_cons]
    refine noticesOnly_trans ?_ (ih _)
    split
    · exact noticesOnly_post _ _
    · rfl

/-- The records of the zones at RUN, before their notices. -/
def State.zonesAtRun (s : State) : State :=
  { s with znm := { s.znm with
    zones := tabulate fun z => (s.znm.zones.get z).atRun (s.now + s.active.stepInterval * 1000) } }

theorem zonesRun_only (s : State) : s.zonesAtRun.noticesOnly (zonesRun s) := by
  have told : zonesRun s = six.foldl (fun u z => if (u.znm.zones.get z).enabled then postZone z u else u)
      (s.mapZones fun _ r => r.atRun (s.now + ms s.active.stepInterval)) := by
    unfold zonesRun
    with_reducible rfl
  have stored : (s.mapZones fun _ r => r.atRun (s.now + ms s.active.stepInterval)) = s.zonesAtRun := by
    simp only [State.mapZones, State.withZnm, State.zonesAtRun, ms]
  rw [told, stored]
  with_reducible exact noticesOnly_postZones six s.zonesAtRun

/-- The source record at RUN keeps its setup, and a line keeps GUARD as it was. -/
theorem sourceRun_facts (s : State) : ∃ r : Srm, r.setup = s.srm.setup ∧ State.linesOnly { s with srm := r } (sourceRun s) ∧
    ∀ n, ClampCause.guard ∈ ((sourceRun s).clu.get n).causes ↔ ClampCause.guard ∈ (s.clu.get n).causes := by
  have severity : ∀ t : State, (∀ n, ClampCause.guard ∈ ((updateSeverity t).clu.get n).causes ↔
      ClampCause.guard ∈ (t.clu.get n).causes) := by
    intro t n
    unfold updateSeverity
    dsimp only
    split
    · exact Iff.rfl
    · split
      · simp [addCauseTo_get, mem_six, mem_withCause, State.withSrm]
      · simp [withdrawCauseFrom_get, mem_six, mem_withoutCause, State.withSrm]
  unfold sourceRun
  dsimp only
  split
  · obtain ⟨lines, -⟩ := updateSeverity_facts (formLimit s)
    exact ⟨{ (formLimit s).srm with severity := (formLimit s).srm.severe (formLimit s).managed }, rfl, lines, severity _⟩
  · set t := formLimit (s.withSrm fun r => { r with battery := s.srm.evaluated s.msu.last })
    obtain ⟨lines, -⟩ := updateSeverity_facts t
    refine ⟨{ t.srm with severity := t.srm.severe t.managed }, rfl, linesOnly_trans lines ?_, severity t⟩
    have told := noticesOnly_post (.source (updateSeverity t).srm.adapterPresent (updateSeverity t).srm.battery
      (updateSeverity t).srm.sourceLimit) (updateSeverity t)
    rw [State.noticesOnly] at told
    rw [State.linesOnly, postSource, told]

theorem Grants.manageDomain {a s : State} (h : Grants a s) (i : Fin 6) : Grants a (Machine.manageDomain i s) := by
  unfold Machine.manageDomain
  split
  · exact h
  · next d slot => exact (h.setDomain slot (by rfl)).postGrant .raise i

/-- A domain with the same base elsewhere has the same effective ceiling there. -/
theorem ceiling_of_bases {a b : Alc} {i : Fin 6} {d : Domain}
    (bases : (b.domains.get i).map Domain.base = (a.domains.get i).map Domain.base) (slot : b.domains.get i = some d) :
    ∃ e, a.domains.get i = some e ∧ d.effCeiling = e.effCeiling := by
  have ceilings := effCeiling_of_bases bases
  rw [slot] at ceilings
  cases before : a.domains.get i with
  | none => simp [before] at ceilings
  | some e => exact ⟨e, rfl, by simpa [before] using ceilings⟩

/-- A slot under management: with a grant and an effective ceiling. -/
def Alc.manages (a : Alc) (i : Fin 6) : Prop := ∀ d, a.domains.get i = some d → d.grant ≠ none ∧ d.effCeiling ≠ none

theorem manageDomain_manages (i j : Fin 6) (s : State) (h : j = i ∨ s.alc.manages j) :
    (manageDomain i s).alc.manages j := by
  unfold manageDomain
  split
  · next empty =>
    rcases h with rfl | h
    · exact fun d slot => by simp [empty] at slot
    · exact h
  · next d slot =>
    rw [postGrant_alc]
    intro e he
    rw [State.setDomain_alc, get_set] at he
    split at he
    · cases he
      exact ⟨by simp, by simp⟩
    · next ne => exact (h.resolve_left fun e => ne e.symm) e he

theorem manageDomain_clu (i : Fin 6) (s : State) : (manageDomain i s).clu = s.clu := by
  unfold manageDomain
  split
  · rfl
  · obtain ⟨k, e⟩ := Allocs.postGrant_touches .raise i _
    rw [e]
    rfl

/-- The slots taken under management one after the other. -/
theorem manageAll_facts (l : List (Fin 6)) (s : State) :
    let t := l.foldl (fun t i => manageDomain i t) s
    Grants s t ∧ t.clu = s.clu ∧ t.alc.budget = s.alc.budget ∧ ∀ j, j ∈ l ∨ s.alc.manages j → t.alc.manages j := by
  induction l generalizing s with
  | nil => exact ⟨.refl s, rfl, rfl, fun j h => h.resolve_left List.not_mem_nil⟩
  | cons i l ih =>
    obtain ⟨grants, clu, budget, manages⟩ := ih (manageDomain i s)
    have one : (manageDomain i s).alc.budget = s.alc.budget := by
      unfold manageDomain
      split
      · rfl
      · rw [postGrant_alc]
        rfl
    refine ⟨((Grants.refl s).manageDomain i).trans grants, clu.trans (manageDomain_clu i s), budget.trans one, fun j h => ?_⟩
    refine manages j ?_
    rw [List.mem_cons, or_assoc] at h
    rcases h with e | h | h
    · exact .inr (manageDomain_manages i j s (.inl e))
    · exact .inl h
    · exact .inr (manageDomain_manages i j s (.inr h))

theorem syncAll_budget (l : List (Fin 6)) (s : State) :
    (l.foldl (fun t i => syncQueue i t) s).alc.budget = s.alc.budget :=
  List.foldlRecOn l (fun t i => syncQueue i t) (motive := fun t => t.alc.budget = s.alc.budget) rfl
    fun t h i _ => (syncQueue_budget i t).trans h

/-- The Allocator's RUN entry. -/
theorem allocatorRun_facts (s : State) :
    let t := allocatorRun s
    s.grantsOnly t ∧ t.clu = s.clu ∧ (∀ i, t.alc.coreOf i = s.alc.coreOf i) ∧ t.alc.budget.credit = 0 ∧
      t.alc.budget.armed = false ∧ t.alc.budget.effective = some t.formB ∧ ∀ i, t.alc.manages i := by
  set inputs := s.withBudget fun b =>
    { b.takeSource s.srm with credit := 0, armed := false, reductions := Vector.replicate 6 0
                              severities := Vector.replicate 6 false } with hi
  set formed := refreshB inputs with hf
  obtain ⟨grants, clu, budget, manages⟩ := manageAll_facts six formed
  set floors := six.foldl (fun t i => manageDomain i t) formed with hfl
  have queued : Allocs False floors (allocatorRun s) :=
    (Allocs.foldl (fun _ i h => h.syncQueue i) six (Allocs.refl floors)).serve
  have whole : Grants inputs (allocatorRun s) :=
    (Grants.foldl (fun _ i h => h.syncQueue i) six (((Grants.refl _).refreshB).trans grants)).serve
  have only := whole.only
  rw [State.grantsOnly] at only
  have budget' : (allocatorRun s).alc.budget = formed.alc.budget := by
    unfold allocatorRun
    rw [serve_budget, syncAll_budget]
    exact budget
  refine ⟨?_, queued.clu.trans clu, whole.cores, by rw [budget']; rfl, by rw [budget']; rfl, ?_, fun i d slot => ?_⟩
  · rw [State.grantsOnly]
    exact only
  · rw [budget', whole.formB_eq]
    rfl
  · have granted : floors.alc.allGranted := fun i d slot => (manages i (.inl (mem_six i)) d slot).1
    refine ⟨queued.granted granted i d slot, ?_⟩
    obtain ⟨e, before, same⟩ := ceiling_of_bases (queued.bases i) slot
    rw [same]
    exact (manages i (.inl (mem_six i)) e before).2

/-! ## What the entries leave -/

/-- Clock, mode, placement, limits, source setup, Measurement Unit and domain setups stay. -/
structure SameParts (s t : State) : Prop where
  now : t.now = s.now
  mdc : t.mdc = s.mdc
  plu : t.plu = s.plu
  lst : t.lst = s.lst
  setup : t.srm.setup = s.srm.setup
  msu : t.msu = s.msu
  cores : ∀ i, t.alc.coreOf i = s.alc.coreOf i

namespace SameParts

variable {s t u : State}

theorem trans (h : SameParts s t) (k : SameParts t u) : SameParts s u :=
  ⟨k.now.trans h.now, k.mdc.trans h.mdc, k.plu.trans h.plu, k.lst.trans h.lst, k.setup.trans h.setup, k.msu.trans h.msu,
    fun i => (k.cores i).trans (h.cores i)⟩

theorem ofNotices (h : s.noticesOnly t) : SameParts s t := by
  rw [State.noticesOnly] at h
  rw [h]
  exact ⟨rfl, rfl, rfl, rfl, rfl, rfl, fun _ => rfl⟩

theorem ofLines (h : s.linesOnly t) : SameParts s t := by
  rw [State.linesOnly] at h
  rw [h]
  exact ⟨rfl, rfl, rfl, rfl, rfl, rfl, fun _ => rfl⟩

theorem ofGrants (h : s.grantsOnly t) (cores : ∀ i, t.alc.coreOf i = s.alc.coreOf i) : SameParts s t := by
  rw [State.grantsOnly] at h
  exact ⟨by rw [h], by rw [h], by rw [h], by rw [h], by rw [h], by rw [h], cores⟩

theorem ofFans (h : OnlyFans s t) : SameParts s t :=
  ⟨by rw [h.rest], h.mdc, by rw [h.rest], by rw [h.rest], by rw [h.rest], h.msu, h.cores⟩

theorem zonesAtRun (s : State) : SameParts s s.zonesAtRun := ⟨rfl, rfl, rfl, rfl, rfl, rfl, fun _ => rfl⟩

end SameParts

/-! ## RUN (R183) -/

theorem withdrawGuard_facts (s : State) : State.linesOnly { s with mdc := { s.mdc with guardClaim := false } } (dropGuard s) ∧
    ∀ n, ClampCause.guard ∉ ((dropGuard s).clu.get n).causes :=
  ⟨linesOnly_withdrawCauseFrom six .guard (s.setGuard false), fun n => by
    simp [dropGuard, withdrawCauseFrom_get, mem_six, mem_withoutCause]⟩

/-- What the RUN entry of every block leaves behind. -/
theorem enterRunning_facts {s t : State} (entered : enterRunning s = t) :
    (t.now = s.now ∧ t.plu = s.plu ∧ t.lst = s.lst ∧ t.srm.setup = s.srm.setup ∧ t.msu = s.msu.stopped s.now ∧
      ∀ i, t.alc.coreOf i = s.alc.coreOf i) ∧
    t.mdc = { s.mdc with mode := .running, guardClaim := false } ∧ (∀ n, ClampCause.guard ∉ (t.clu.get n).causes) ∧
    t.alc.budget.credit = 0 ∧ t.alc.budget.armed = false ∧ t.alc.budget.effective = some t.formB ∧
    (∀ i, t.alc.manages i) ∧
    ∀ z, (s.znm.zones.get z).enabled = true → (t.znm.zones.get z).state = .normal ∧ (t.znm.zones.get z).r = 0 ∧
      (t.znm.zones.get z).stepTimer = some (s.now + s.active.stepInterval * 1000) := by
  set a := stopContact (s.setMode .running) with ha
  have a_eq : a = { s with mdc := { s.mdc with mode := .running }, msu := s.msu.stopped s.now, csu := s.csu.stopped s.msu } :=
    stopContact_eq _
  set b := dropGuard a with hb
  set c := zonesRun b with hc
  set d := sourceRun c with hd
  set e := allocatorRun d with he
  obtain ⟨b_eq, guard⟩ := withdrawGuard_facts a
  have c_eq : b.zonesAtRun.noticesOnly (zonesRun b) := zonesRun_only b
  obtain ⟨r, setup, d_eq, same⟩ := sourceRun_facts c
  obtain ⟨e_eq, clu, cores, credit, armed, formed, manages⟩ := allocatorRun_facts d
  have fans : OnlyFans e t := by
    rw [← entered]
    exact OnlyFans.reformDemands e
  rw [← hb] at b_eq guard
  rw [← hc] at c_eq
  rw [← hd] at d_eq same
  rw [← he] at e_eq clu cores credit armed formed manages
  clear_value e d c b a
  have parts_b := SameParts.ofLines b_eq
  have parts_c : SameParts b c := (SameParts.zonesAtRun b).trans (.ofNotices c_eq)
  have parts_d : SameParts c d := .trans (t := { c with srm := r }) ⟨rfl, rfl, rfl, rfl, setup, rfl, fun _ => rfl⟩ (.ofLines d_eq)
  have parts := ((parts_c.trans parts_d).trans (.ofGrants e_eq cores)).trans (.ofFans fans)
  have mdc : t.mdc = { s.mdc with mode := .running, guardClaim := false } := by
    rw [parts.mdc, parts_b.mdc, a_eq]
  have managed : e.managed = true := by
    rw [← fans.managed, State.managed, mdc]
    rfl
  refine ⟨⟨?_, ?_, ?_, ?_, ?_, fun i => ?_⟩, mdc, fun n => ?_, ?_, ?_, ?_, fun i x slot => ⟨?_, ?_⟩, fun z enabled => ?_⟩
  · rw [parts.now, parts_b.now, a_eq]
  · rw [parts.plu, parts_b.plu, a_eq]
  · rw [parts.lst, parts_b.lst, a_eq]
  · rw [parts.setup, parts_b.setup, a_eq]
  · rw [parts.msu, parts_b.msu, a_eq]
  · rw [parts.cores, parts_b.cores, a_eq]
  · have still : c.clu = b.clu := by
      rw [c_eq]
      rfl
    rw [fans.clu, clu, same, still]
    exact guard n
  · rw [fans.budget]
    exact credit
  · rw [fans.budget]
    exact armed
  · exact (fans.formed formed).resolve_right (by simp [managed])
  · exact fans.granted (fun i x slot => (manages i x slot).1) i x slot
  · obtain ⟨y, before, same⟩ := ceiling_of_bases (fans.bases i) slot
    rw [same]
    exact (manages i y before).2
  · have at_run : e.znm.zones.get z = (s.znm.zones.get z).atRun (s.now + s.active.stepInterval * 1000) := by
      have ez : e.znm = d.znm := by rw [e_eq]
      have dz : d.znm = c.znm := by rw [d_eq]
      have cz : c.znm = b.zonesAtRun.znm := by rw [c_eq]
      have bz : b.zonesAtRun.znm.zones = tabulate fun z =>
          (s.znm.zones.get z).atRun (s.now + s.active.stepInterval * 1000) := by
        rw [b_eq, a_eq]
        rfl
      rw [ez, dz, cz, bz, get_tabulate]
    rw [fans.zones z, at_run, Zone.atRun, if_pos enabled]
    exact ⟨rfl, rfl, rfl⟩

/-! ## DOZE and WAKE (R184) -/

/-- A contact rebase abandoned posts DONE and nothing else. -/
theorem dozeContact_eq (s : State) : ∃ c k, dozeContact s = { s with csu := c, slk := k } ∧ c.rebase = .noRebase ∧
    c.learning = .learning .doze 0 ∧
    (s.csu.rebase = .noRebase ∧ k = s.slk ∨ s.csu.rebase ≠ .noRebase ∧ k = s.slk.post (.done .abandoned)) := by
  unfold dozeContact abandonRebase
  split
  · next idle => exact ⟨_, _, rfl, idle, rfl, .inl ⟨idle, rfl⟩⟩
  · next active => exact ⟨_, _, rfl, rfl, rfl, .inr ⟨active, rfl⟩⟩

/-- What the statement keeps over a change between RUNNING and DOZING. -/
structure Moved (m : Mode) (s t : State) : Prop where
  now : t.now = s.now
  plu : t.plu = s.plu
  lst : t.lst = s.lst
  srm : t.srm = s.srm
  msu : t.msu = s.msu.stopped s.now
  cores : ∀ i, t.alc.coreOf i = s.alc.coreOf i
  mdc : t.mdc = { s.mdc with mode := m }
  credit : t.alc.budget.credit = s.alc.budget.credit
  zones : ∀ z, (t.znm.zones.get z).state = (s.znm.zones.get z).state ∧ (t.znm.zones.get z).r = (s.znm.zones.get z).r

/-- Demands and targets formed after the change leave it as it is. -/
theorem Moved.fans {m : Mode} {s t u : State} (h : Moved m s t) (k : OnlyFans t u) : Moved m s u where
  now := (SameParts.ofFans k).now.trans h.now
  plu := (SameParts.ofFans k).plu.trans h.plu
  lst := (SameParts.ofFans k).lst.trans h.lst
  srm := by
    rw [k.rest]
    exact h.srm
  msu := k.msu.trans h.msu
  cores i := (k.cores i).trans (h.cores i)
  mdc := k.mdc.trans h.mdc
  credit := by
    rw [k.budget]
    exact h.credit
  zones z := by
    rw [k.zones z]
    exact h.zones z

theorem wakeUp_moved (s : State) : Moved .running s (wakeUp s) := by
  have fans : OnlyFans s.awake (wakeUp s) := OnlyFans.reformDemands s.awake
  refine Moved.fans ?_ fans
  rw [State.awake_eq]
  exact ⟨rfl, rfl, rfl, rfl, rfl, fun _ => rfl, rfl, rfl, fun _ => ⟨rfl, rfl⟩⟩

theorem woken_facts (c : Csu) : (∀ n, c.woken.learning ≠ .learning .doze n) ∧ ∀ g, (c.woken.groups.get g).pending = none := by
  unfold Csu.woken Csu.clearGroupPending
  refine ⟨fun n => ?_, fun g => by simp [get_tabulate]⟩
  unfold Csu.dropDozeLearning
  split
  · exact GroupLearning.noConfusion
  · next other => exact fun e => other n e

theorem wakeUp_csu (s : State) : (∀ n, (wakeUp s).csu.learning ≠ .learning .doze n) ∧
    ∀ g, ((wakeUp s).csu.groups.get g).pending = none := by
  have fans : OnlyFans s.awake (wakeUp s) := OnlyFans.reformDemands s.awake
  rw [fans.csu, State.awake_eq]
  exact woken_facts _

theorem goDozing_facts (s : State) : Moved .dozing s (goDozing s) ∧ (goDozing s).csu.rebase = .noRebase ∧
    (goDozing s).csu.learning = .learning .doze 0 ∧
    (s.csu.rebase ≠ .noRebase → Notice.done .abandoned ∈ (goDozing s).slk.notices ∨ (goDozing s).slk.dropped = true) ∧
    (∀ n ∈ (goDozing s).slk.notices, n.kind = 0x47 →
      n ∈ s.slk.notices ∨ (s.csu.rebase ≠ .noRebase ∧ n = .done .abandoned)) ∧
    ∀ z, ((goDozing s).znm.zones.get z).woke = false := by
  obtain ⟨c, k, dozed, rebase, learning, told⟩ := dozeContact_eq (stopContact (s.setMode .dozing))
  rw [stopContact_eq] at dozed told
  have same : (s.csu.stopped s.msu).rebase = s.csu.rebase := by
    unfold Csu.stopped
    split <;> rfl
  have told : s.csu.rebase = .noRebase ∧ k = s.slk ∨ s.csu.rebase ≠ .noRebase ∧ k = s.slk.post (.done .abandoned) :=
    same ▸ told
  set u : State := { s with
    mdc := { s.mdc with mode := .dozing }, msu := s.msu.stopped s.now, csu := c, slk := k
    znm := { s.znm with zones := tabulate fun z => { s.znm.zones.get z with woke := false } } } with hu
  have formed : (dozeContact (stopContact (s.setMode .dozing))).mapZones (fun _ r => { r with woke := false }) = u := by
    rw [stopContact_eq, dozed]
    rfl
  have fans : OnlyFans u (goDozing s) := by
    rw [← formed]
    exact OnlyFans.reformDemands _
  have moved : Moved .dozing s u := ⟨rfl, rfl, rfl, rfl, rfl, fun _ => rfl, rfl, rfl, fun z => by
    simp [hu, get_tabulate]⟩
  refine ⟨moved.fans fans, by rw [fans.csu]; exact rebase, by rw [fans.csu]; exact learning, fun active => ?_,
    fun n waits done => ?_, fun z => ?_⟩
  · refine fans.quiet.waits (by simp [Notice.kind]) ?_
    have posted : k = s.slk.post (.done .abandoned) := (told.resolve_left fun h => active h.1).2
    show Notice.done .abandoned ∈ k.notices ∨ k.dropped = true
    rw [posted]
    exact post_waits _ s
  · have before : n ∈ k.notices := (fans.quiet.notices n (by simp [done])).mp waits
    rcases told with ⟨-, e⟩ | ⟨active, e⟩
    · exact .inl (e ▸ before)
    · rw [e] at before
      exact (mem_of_mem_post before).symm.imp id fun h => ⟨active, h⟩
  · rw [fans.zones z]
    simp [hu, get_tabulate]

/-! ## The statement -/

theorem State.canRun_iff (s : State) : s.canRun = true ↔
    s.mdc.mode = .locked ∧ (allSets.filter fun p => (s.lst.get p).isNone) = [] ∧ s.srm.setup ≠ none := by
  simp only [State.canRun, Lst.emptySets, Bool.and_eq_true, beq_iff_eq, List.isEmpty_iff, Option.isSome_iff_ne_none, and_assoc]

/-- Settles O58. -/
theorem runDozeAndWakeChangeTheMode : Obligations.RunDozeAndWakeChangeTheMode := by
  unfold Obligations.RunDozeAndWakeChangeTheMode
  intro dt tag s takes now empty ready keeps moves
  have ready_iff : (s.elapse dt).canRun = true ↔ ready := (s.elapse dt).canRun_iff
  have keeps_of : ∀ {m t}, Moved m (s.elapse dt) t → keeps t := fun h =>
    ⟨h.now, h.plu, h.lst, by rw [h.srm]; rfl, by rw [h.msu]; exact (Msu.stopped_kept _ _).1,
      by rw [h.msu]; exact (Msu.stopped_kept _ _).2, by rw [h.msu]; exact Msu.stopped_claim _ _, h.cores⟩
  have answers : ∀ {kind owner t} {a : Answer}, owner (s.elapse dt) = (t, a) → finishNew (s.elapse dt) t = t →
      (.next (acceptRequest kind tag (finishing owner) (s.elapse dt)) : Host.Outcome State Fault Refusal) =
        .next (t.answered kind tag a) := fun h finished => owner_answers takes (by rw [finishing, h, finished])
  refine ⟨fun un => ?_, fun can still => ?_, fun mode => ⟨?_, ?_⟩, fun dozing => ?_, fun running => ?_, fun running still => ?_,
    fun dozing still => ?_⟩
  · refine answers (a := { status := .notReady, body := .runRefused s.mdc.mode empty s.srm.setup.isSome }) ?_ (finishNew_self _)
    exact if_neg (mt ready_iff.mp un)
  · obtain ⟨⟨t_now, plu, lst, setup, msu, cores⟩, mdc, guard, credit, armed, formed, manages, zones⟩ :=
      enterRunning_facts (s := s.elapse dt) rfl
    refine ⟨enterRunning (s.elapse dt), answers (if_pos (ready_iff.mpr can)) (finishNew_stopped still msu),
      ⟨t_now, plu, lst, setup, ?_, ?_, ?_, cores⟩, mdc, guard, credit, armed, formed, manages, zones⟩
    · rw [msu]
      exact (Msu.stopped_kept _ _).1
    · rw [msu]
      exact (Msu.stopped_kept _ _).2
    · rw [msu]
      exact Msu.stopped_claim _ _
  · refine answers (t := s.elapse dt) ?_ (finishNew_self _)
    rcases mode with mode | mode <;> simp [dozeOwner, modeRefusal, mode]
  · refine answers (t := s.elapse dt) ?_ (finishNew_self _)
    rcases mode with mode | mode <;> simp [wakeOwner, modeRefusal, mode]
  · refine answers (t := s.elapse dt) ?_ (finishNew_self _)
    simp [dozeOwner, modeAnswer, dozing]
  · refine answers (t := s.elapse dt) ?_ (finishNew_self _)
    simp [wakeOwner, modeAnswer, running]
  · obtain ⟨moved, facts⟩ := goDozing_facts (s.elapse dt)
    refine ⟨goDozing (s.elapse dt), ⟨answers ?_ (finishNew_stopped still moved.msu), keeps_of moved, moved.mdc, moved.credit,
      moved.zones⟩, facts⟩
    simp [dozeOwner, modeAnswer, running, moved.mdc]
  · have moved := wakeUp_moved (s.elapse dt)
    refine ⟨wakeUp (s.elapse dt), ⟨answers ?_ (finishNew_stopped still moved.msu), keeps_of moved, moved.mdc, moved.credit,
      moved.zones⟩, wakeUp_csu (s.elapse dt)⟩
    simp [wakeOwner, modeAnswer, dozing, moved.mdc]

end Sys2Proof.Machine

/-! PROOFS. DOMAIN_DECLARE and DOMAIN_RETIRE (R122 to R124). -/

namespace Sys2Proof.Machine

/-! ## The checks of a declaration (R122) -/

section
variable {f : DomainFields} {k : DomainKind} {s : State}

theorem declareFieldsOk_iff : declareFieldsOk f k = true ↔ f.reservedFlags = 0 ∧ f.labelLength ≤ 8 ∧
    (∀ x ∈ f.labelChars.take f.labelLength, 0x20 ≤ x.toNat ∧ x.toNat ≤ 0x7E) ∧ f.priority ≤ 3 ∧ f.floor ≤ 250000 ∧
    f.ceiling ≤ 250000 ∧ f.floor % 250 = 0 ∧ f.ceiling % 250 = 0 ∧ f.floor ≤ f.ceiling ∧ (k = .charger → f.floor = 0) ∧
    500 ≤ f.rail ∧ f.rail ≤ 25000 ∧ (f.volt ≠ none → f.sense ≠ none ∧ f.volt ≠ f.sense) := by
  have volts : ((f.volt.isNone || f.sense.isSome) && (f.volt.isNone || f.volt != f.sense)) = true ↔
      (f.volt ≠ none → f.sense ≠ none ∧ f.volt ≠ f.sense) := by
    cases f.volt <;> simp [Option.isSome_iff_ne_none]
  have charger : (k != .charger || f.floor == 0) = true ↔ (k = .charger → f.floor = 0) := by
    cases k <;> simp
  rw [← volts, ← charger, declareFieldsOk]
  simp only [Bool.and_eq_true, beq_iff_eq, decide_eq_true_eq, List.all_eq_true, isStep_iff, and_assoc]

theorem optBelow_map {n : Nat} (x : Option (Fin n)) : optBelow n (x.map Fin.val) = true := by
  cases x <;> simp [optBelow]

theorem bind_index?_map {n : Nat} (x : Option (Fin n)) : (x.map Fin.val).bind (index? n) = x := by
  cases x <;> simp

theorem anyDomain_iff {a : Alc} {p : Domain → Bool} : a.anyDomain p = true ↔
    ∃ j d, a.domains.get j = some d ∧ p d = true := by
  simp only [Alc.anyDomain, List.any_eq_true, mem_six, true_and]
  refine exists_congr fun j => ?_
  cases a.domains.get j <;> simp

theorem anyDomain_eq_false {a : Alc} {p : Domain → Bool} : a.anyDomain p = false ↔
    ∀ j d, a.domains.get j = some d → p d = false := by
  rw [← Bool.not_eq_true, anyDomain_iff]
  simp

/-- Step 6 of R122, in the words of the statement. -/
theorem declareFree_iff {sense volt : Option (Fin 16)} {line : Option (Fin 6)} :
    declareFree s k sense volt line = true ↔ (∀ n, sense = some n → (s.msu.channels.get n).kind = .current) ∧
      (∀ n, volt = some n → (s.msu.channels.get n).kind = .voltage) ∧
      ∀ j d, s.alc.domains.get j = some d → ¬(k = .charger ∧ d.kind = .charger) ∧
        (∀ n, (sense = some n ∨ volt = some n) → d.sense ≠ some n ∧ d.volt ≠ some n) ∧
        ∀ n, line = some n → d.line ≠ some n := by
  simp only [declareFree, Bool.and_eq_true, Bool.or_eq_true, Option.all_eq_true, Bool.not_eq_true', anyDomain_eq_false,
    State.kindIs, beq_iff_eq, bne_iff_ne, ne_eq, Domain.names, Bool.or_eq_false_iff, beq_eq_false_iff_ne]
  constructor
  · rintro ⟨⟨⟨current, voltage⟩, lines⟩, charger⟩
    refine ⟨fun n h => (current n h).1, fun n h => (voltage n h).1, fun j d slot => ⟨?_, ?_, fun n h => lines n h j d slot⟩⟩
    · rintro ⟨one, two⟩
      exact charger.elim (· one) fun none => none j d slot two
    · rintro n (h | h)
      · exact (current n h).2 j d slot
      · exact (voltage n h).2 j d slot
  · rintro ⟨current, voltage, others⟩
    refine ⟨⟨⟨fun n h => ⟨current n h, fun j d slot => (others j d slot).2.1 n (.inl h)⟩,
      fun n h => ⟨voltage n h, fun j d slot => (others j d slot).2.1 n (.inr h)⟩⟩,
      fun n h j d slot => (others j d slot).2.2 n h⟩, ?_⟩
    by_cases charger : k = .charger
    · exact .inr fun j d slot two => (others j d slot).1 ⟨charger, two⟩
    · exact .inl charger

end

/-! ## The declaration (R123) -/

section
variable {f : DomainFields} {k : DomainKind} {i : Fin 6} {s : State}

theorem domainDeclare_prepare (h : s.mdc.mode = .prepare) : domainDeclare f s = (s, .only .notReady) := if_pos h

variable (mode : s.mdc.mode ≠ .prepare)
include mode

theorem domainDeclare_noSlot (big : 6 ≤ f.slot) : domainDeclare f s = (s, .only .noSuch) := by
  rw [domainDeclare, if_neg mode, index?_none big]
  rfl

variable (slot : f.slot = i.val)
include slot

theorem domainDeclare_held (held : s.alc.domains.get i ≠ none) : domainDeclare f s = (s, .only .conflict) := by
  rw [domainDeclare, if_neg mode, slot, index?_val]
  exact if_pos (Option.isSome_iff_ne_none.mpr held)

variable (empty : s.alc.domains.get i = none)
include empty

theorem domainDeclare_badField (bad : ∀ k, f.kind = some k → ¬declareFieldsOk f k = true) :
    domainDeclare f s = (s, .only .badField) := by
  rw [domainDeclare, if_neg mode, slot, index?_val]
  dsimp only
  rw [if_neg (by simp [empty])]
  cases kind : f.kind with
  | none => rfl
  | some k => exact if_pos (by simpa using bad k kind)

variable (kind : f.kind = some k) (good : declareFieldsOk f k = true)
include kind good

theorem domainDeclare_good : domainDeclare f s =
    if !(optBelow 16 f.sense && optBelow 16 f.volt && optBelow 6 f.line) then refuse .noSuch s
    else
      let d := declaredDomain f k s.managed
      if !declareFree s k d.sense d.volt d.line then refuse .conflict s
      else if s.minBudget < s.alc.floorSum + f.floor then refuse .outOfLimits s
      else
        let t := enterDomain i d s
        (t, { status := .ok, body := declaredBody i t }) := by
  rw [domainDeclare, if_neg mode, slot, index?_val]
  dsimp only
  rw [if_neg (by simp [empty]), kind]
  dsimp only
  rw [if_neg (by simp [good])]

end

/-- A managed declaration's record gives no reason to raise or to lower it. -/
theorem rests_declared {d : Domain} {ceiling : Nat} (request : d.request = none) (grant : d.grant = some d.floor)
    (formed : d.effCeiling = some ceiling) (le : d.floor ≤ ceiling) : Rests (some d) := by
  intro e he
  cases he
  simp [Domain.held, Domain.wanted, Domain.wanted?, Domain.wantedIn, request, grant, formed, le]

/-- The GRANT notice of a declared domain, outside the reasons of a round. -/
theorem postGrant_eq {i : Fin 6} {d : Domain} {s : State} {reason : GrantReason} (slot : s.alc.domains.get i = some d)
    (outside : reason ≠ .round) : postGrant reason i s = s.post (s.grantNotice i d reason []) := by
  have none : s.alc.round.causesFor i reason = [] := if_neg fun h => outside h.1
  rw [postGrant, slot, none]
  rfl

theorem assignIfNamed_eq (line d : Option (Fin 6)) (s : State) : assignIfNamed line d s = { s with
    clu := match line with
      | some n => s.clu.set n { s.clu.get n with assigned := d }
      | none => s.clu } := by
  cases line <;> rfl

/-- A declaration under management: record and notice, then the recomputation. -/
theorem enterDomain_managed {i : Fin 6} {d : Domain} {s : State} (managed : s.managed = true) :
    enterDomain i d s = recompute .ceiling (State.post
      (s.grantNotice i { d with effCeiling := some (s.ceilingOf d) } .raise [])
      (assignIfNamed d.line (some i) (s.setDomain i (some { d with effCeiling := some (s.ceilingOf d) })))) := by
  have slot : (assignIfNamed d.line (some i) (s.setDomain i (some { d with effCeiling := some (s.ceilingOf d) }))).alc.domains.get
      i = some { d with effCeiling := some (s.ceilingOf d) } := by
    rw [assignIfNamed_alc]
    simp
  rw [enterDomain, if_pos managed, postGrant_eq slot (by decide)]
  rw [assignIfNamed_eq]
  rfl

/-- What a managed declaration leaves: its slot, its notice, and queue and round that do not name it. -/
theorem enterDomain_spared {i : Fin 6} {d : Domain} {s : State} (managed : s.managed = true)
    (request : d.request = none) (grant : d.grant = some d.floor) (le : d.floor ≤ s.ceilingOf d) :
    let settled := { d with effCeiling := some (s.ceilingOf d) }
    let notice := s.grantNotice i settled .raise []
    let t := enterDomain i d s
    t.alc.domains.get i = some settled ∧
      (if s.slk.notices.length < 16 ∨ ∃ m ∈ s.slk.notices, m.key = notice.key then notice ∈ t.slk.notices
        else t.slk.dropped = true) ∧ (s.alc.unnamed i → t.alc.unnamed i) := by
  intro settled notice t
  have rests := rests_declared (d := settled) request grant rfl le
  have told := post_waits_or_drops notice s.slk
  have start : ∀ k : Slk → Prop, k (s.slk.post notice) →
      Spared i (some settled) k (s.alc.unnamed i)
        (State.post notice (assignIfNamed d.line (some i) (s.setDomain i (some settled)))) := fun k hk =>
    ⟨by rw [State.post_alc, assignIfNamed_alc]; simp, by rw [assignIfNamed_eq]; exact hk, fun un => by
      rw [State.post_alc, assignIfNamed_alc]
      exact un⟩
  have t_eq : t = _ := enterDomain_managed managed
  have ended : ∀ k : Slk → Prop, Holds i k → k (s.slk.post notice) → Spared i (some settled) k (s.alc.unnamed i) t :=
    fun k holds hk => by
      rw [t_eq]
      exact (start k hk).recompute rests holds .ceiling
  refine ⟨(ended _ (holds_true i) trivial).slot, ?_, (ended _ (holds_true i) trivial).names⟩
  split at told
  · next room =>
    rw [if_pos room]
    exact (ended _ (holds_notice rfl) told).link
  · next full =>
    rw [if_neg full]
    exact (ended _ (holds_dropped i) told).link

/-- Settles O48. -/
theorem declarationsFillTheSlot : Obligations.DeclarationsFillTheSlot := by
  unfold Obligations.DeclarationsFillTheSlot
  intro dt tag f s takes refused label good
  have refusal : ∀ {st}, domainDeclare f (s.elapse dt) = (s.elapse dt, .only st) → refused st := fun h => owner_answers takes h
  have good_iff : ∀ k, declareFieldsOk f k = true ↔ good k := fun k => declareFieldsOk_iff
  refine ⟨fun h => refusal (domainDeclare_prepare h), fun mode big => refusal (domainDeclare_noSlot mode big),
    fun i c mode chassis slot => ⟨fun held => refusal (domainDeclare_held mode slot held), fun empty bad =>
      refusal (domainDeclare_badField mode slot empty fun k kind ok => bad k kind ((good_iff k).mp ok)),
      fun k empty kind ok => ?_⟩⟩
  have checked := domainDeclare_good (s := s.elapse dt) mode slot empty kind ((good_iff k).mpr ok)
  refine ⟨fun missing => refusal (checked.trans (if_pos ?_)), fun sense volt line hs hv hl => ?_⟩
  · simp only [optBelow, Bool.not_eq_true', Bool.and_eq_false_iff, Option.all_eq_false, decide_eq_false_iff_not, not_lt]
    rcases missing with ⟨n, h | h, big⟩ | ⟨n, h, big⟩
    · exact .inl (.inl ⟨n, h, big⟩)
    · exact .inl (.inr ⟨n, h, big⟩)
    · exact .inr ⟨n, h, big⟩
  intro free d ceiling settled notice unnamed filled
  have named : (declaredDomain f k (s.elapse dt).managed).sense = sense ∧ (declaredDomain f k (s.elapse dt).managed).volt = volt ∧
      (declaredDomain f k (s.elapse dt).managed).line = line := by
    simp [declaredDomain, hs, hv, hl, bind_index?_map]
  obtain ⟨n_sense, n_volt, n_line⟩ := named
  rw [hs, hv, hl] at checked
  simp only [optBelow_map, Bool.and_self, Bool.not_true, Bool.false_eq_true, if_false, n_sense, n_volt, n_line] at checked
  have free_iff : declareFree (s.elapse dt) k sense volt line = true ↔ free := declareFree_iff
  have min_budget : (s.elapse dt).minBudget = c.minBudget := by simp [State.minBudget, chassis]
  rw [min_budget] at checked
  refine ⟨fun taken => refusal (checked.trans (if_pos (by simpa using mt free_iff.mp taken))), fun fits above => ?_,
    fun fits room => ?_⟩
  · exact refusal (checked.trans ((if_neg (by simpa using free_iff.mpr fits)).trans (if_pos above)))
  replace checked := checked.trans ((if_neg (by simpa using free_iff.mpr fits)).trans (if_neg (not_lt.mpr room)))
  set e := declaredDomain f k (s.elapse dt).managed with he
  set t := enterDomain i e (s.elapse dt) with ht
  have record : e = { d with
      grant := if s.managed then some f.floor else none, state := if s.managed then .settled else .unmanaged } := by
    simp only [he, declaredDomain, hs, hv, hl, bind_index?_map, labelOf]
    rfl
  have outside : s.managed = false → e = d ∧ t = filled d := fun un => by
    have plain : e = d := by
      rw [record, un]
      rfl
    refine ⟨plain, ?_⟩
    have off : (s.elapse dt).managed = false := un
    rw [ht, enterDomain, if_neg (by simp [off]), assignIfNamed_eq, n_line, plain]
    rfl
  have inside : s.managed = true → { e with effCeiling := some ((s.elapse dt).ceilingOf e) } = settled ∧
      (s.elapse dt).ceilingOf e = ceiling := fun managed => by
    have ceiling_eq : (s.elapse dt).ceilingOf e = ceiling := by
      rw [record]
      rfl
    refine ⟨?_, ceiling_eq⟩
    rw [ceiling_eq, record, managed]
    rfl
  have le : e.floor ≤ (s.elapse dt).ceilingOf e := by
    obtain ⟨-, -, -, -, -, -, -, -, floor_le, charger, -⟩ := ok
    rw [record]
    show f.floor ≤ Domain.ceilingNow _ _ _
    unfold Domain.ceilingNow
    dsimp only [d]
    split
    · next is => simp [charger is]
    · exact floor_le
  have whole : s.managed = true → t = recompute .ceiling (State.post notice (filled settled)) := fun managed => by
    rw [ht, enterDomain_managed (by exact managed), (inside managed).1, n_line, assignIfNamed_eq]
    rfl
  have parts : (s.elapse dt).grantsOnly t ∧ t.clu = (filled d).clu ∧
      ∀ j, t.alc.coreOf j = if j = i then some d.core else s.alc.coreOf j := by
    have cores : ∀ x : Domain, x.core = d.core → ∀ j, (filled x).alc.coreOf j = if j = i then some d.core else s.alc.coreOf j :=
      fun x hx j => by
        simp only [filled, Alc.coreOf, get_set, eq_comm (a := i)]
        split
        · simp [hx]
        · rfl
    cases managed : s.managed with
    | false =>
      rw [(outside managed).2]
      exact ⟨rfl, rfl, cores d rfl⟩
    | true =>
      have grants := (Grants.refl (State.post notice (filled settled))).recompute .ceiling
      rw [← whole managed] at grants
      refine ⟨?_, ?_, fun j => (grants.cores j).trans (cores settled rfl j)⟩
      · have only := grants.only
        rw [State.grantsOnly, State.post, slk_post_eq] at only
        exact only
      · rw [whole managed, recompute_clu]
        rfl
  obtain ⟨only, clu, cores⟩ := parts
  refine ⟨t, (owner_answers takes checked).trans ?_, only, fun n hn => ?_, cores, fun un => (outside un).2, fun managed => ?_⟩
  · unfold declaredBody
    cases t.alc.domains.get i <;> rfl
  · subst hn
    rw [clu]
    simp [filled]
  · have grant : e.grant = some e.floor := by
      rw [record, managed]
      rfl
    obtain ⟨kept, told, names⟩ := enterDomain_spared (s := s.elapse dt) (i := i) managed (by rw [record]) grant le
    rw [(inside managed).1] at kept told
    refine ⟨whole managed, kept, ?_, told, names⟩
    rw [whole managed]
    exact recompute_effective .ceiling (by exact managed)

end Sys2Proof.Machine

/-! PROOFS. DOMAIN_RETIRE, and what a close of a round leaves of the budget record (R124, R149). -/

namespace Sys2Proof.Machine

theorem grantsOnly_trans {s t u : State} (h : s.grantsOnly t) (k : t.grantsOnly u) : s.grantsOnly u := by
  rw [State.grantsOnly] at *
  rw [k, h]

section
variable {s : State} {slot : Nat}

theorem domainAt_none (h : ∀ i : Fin 6, slot = i.val → s.alc.domains.get i = none) : s.domainAt slot = none := by
  unfold State.domainAt
  split
  · rfl
  · next i hi => rw [h i (index?_eq_some hi)]; rfl

theorem domainAt_some {i : Fin 6} {d : Domain} (number : slot = i.val) (h : s.alc.domains.get i = some d) :
    s.domainAt slot = some (i, d) := by
  simp [State.domainAt, number, h]

end

/-! ## The close of a round (R149) -/

theorem grantReservation_budget (s : State) : (grantReservation s).alc.budget = s.alc.budget := by
  unfold grantReservation
  split
  · rfl
  · rw [raiseGrant_budget]
    rfl

theorem closeIfDone_budget (s : State) : (closeIfDone s).alc.budget = s.alc.budget := by
  unfold closeIfDone
  split
  · rw [closeRound, serve_budget]
    exact grantReservation_budget s
  · rfl

theorem nextRound_ne (n : Nat) : nextRound n ≠ n := by
  unfold nextRound
  split <;> omega

/-- With nothing reserved, a serving that opens no round reserves nothing. -/
theorem serve_reserves {s : State} (clear : s.alc.round.reservation = 0 ∧ s.alc.round.beneficiary = none)
    (same : (serve s).alc.round.number = s.alc.round.number) :
    (serve s).alc.round.reservation = 0 ∧ (serve s).alc.round.beneficiary = none := by
  rcases serve_round s with e | ⟨-, e⟩
  · rw [e]
    exact clear
  · rw [e] at same
    exact absurd same (nextRound_ne _)

/-- A close with nothing reserved is a serving with the record cleared. -/
theorem closeRound_reserves {s : State} (nobody : s.alc.round.beneficiary = none)
    (same : (closeRound s).alc.round.number = s.alc.round.number) :
    (closeRound s).alc.round.reservation = 0 ∧ (closeRound s).alc.round.beneficiary = none := by
  have kept : grantReservation s = s := by simp [grantReservation, nobody]
  have round : (clearRound (postRound (grantReservation s))).alc.round = s.alc.round.closed := by
    rw [kept]
    rfl
  refine serve_reserves ?_ ?_
  · rw [round]
    exact ⟨rfl, rfl⟩
  · rw [round]
    exact same

theorem revoking_iff {a : Alc} {i : Fin 6} :
    a.revoking i = true ↔ ∃ d, a.domains.get i = some d ∧ d.state = .revoking := by
  unfold Alc.revoking
  split
  · next d slot => simp [slot]
  · next empty => simp [empty]

theorem closeIfDone_waits {s : State} (h : s.alc.round.opened = false ∨ ∃ i, s.alc.revoking i = true) : closeIfDone s = s := by
  refine if_neg ?_
  rcases h with h | ⟨i, h⟩
  · simp [h]
  · have any : six.any s.alc.revoking = true := List.any_eq_true.mpr ⟨i, mem_six i, h⟩
    simp [any]

theorem closeIfDone_closes {s : State} (opened : s.alc.round.opened = true) (none : ∀ i, s.alc.revoking i = false) :
    closeIfDone s = closeRound s := by
  have any : six.any s.alc.revoking = false := by simp [List.any_eq_false, none]
  exact if_pos (by simp [opened, any])

/-! ## The emptied slot (R124) -/

section
variable (i : Fin 6) (d : Domain) (s : State)

theorem emptySlot_rest : emptySlot i d s = { assignIfNamed d.line none (withdrawOverdue d s) with
    alc := (emptySlot i d s).alc } := by
  have adjusted : ∀ t : State, adjustReservation i t = { t with alc := (adjustReservation i t).alc } := fun t => by
    unfold adjustReservation
    split
    · split
      · rfl
      · split <;> rfl
    · rfl
  obtain ⟨q, e⟩ := syncQueue_eq i (State.setDomain i none (assignIfNamed d.line none (withdrawOverdue d s)))
  rw [emptySlot, adjusted, e]
  rfl

theorem withdrawOverdue_lines : s.linesOnly (withdrawOverdue d s) := by
  unfold withdrawOverdue
  split
  · rfl
  · exact linesOnly_setLine ..

theorem emptySlot_only : s.grantsOnly (emptySlot i d s) := by
  have lines := withdrawOverdue_lines d s
  rw [State.linesOnly] at lines
  rw [State.grantsOnly, emptySlot_rest, assignIfNamed_eq]
  generalize withdrawOverdue d s = t at lines ⊢
  rw [lines]

theorem emptySlot_line {n : Fin 6} (line : d.line = some n) : ((emptySlot i d s).clu.get n).assigned = none ∧
    ClampCause.overdue ∉ ((emptySlot i d s).clu.get n).causes := by
  have clu : (emptySlot i d s).clu = (assignIfNamed d.line none (withdrawOverdue d s)).clu := by rw [emptySlot_rest]
  rw [clu, assignIfNamed_eq, line]
  simp [withdrawOverdue, line, withdrawCause_get, mem_withoutCause]

end

/-- What a managed retirement does after the slot is emptied. -/
theorem retireManaged_facts (i : Fin 6) (d : Domain) (s : State) :
    let u := refreshB (emptySlot i d s)
    let t := retireManaged i d s
    Grants u t ∧ t.clu = u.clu ∧ t.alc.budget = u.alc.budget ∧ Spared i none (fun _ => True) True t ∧
      (u.alc.round.beneficiary = none → u.alc.round.reservation = 0 → t.alc.round.number = u.alc.round.number →
        t.alc.round.reservation = 0 ∧ t.alc.round.beneficiary = none) ∧
      (u.alc.round.opened = true → (∃ j, u.alc.revoking j = true) → t = u) := by
  intro u t
  have spared : Spared i none (fun _ => True) True u := (spared_emptySlot i d s).setB _
  have rests : Rests none := fun _ h => by cases h
  have t_eq : t = if u.alc.round.opened then closeIfDone u else serve u := rfl
  clear_value t u
  cases opened : u.alc.round.opened with
  | true =>
    rw [opened, if_pos rfl] at t_eq
    rw [t_eq]
    refine ⟨(Grants.refl u).closeIfDone, ((Allocs.refl u).closeIfDone (C := False)).clu, closeIfDone_budget u,
      spared.closeIfDone rests (holds_true i) trivial, fun none zero same => ?_, fun _ revoking =>
        closeIfDone_waits (.inr revoking)⟩
    unfold closeIfDone at same ⊢
    split at same
    · next h =>
      rw [if_pos h]
      exact closeRound_reserves none same
    · next h =>
      rw [if_neg h]
      exact ⟨zero, none⟩
  | false =>
    rw [opened] at t_eq
    rw [t_eq, if_neg Bool.false_ne_true]
    exact ⟨(Grants.refl u).serve, ((Allocs.refl u).serve (C := False)).clu, serve_budget u,
      spared.serve rests (holds_true i), fun none zero same => serve_reserves ⟨zero, none⟩ same, fun h => by cases h⟩

/-- Settles O49. -/
theorem retirementEmptiesTheSlot : Obligations.RetirementEmptiesTheSlot := by
  unfold Obligations.RetirementEmptiesTheSlot
  intro dt tag slot s takes
  refine ⟨fun none => owner_answers takes (by rw [domainRetire, domainAt_none (by exact none)]; rfl),
    fun i d number held => ?_⟩
  have retired : domainRetire slot (s.elapse dt) =
      (if s.managed then retireManaged i d (s.elapse dt) else emptySlot i d (s.elapse dt), .only .ok) := by
    rw [domainRetire, domainAt_some number (by exact held)]
    by_cases m : s.managed = true
    · rw [if_pos m]
      exact if_pos m
    · rw [if_neg m]
      exact if_neg m
  set u := emptySlot i d (s.elapse dt) with hu
  have alc := emptySlot_alc i d (s.elapse dt)
  rw [← hu] at alc
  have emptied : u.alc.domains = s.alc.domains.set i none := by rw [alc]; rfl
  have round : u.alc.round = if s.alc.round.beneficiary = some i then
      { s.alc.round with affected := s.alc.round.affected.filter (·.slot != i), reservation := 0, beneficiary := none }
      else { s.alc.round with affected := s.alc.round.affected.filter (·.slot != i) } := by rw [alc]; rfl
  have names := (spared_emptySlot i d (s.elapse dt)).names trivial
  have only := emptySlot_only i d (s.elapse dt)
  have cores : ∀ j, j ≠ i → u.alc.coreOf j = s.alc.coreOf j := fun j ne => by
    rw [Alc.coreOf, emptied, get_set, if_neg (Ne.symm ne)]
    rfl
  cases managed : s.managed with
  | false =>
    rw [managed, if_neg Bool.false_ne_true] at retired
    refine ⟨u, owner_answers takes retired, only, ?_, cores, names.1, names.2.1, names.2.2, fun own _ => ?_, fun _ => round,
      fun n => emptySlot_line i d (s.elapse dt), fun _ => ⟨?_, emptied⟩, nofun⟩
    · rw [emptied, get_set, if_pos rfl]
    · rw [round, if_pos own]
      exact ⟨rfl, rfl⟩
    · rw [alc]
      rfl
  | true =>
    rw [managed, if_pos rfl] at retired
    obtain ⟨grants, clu, budget, spared, reserves, waits⟩ := retireManaged_facts i d (s.elapse dt)
    have round' : (refreshB u).alc.round = u.alc.round := rfl
    refine ⟨_, owner_answers takes retired, ?_, spared.slot, fun j ne => (grants.cores j).trans (cores j ne),
      (spared.names trivial).1, (spared.names trivial).2.1, (spared.names trivial).2.2, fun own same => ?_, fun goes => ?_,
      fun n line => ?_, nofun, fun _ => ?_⟩
    · exact grantsOnly_trans only (grantsOnly_trans (t := refreshB u) rfl grants.only)
    · refine reserves ?_ ?_ ?_
      · rw [← hu, round', round, if_pos own]
      · rw [← hu, round', round, if_pos own]
      · rw [← hu, round', round, if_pos own]
        exact same
    · obtain ⟨opened, j, e, ne, slot, revoking⟩ := goes.resolve_left nofun
      have same := waits ?_ ⟨j, revoking_iff.mpr ⟨e, ?_, revoking⟩⟩
      · rw [same, ← hu, round', round]
      · rw [← hu, round', round]
        split <;> exact opened
      · show u.alc.domains.get j = some e
        rw [emptied, get_set, if_neg (Ne.symm ne)]
        exact slot
    · rw [clu]
      exact emptySlot_line i d (s.elapse dt) line
    · have formed : (refreshB u).alc.budget = { s.alc.budget with effective := some (refreshB u).formB } := by
        show { u.alc.budget with effective := some u.formB } = _
        rw [alc]
        rfl
      rw [budget, grants.formB_eq]
      exact formed

end Sys2Proof.Machine

/-! PROOFS. DOMAIN_REQUEST and DOMAIN_PERMIT (R125 to R129). -/

namespace Sys2Proof.Machine

/-! ## The raise queue (R130) -/

theorem before_iff {a b : QueueEntry} : a.before b = true ↔
    a.priority < b.priority ∨ (a.priority = b.priority ∧ (a.time < b.time ∨ (a.time = b.time ∧ a.slot < b.slot))) := by
  simp [QueueEntry.before]

theorem dropEntry_dropEntry (i : Fin 6) (q : List QueueEntry) : dropEntry i (dropEntry i q) = dropEntry i q := by
  simp [dropEntry, List.filter_filter]

section
variable {i : Fin 6} {d : Domain} {s : State}

theorem syncQueue_waiting (slot : s.alc.domains.get i = some d) (waits : d.permit = .on ∧ d.held < d.wanted) :
    syncQueue i s = s.setQueue (s.queueWith i d) := by
  simp only [syncQueue, slot, if_pos waits, State.queueWith]
  split <;> rfl

/-! ## The reservation of a beneficiary (R134) -/

theorem adjustReservation_eq (slot : s.alc.domains.get i = some d) : adjustReservation i s = { s with alc := { s.alc with
    round := if s.alc.round.beneficiary = some i then
        if d.shortfall = 0 then { s.alc.round with reservation := 0, beneficiary := none }
        else { s.alc.round with reservation := min s.alc.round.reservation d.shortfall }
      else s.alc.round } } := by
  unfold adjustReservation
  by_cases own : s.alc.round.beneficiary = some i
  · simp only [own, if_true, slot]
    split
    · rfl
    · rw [State.reserve, ← own]
  · simp only [own, if_false]

end

/-! ## DOMAIN_REQUEST (R125, R126) -/

theorem actOnRequest_allocs {a s : State} {i : Fin 6} {d : Domain} (before : Domain) (h : Allocs False a s)
    (slot : s.alc.domains.get i = some d) : Allocs False a (actOnRequest i before d s) := by
  have kept : (syncQueue i (adjustReservation i s)).alc.domains.get i = some d := by
    rw [syncQueue_domains, adjustReservation_eq slot]
    exact slot
  have told := (h.adjustReservation i).syncQueue i
  have lowered := ((told.tail (.regrant (e := { d with grant := some d.wanted }) _ kept rfl (by simp))).syncQueue i).postGrant
    .lower i
  unfold actOnRequest
  dsimp only
  split
  · split
    · exact lowered.serve
    · exact lowered
  · split
    · split
      · exact told
      · exact told.serve
    · exact told

theorem adjustReservation_budget (i : Fin 6) (s : State) : (adjustReservation i s).alc.budget = s.alc.budget := by
  unfold adjustReservation
  split
  · split
    · rfl
    · split <;> rfl
  · rfl

theorem actOnRequest_budget (i : Fin 6) (before d : Domain) (s : State) :
    (actOnRequest i before d s).alc.budget = s.alc.budget := by
  have told : (syncQueue i (adjustReservation i s)).alc.budget = s.alc.budget := by
    rw [syncQueue_budget, adjustReservation_budget]
  have lowered : (postGrant .lower i <| syncQueue i <| (syncQueue i (adjustReservation i s)).setDomain i
      (some { d with grant := some d.wanted })).alc.budget = s.alc.budget := by
    rw [postGrant_alc, syncQueue_budget]
    exact told
  unfold actOnRequest
  dsimp only
  split
  · split
    · rw [serve_budget, lowered]
    · exact lowered
  · split
    · split
      · exact told
      · rw [serve_budget, told]
    · exact told

/-- A request that meets the grant. -/
theorem actOnRequest_equal {i : Fin 6} {before d : Domain} {s : State} (slot : s.alc.domains.get i = some d)
    (equal : d.wanted = d.held) :
    actOnRequest i before d s = (adjustReservation i s).setQueue (dropEntry i s.alc.queue) := by
  have still : d.waits = false := by simp [Domain.waits, equal]
  have kept : (adjustReservation i s).alc.domains.get i = some d := by
    rw [adjustReservation_eq slot]
    exact slot
  rw [actOnRequest, if_neg (by omega), if_neg (by omega), syncQueue_still kept still, adjustReservation_eq slot]

/-- A request below the grant. -/
theorem actOnRequest_below {i : Fin 6} {before d : Domain} {s : State} (slot : s.alc.domains.get i = some d)
    (below : d.wanted < d.held) :
    let e := { d with grant := some d.wanted }
    let u := State.post (s.grantNotice i e .lower []) (((adjustReservation i s).setQueue (dropEntry i s.alc.queue)).setDomain i
      (some e))
    actOnRequest i before d s = if 0 < u.alc.spare then serve u else u := by
  intro e u
  have still : d.waits = false := by simp [Domain.waits, le_of_lt below]
  have kept : (adjustReservation i s).alc.domains.get i = some d := by
    rw [adjustReservation_eq slot]
    exact slot
  have queue : (adjustReservation i s).alc.queue = s.alc.queue := by rw [adjustReservation_eq slot]
  have told : syncQueue i (adjustReservation i s) = (adjustReservation i s).setQueue (dropEntry i s.alc.queue) := by
    rw [syncQueue_still kept still, queue]
  set w := ((adjustReservation i s).setQueue (dropEntry i s.alc.queue)).setDomain i (some e) with hw
  have own : w.alc.domains.get i = some e := by simp [hw]
  have met : e.waits = false := by
    have same : e.wanted = d.wanted := rfl
    simp [Domain.waits, same, Domain.held, e]
  have synced : syncQueue i w = w := by
    rw [syncQueue_still own met]
    show w.setQueue (dropEntry i (dropEntry i s.alc.queue)) = w
    rw [dropEntry_dropEntry]
    rfl
  have notice : w.grantNotice i e .lower [] = s.grantNotice i e .lower [] := by
    rw [hw, adjustReservation_eq slot]
    rfl
  rw [actOnRequest]
  dsimp only
  rw [if_pos below, told, ← hw, synced, postGrant_eq own (by decide), notice]

/-- A request above the grant. -/
theorem actOnRequest_above {i : Fin 6} {before d : Domain} {s : State} (slot : s.alc.domains.get i = some d)
    (on : d.permit = .on) (above : d.held < d.wanted) :
    let u := (adjustReservation i s).setQueue (s.queueWith i d)
    actOnRequest i before d s = if s.alc.queue.any (·.slot == i) ∧ d.wanted ≤ before.wanted then u else serve u := by
  intro u
  have kept : (adjustReservation i s).alc.domains.get i = some d := by
    rw [adjustReservation_eq slot]
    exact slot
  have queue : (adjustReservation i s).queueWith i d = s.queueWith i d := by
    rw [adjustReservation_eq slot]
    rfl
  rw [actOnRequest]
  dsimp only
  rw [if_neg (by omega), if_pos above, syncQueue_waiting kept ⟨on, above⟩, queue]

section
variable {slot value : Nat} {i : Fin 6} {d : Domain} {s : State}

theorem domainRequest_noSuch (h : ∀ i : Fin 6, slot = i.val → s.alc.domains.get i = none) :
    domainRequest slot value s = (s, .only .noSuch) := by
  rw [domainRequest, domainAt_none h]
  rfl

variable (number : slot = i.val) (held : s.alc.domains.get i = some d)
include number held

theorem domainRequest_badField (big : 250000 < value) : domainRequest slot value s = (s, .only .badField) := by
  rw [domainRequest, domainAt_some number held]
  exact if_pos big

theorem domainRequest_off (fits : value ≤ 250000) (off : d.permit = .off) :
    domainRequest slot value s = (s, .only .notPermitted) := by
  rw [domainRequest, domainAt_some number held]
  exact (if_neg (not_lt.mpr fits)).trans (if_pos off)

theorem domainRequest_on (fits : value ≤ 250000) (on : d.permit = .on) :
    let r := d.requestFor value
    let d' := { d with request := some r }
    let stored := s.setDomain i (some d')
    let t := if s.managed then actOnRequest i d d' stored else stored
    domainRequest slot value s = (t, { status := if r = stepDown value then .ok else .trimmed, body := requestedBody i r t }) := by
  rw [domainRequest, domainAt_some number held]
  exact (if_neg (not_lt.mpr fits)).trans (if_neg (by simp [on]))

end

/-- A state's slot stored, for the domains' cores. -/
theorem coreOf_setDomain {i : Fin 6} {e : Domain} {s : State} (j : Fin 6) :
    (s.setDomain i (some e)).alc.coreOf j = if j = i then some e.core else s.alc.coreOf j := by
  simp only [Alc.coreOf, State.setDomain_alc, get_set, eq_comm (a := i)]
  split <;> rfl

/-- Settles O50. -/
theorem requestsActOnTheGrant : Obligations.RequestsActOnTheGrant := by
  unfold Obligations.RequestsActOnTheGrant
  refine ⟨fun e l => ?_, fun dt tag slot value s takes => ?_⟩
  · intro before
    refine ⟨enqueue_perm e l, fun order other => ?_⟩
    have placed := pairwise_enqueue (order.imp fun h => before_iff.mpr h) fun a ha => (other a ha).symm
    exact placed.imp fun h => before_iff.mp h
  intro refused
  have refusal : ∀ {st}, domainRequest slot value (s.elapse dt) = (s.elapse dt, .only st) → refused st := fun h =>
    owner_answers takes h
  refine ⟨fun none => refusal (domainRequest_noSuch none), fun i d number held => ⟨fun big =>
    refusal (domainRequest_badField number held big), fun fits off => refusal (domainRequest_off number held fits off),
    fun fits on => ?_⟩⟩
  intro rounded r stored
  set st := (s.elapse dt).setDomain i (some stored) with hst
  have slot' : st.alc.domains.get i = some stored := by simp [hst]
  obtain ⟨t, ht⟩ : ∃ t, t = if s.managed then actOnRequest i d stored st else st := ⟨_, rfl⟩
  have accepted : domainRequest slot value (s.elapse dt) =
      (t, { status := if r = rounded then .ok else .trimmed, body := requestedBody i r t }) := by
    rw [ht]
    exact domainRequest_on (s := s.elapse dt) number held fits on
  have parts : Grants st t ∧ t.clu = st.clu ∧ t.alc.budget = st.alc.budget := by
    rw [ht]
    split
    · have allocs := actOnRequest_allocs d (.refl st) slot'
      exact ⟨allocs.grants, allocs.clu, actOnRequest_budget ..⟩
    · exact ⟨.refl st, rfl, rfl⟩
  obtain ⟨grants, clu, budget⟩ := parts
  refine ⟨t, owner_answers takes accepted, grantsOnly_trans (t := st) rfl grants.only, clu, budget,
    fun j => (grants.cores j).trans (coreOf_setDomain j), fun un => ?_, fun g c managed grant formed => ?_⟩
  · rw [ht, un]
    rfl
  intro wanted round holding others lowered
  rw [managed, if_pos rfl] at ht
  have wants : stored.wanted = wanted := by simp [Domain.wanted, Domain.wanted?, Domain.wantedIn, stored, formed, wanted]
  have holds : stored.held = g := by simp [Domain.held, stored, grant]
  have adjusted : adjustReservation i st = { st with alc := { st.alc with round := round } } := by
    have short : stored.shortfall = wanted - g := by rw [Domain.shortfall, wants, holds]
    rw [adjustReservation_eq slot']
    simp only [short, Nat.sub_eq_zero_iff_le]
    rfl
  refine ⟨fun below => ?_, fun equal => ?_, fun above => ?_⟩
  · intro u
    have lowers : State.post (st.grantNotice i { stored with grant := some wanted } .lower [])
        ((({ st with alc := { st.alc with round := round } } : State).setQueue (dropEntry i st.alc.queue)).setDomain i
          (some { stored with grant := some wanted })) = u := by
      have twice : (s.alc.domains.set i (some stored)).set i (some { stored with grant := some wanted }) =
          s.alc.domains.set i (some lowered) := by simp [lowered]
      simp only [State.setDomain, State.setQueue, hst, u, holding, ← twice]
      rfl
    have spare : 0 < u.alc.spare ↔ u.alc.grantSum + round.reservation < s.alc.budget.effective.getD 0 := Nat.sub_pos_iff_lt
    rw [ht, actOnRequest_below slot' (by omega), adjusted, wants, lowers]
    simp only [spare]
  · rw [ht, actOnRequest_equal slot' (by omega), adjusted]
    rfl
  · intro u
    have before : d.wanted = max d.floor (min (d.request.getD d.floor) c) := by
      simp [Domain.wanted, Domain.wanted?, Domain.wantedIn, formed]
    rw [ht, actOnRequest_above slot' on (by omega), adjusted, wants, before]
    rfl

end Sys2Proof.Machine

/-! PROOFS. Reductions: which domains a plan lowers, in which order, and to what sum (R133, R140 to R143). -/

namespace Sys2Proof.Machine

/-! ## Sums over the six slots -/

theorem sumSix_eq (f : Fin 6 → Nat) : sumSix f = ∑ i, f i := by
  simp only [sumSix, Fin.sum_univ_six]

/-- A sum over slots without repetition that leaves out only zeros. -/
theorem sum_map_eq_sumSix {l : List (Fin 6)} {f : Fin 6 → Nat} (nodup : l.Nodup) (zero : ∀ i, i ∉ l → f i = 0) :
    (l.map f).sum = sumSix f := by
  rw [sumSix_eq, ← List.sum_toFinset f nodup]
  exact Finset.sum_subset (Finset.subset_univ _) fun i _ out => zero i (by simpa using out)

theorem sumSix_le {f g : Fin 6 → Nat} (h : ∀ i, f i ≤ g i) : sumSix f ≤ sumSix g := by
  rw [sumSix_eq, sumSix_eq]
  exact Finset.sum_le_sum fun i _ => h i

theorem sumSix_sub {f g : Fin 6 → Nat} (h : ∀ i, g i ≤ f i) : sumSix (fun i => f i - g i) + sumSix g = sumSix f := by
  rw [sumSix_eq, sumSix_eq, sumSix_eq, ← Finset.sum_add_distrib]
  exact Finset.sum_congr rfl fun i _ => Nat.sub_add_cancel (h i)

/-! ## Views of the table -/

section
variable {a : Alc} {i : Fin 6} {d : Domain}

theorem grants_some (slot : a.domains.get i = some d) : a.grants.get i = d.held := by
  simp [Alc.grants, get_tabulate, slot]

theorem grants_none (slot : a.domains.get i = none) : a.grants.get i = 0 := by
  simp [Alc.grants, get_tabulate, slot]

theorem floorOf_some (slot : a.domains.get i = some d) : a.floorOf i = d.floor := by simp [Alc.floorOf, slot]

theorem floorOf_none (slot : a.domains.get i = none) : a.floorOf i = 0 := by simp [Alc.floorOf, slot]

theorem trimmed_some (slot : a.domains.get i = some d) : a.trimmed.get i = min d.held (d.effCeiling.getD d.held) := by
  simp [Alc.trimmed, get_tabulate, slot]

theorem trimmed_none (slot : a.domains.get i = none) : a.trimmed.get i = 0 := by
  simp [Alc.trimmed, get_tabulate, slot]

theorem mem_overCeiling : i ∈ a.overCeiling ↔ a.trimmed.get i < a.grants.get i := by
  simp only [Alc.overCeiling, List.mem_filter, mem_six, true_and]
  cases slot : a.domains.get i with
  | none => simp [grants_none slot]
  | some d =>
    rw [grants_some slot, trimmed_some slot, decide_eq_true_eq]
    omega

theorem trimmed_le : a.trimmed.get i ≤ a.grants.get i := by
  cases slot : a.domains.get i with
  | none => rw [grants_none slot, trimmed_none slot]
  | some d =>
    rw [grants_some slot, trimmed_some slot]
    exact min_le_left _ _

theorem grantSum_eq : a.grantSum = sumSix a.grants.get := by
  unfold Alc.grantSum Alc.sumDomains
  refine congrArg sumSix (funext fun i => ?_)
  cases slot : a.domains.get i with
  | none => rw [grants_none slot]
  | some d => rw [grants_some slot]

theorem floorSum_eq : a.floorSum = sumSix a.floorOf := rfl

/-- A table whose domains satisfy a test. -/
theorem allDomains_iff {p : Domain → Bool} : a.allDomains p = true ↔ ∀ i d, a.domains.get i = some d → p d = true := by
  simp only [Alc.allDomains, List.all_eq_true, mem_six, forall_const]
  refine forall_congr' fun i => ?_
  cases a.domains.get i <;> simp

end

/-! ## Taking in order (R133, R140) -/

theorem Alc.before_asymm {a : Alc} {i j : Fin 6} (h : a.before i j) : ¬a.before j i := by
  rintro ⟨e, d, he, hd, k⟩
  obtain ⟨d', e', hd', he', h⟩ := h
  rw [hd] at hd'
  rw [he] at he'
  cases hd'
  cases he'
  omega

/-- Power is taken from a slot only when every slot before it in the order is at its floor. -/
theorem takeFrom_inOrder {a : Alc} {least need : Nat} {g : Vector Nat 6} {i j : Fin 6} (mem : i ∈ a.takeOrder least)
    (before : a.before i j) (floor : a.floorOf i ≤ g.get i)
    (taken : (takeFrom a.floorOf (a.takeOrder least) need g).get j < g.get j) :
    (takeFrom a.floorOf (a.takeOrder least) need g).get i = a.floorOf i := by
  have mem' : j ∈ a.takeOrder least := by
    by_contra out
    rw [takeFrom_get_of_not_mem _ out] at taken
    exact lt_irrefl _ taken
  obtain ⟨l, r, split⟩ := List.append_of_mem mem
  have order := pairwise_takeOrder a least
  have nodup := nodup_takeOrder a least
  rw [split] at taken mem' order nodup ⊢
  rw [List.pairwise_append] at order
  have after : j ∈ r := by
    rcases List.mem_append.mp mem' with left | right
    · exact absurd (order.2.2 j left i List.mem_cons_self) (Alc.before_asymm before)
    · rcases List.mem_cons.mp right with rfl | right
      · exact absurd before (Alc.before_asymm before)
      · exact right
  exact takeFrom_order _ l r i j need g nodup floor taken after

/-! ## A reduction's plan (R140) -/

section
variable {a : Alc} {b : Nat} {i : Fin 6}

theorem reducedGrants_le : (a.reducedGrants b).get i ≤ a.trimmed.get i := takeFrom_le ..

/-- The plan lowers exactly the domains whose grant it changes. -/
theorem mem_reductionOrder : i ∈ a.reductionOrder (a.reducedGrants b) ↔ (a.reducedGrants b).get i < a.grants.get i := by
  have le := reducedGrants_le (a := a) (b := b) (i := i)
  simp only [Alc.reductionOrder, List.mem_append, List.mem_filter, mem_overCeiling, Bool.and_eq_true, Bool.not_eq_true',
    decide_eq_true_eq]
  constructor
  · rintro (high | ⟨-, -, lower⟩)
    · omega
    · exact lower
  · intro lower
    by_cases high : a.trimmed.get i < a.grants.get i
    · exact .inl high
    · refine .inr ⟨?_, ?_, lower⟩
      · by_contra out
        have kept : (a.reducedGrants b).get i = a.trimmed.get i := takeFrom_get_of_not_mem _ out _ _
        omega
      · rw [← Bool.not_eq_true, List.contains_iff_mem, mem_overCeiling]
        exact high

theorem nodup_reductionOrder (targets : Vector Nat 6) : (a.reductionOrder targets).Nodup := by
  have six_nodup : six.Nodup := by decide
  refine List.Nodup.append (six_nodup.filter _) ((nodup_takeOrder a 0).filter _) fun j high rest => ?_
  have out := (List.mem_filter.mp rest).2
  simp only [Bool.and_eq_true, Bool.not_eq_true', ← Bool.not_eq_true, List.contains_iff_mem] at out
  exact out.1 high

/-- What is left of the trimmed grants: B as far as the floors let it. -/
theorem sum_reducedGrants (sound : a.allDomains Domain.sound = true) (holds : a.allDomains Domain.holdsFloor = true)
    (floors : a.floorSum ≤ b) : sumGrants (a.reducedGrants b) = min (sumGrants a.trimmed) b := by
  have floor : ∀ i, a.floorOf i ≤ a.trimmed.get i := fun i => by
    cases slot : a.domains.get i with
    | none => rw [floorOf_none slot]; exact Nat.zero_le _
    | some d =>
      have h := allDomains_iff.mp holds i d slot
      simp only [Domain.holdsFloor, Bool.and_eq_true, Option.any_eq_true, decide_eq_true_eq] at h
      obtain ⟨⟨g, grant, low⟩, c, formed, fits⟩ := h
      rw [floorOf_some slot, trimmed_some slot, Domain.held, grant, formed]
      exact le_min low fits
  have outside : ∀ i, i ∉ a.takeOrder 0 → a.domains.get i = none := fun i out => by
    by_contra declared
    obtain ⟨d, slot⟩ := Option.ne_none_iff_exists'.mp declared
    have h := allDomains_iff.mp sound i d slot
    simp only [Domain.sound, Bool.and_eq_true, decide_eq_true_eq] at h
    exact out (mem_takeOrder.mpr ⟨d, slot, Nat.zero_le _, h.1.1.1⟩)
  set need := a.taken - b - a.round.reservation - (a.grantSum - sumGrants a.trimmed) with hneed
  have total := takeFrom_sum a.floorOf (a.takeOrder 0) need a.trimmed (nodup_takeOrder a 0) fun i _ => floor i
  have kept : ∀ i, i ∉ a.takeOrder 0 → (takeFrom a.floorOf (a.takeOrder 0) need a.trimmed).get i = 0 := fun i out => by
    rw [takeFrom_get_of_not_mem _ out, trimmed_none (outside i out)]
  rw [sum_map_eq_sumSix (nodup_takeOrder a 0) kept,
    sum_map_eq_sumSix (nodup_takeOrder a 0) fun i out => by rw [trimmed_none (outside i out), Nat.zero_sub],
    sum_map_eq_sumSix (nodup_takeOrder a 0) fun i out => trimmed_none (outside i out)] at total
  have above := sumSix_sub floor
  have trim : sumGrants a.trimmed ≤ a.grantSum := by
    rw [grantSum_eq]
    exact sumSix_le fun i => trimmed_le
  have total : sumGrants (a.reducedGrants b) + min need (sumSix fun i => a.trimmed.get i - a.floorOf i) = sumGrants a.trimmed :=
    total
  have above : (sumSix fun i => a.trimmed.get i - a.floorOf i) + a.floorSum = sumGrants a.trimmed := above
  rw [Alc.taken] at hneed
  omega

end

end Sys2Proof.Machine

/-! PROOFS. What a reduction leaves of domains, round and grants (R115, R140 to R143). -/

namespace Sys2Proof.Machine

/-! ## A plan carried out on the table -/

section
variable {c : RoundCause} {targets : Vector Nat 6} {order : List (Fin 6)} {s u : State}

/-- The grants after a plan whose slots are declared. -/
theorem grants_lowerEach (nodup : order.Nodup) (domains : u.alc.domains = s.alc.domains)
    (declared : ∀ i ∈ order, s.alc.domains.get i ≠ none) (i : Fin 6) :
    (lowerEach c targets order u).alc.grants.get i = if i ∈ order then targets.get i else s.alc.grants.get i := by
  have get := lowerEach_get (c := c) (targets := targets) nodup u i
  rw [domains] at get
  split
  · next mem =>
    rw [if_pos mem] at get
    obtain ⟨d, slot⟩ := Option.ne_none_iff_exists'.mp (declared i mem)
    rw [slot] at get
    rw [grants_some get]
    rfl
  · next out =>
    rw [if_neg out] at get
    simp only [Alc.grants, get_tabulate, get]

/-- A plan that lowers grants, none below its floor, lowers the domains of its order and no others. -/
theorem lowersDomains_lowerEach {listed : Fin 6 → Bool} (nodup : order.Nodup) (domains : u.alc.domains = s.alc.domains)
    (lists : ∀ i ∈ order, u.alc.round.lists i = listed i)
    (plan : ∀ i ∈ order, ∀ d, s.alc.domains.get i = some d → d.floor ≤ targets.get i ∧ targets.get i < d.held)
    (floors : ∀ i d, s.alc.domains.get i = some d → d.floor ≤ d.held) :
    s.lowersDomains (lowerEach c targets order u) listed := by
  intro i
  have get := lowerEach_get (c := c) (targets := targets) nodup u i
  rw [domains] at get
  refine ⟨fun empty => ?_, fun d slot => ?_⟩
  · rw [get, empty]
    split <;> rfl
  rw [slot] at get
  by_cases mem : i ∈ order
  · rw [if_pos mem] at get
    obtain ⟨low, below⟩ := plan i mem d slot
    refine ⟨_, get, low, le_of_lt below, fun same => absurd same (ne_of_lt below), fun _ => ⟨?_, by simp [Domain.lowered], ?_, ?_⟩⟩
    · rw [← lists i mem]
      rfl
    · obtain ⟨extra, round, -, all⟩ := lowerEach_round (c := c) (targets := targets) nodup u
      rw [round]
      cases known : u.alc.round.lists i with
      | true =>
        obtain ⟨a, ha, own⟩ := List.any_eq_true.mp known
        refine ⟨a, List.mem_append_left _ ha, by simpa using own, fun unlisted => ?_⟩
        rw [← lists i mem, known] at unlisted
        cases unlisted
      | false =>
        refine ⟨{ slot := i, oldGrant := d.held }, List.mem_append_right _ ((all _).mpr ⟨mem, known, d, ?_, rfl⟩), rfl,
          fun _ => rfl⟩
        rw [domains]
        exact slot
    · intro on short
      refine (entry_lowerEach nodup mem (by rw [domains]; exact slot)).mpr ?_
      rw [waits_of_slot get]
      exact waits_iff.mpr ⟨on, short⟩
  · rw [if_neg mem] at get
    exact ⟨d, get, floors i d slot, le_refl _, fun _ => rfl, fun below => absurd below (lt_irrefl _)⟩

end

/-! ## The round a step opens or folds into (R141, R143) -/

theorem joinRound_open {s : State} {c : RoundCause} {none : Bool} (opened : s.alc.round.opened = true) :
    joinRound c none s = { s with alc := { s.alc with round := { s.alc.round with
      causes := withRoundCause s.alc.round.causes c } } } := by
  simp [joinRound, Round.join, opened]

theorem joinRound_opens {s : State} {c : RoundCause} (closed : s.alc.round.opened = false) :
    joinRound c false s = { s with alc := { s.alc with round := { s.alc.round with
      number := nextRound s.alc.round.number, opened := true, causes := [c], affected := [] } } } := by
  simp [joinRound, Round.join, closed]

theorem joinRound_domains (c : RoundCause) (none : Bool) (s : State) : (joinRound c none s).alc.domains = s.alc.domains := by
  unfold joinRound
  split <;> rfl

theorem mem_withRoundCause {l : List RoundCause} {c x : RoundCause} : x ∈ withRoundCause l c ↔ x = c ∨ x ∈ l := by
  have all : x ∈ allRoundCauses := by cases x <;> decide
  simp [withRoundCause, all, or_comm]

/-! ## A reduction (R140) -/

section
variable (c : RoundCause) (s : State)

theorem reduce_eq : reduce c s =
    lowerEach c (s.alc.reducedGrants (s.alc.budget.effective.getD 0))
      (s.alc.reductionOrder (s.alc.reducedGrants (s.alc.budget.effective.getD 0)))
      (joinRound c (s.alc.reductionOrder (s.alc.reducedGrants (s.alc.budget.effective.getD 0))).isEmpty (s.reserve 0 none)) :=
  rfl

variable {c s} in
theorem reductionOrder_declared {targets : Vector Nat 6} {i : Fin 6} (mem : i ∈ s.alc.reductionOrder targets) :
    s.alc.domains.get i ≠ none := by
  intro empty
  rcases List.mem_append.mp mem with high | rest
  · rw [mem_overCeiling, trimmed_none empty, grants_none empty] at high
    exact lt_irrefl _ high
  · obtain ⟨d, slot, -⟩ := mem_takeOrder.mp (List.mem_filter.mp rest).1
    rw [empty] at slot
    cases slot

theorem reduce_grants (i : Fin 6) :
    (reduce c s).alc.grants.get i = (s.alc.reducedGrants (s.alc.budget.effective.getD 0)).get i := by
  have domains := joinRound_domains c (s.alc.reductionOrder (s.alc.reducedGrants (s.alc.budget.effective.getD 0))).isEmpty
    (s.reserve 0 none)
  rw [reduce_eq, grants_lowerEach (s := s) (nodup_reductionOrder _) domains fun j => reductionOrder_declared]
  split
  · rfl
  · next out =>
    rw [mem_reductionOrder] at out
    have le := le_trans (reducedGrants_le (a := s.alc) (b := s.alc.budget.effective.getD 0) (i := i)) trimmed_le
    omega

/-- The round after a reduction: nothing reserved; where it lowers, opened or with its cause. -/
theorem reduce_round : ∃ affected,
    (reduce c s).alc.round = if s.alc.round.opened then
        { s.alc.round with
          reservation := 0, beneficiary := none, causes := withRoundCause s.alc.round.causes c, affected := affected }
      else if ∃ i, (reduce c s).alc.grants.get i < s.alc.grants.get i then
        { number := nextRound s.alc.round.number, opened := true, causes := [c], affected := affected, reservation := 0
          beneficiary := none }
      else { s.alc.round with reservation := 0, beneficiary := none, affected := affected } := by
  have lowers : (∃ i, (reduce c s).alc.grants.get i < s.alc.grants.get i) ↔
      (s.alc.reductionOrder (s.alc.reducedGrants (s.alc.budget.effective.getD 0))).isEmpty = false := by
    rw [List.isEmpty_eq_false_iff_exists_mem]
    exact exists_congr fun i => by rw [reduce_grants, mem_reductionOrder]
  simp only [lowers]
  rw [reduce_eq]
  obtain ⟨extra, round, -⟩ := lowerEach_round (c := c)
    (targets := s.alc.reducedGrants (s.alc.budget.effective.getD 0)) (nodup_reductionOrder _)
    (joinRound c (s.alc.reductionOrder (s.alc.reducedGrants (s.alc.budget.effective.getD 0))).isEmpty (s.reserve 0 none))
  rw [round]
  generalize (s.alc.reductionOrder (s.alc.reducedGrants (s.alc.budget.effective.getD 0))).isEmpty = none
  cases opened : s.alc.round.opened with
  | true =>
    rw [joinRound_open (s := s.reserve 0 Option.none) opened]
    exact ⟨s.alc.round.affected ++ extra, by simp [State.reserve, opened]⟩
  | false =>
    cases none with
    | true =>
      have same : joinRound c true (s.reserve 0 Option.none) = s.reserve 0 Option.none := by
        simp [joinRound, State.reserve, opened]
      rw [same]
      exact ⟨s.alc.round.affected ++ extra, by simp [State.reserve, opened]⟩
    | false =>
      rw [joinRound_opens (s := s.reserve 0 Option.none) opened]
      exact ⟨[] ++ extra, rfl⟩

end

/-- What holding a floor says of a managed domain. -/
theorem holdsFloor_iff {d : Domain} : d.holdsFloor = true ↔
    ∃ g c, d.grant = some g ∧ d.floor ≤ g ∧ d.effCeiling = some c ∧ d.floor ≤ c := by
  simp only [Domain.holdsFloor, Bool.and_eq_true, Option.any_eq_true, decide_eq_true_eq]
  constructor
  · rintro ⟨⟨g, grant, low⟩, c, formed, fits⟩
    exact ⟨g, c, grant, low, formed, fits⟩
  · rintro ⟨g, c, grant, low, formed, fits⟩
    exact ⟨⟨g, grant, low⟩, c, formed, fits⟩

theorem floor_le_trimmed {a : Alc} (holds : a.allDomains Domain.holdsFloor = true) (i : Fin 6) :
    a.floorOf i ≤ a.trimmed.get i := by
  cases slot : a.domains.get i with
  | none => rw [floorOf_none slot]; exact Nat.zero_le _
  | some d =>
    obtain ⟨g, c, grant, low, formed, fits⟩ := holdsFloor_iff.mp (allDomains_iff.mp holds i d slot)
    rw [floorOf_some slot, trimmed_some slot, Domain.held, grant, formed]
    exact le_min low fits

theorem floor_le_held {a : Alc} (holds : a.allDomains Domain.holdsFloor = true) {i : Fin 6} {d : Domain}
    (slot : a.domains.get i = some d) : d.floor ≤ d.held := by
  obtain ⟨g, c, grant, low, -⟩ := holdsFloor_iff.mp (allDomains_iff.mp holds i d slot)
  simp [Domain.held, grant, low]

theorem priority_le {a : Alc} (sound : a.allDomains Domain.sound = true) {i : Fin 6} {d : Domain}
    (slot : a.domains.get i = some d) : d.priority ≤ 3 := by
  have h := allDomains_iff.mp sound i d slot
  simp only [Domain.sound, Bool.and_eq_true, decide_eq_true_eq] at h
  exact h.1.1.1

section
variable {c : RoundCause} {s : State} (holds : s.alc.allDomains Domain.holdsFloor = true)
include holds

theorem reduce_lowersDomains : s.lowersDomains (reduce c s) fun i => s.alc.round.opened && s.alc.round.lists i := by
  rw [reduce_eq]
  refine lowersDomains_lowerEach (nodup_reductionOrder _) (joinRound_domains ..) (fun i mem => ?_) (fun i mem d slot => ⟨?_, ?_⟩)
    fun i d slot => floor_le_held holds slot
  · have lowers : (s.alc.reductionOrder (s.alc.reducedGrants (s.alc.budget.effective.getD 0))).isEmpty = false :=
      List.isEmpty_eq_false_iff_exists_mem.mpr ⟨i, mem⟩
    rw [lowers]
    cases opened : s.alc.round.opened with
    | true =>
      rw [joinRound_open (s := s.reserve 0 none) opened]
      rfl
    | false =>
      rw [joinRound_opens (s := s.reserve 0 none) opened]
      rfl
  · rw [← floorOf_some slot]
    exact takeFrom_floor _ _ _ _ _ (floor_le_trimmed holds i)
  · rw [← grants_some slot]
    exact mem_reductionOrder.mp mem

theorem reduce_takesInOrder (sound : s.alc.allDomains Domain.sound = true) :
    s.takesInOrder (reduce c s) (fun i => s.alc.trimmed.get i) fun _ => True := by
  intro i j d e slot slot' _ taken before
  rw [reduce_grants] at taken ⊢
  rw [← floorOf_some slot]
  exact takeFrom_inOrder (mem_takeOrder.mpr ⟨d, slot, Nat.zero_le _, priority_le sound slot⟩) ⟨d, e, slot, slot', before⟩
    (floor_le_trimmed holds i) taken

end

end Sys2Proof.Machine

/-! PROOFS. Forming B, the recomputation, and SYS_CAP (R108, R112, R115). -/

namespace Sys2Proof.Machine

/-! ## B and the floors (R112, R113) -/

theorem sumSix_steps {f : Fin 6 → Nat} (h : ∀ i, f i % 250 = 0) : sumSix f % 250 = 0 := by
  have := h 0; have := h 1; have := h 2; have := h 3; have := h 4; have := h 5
  unfold sumSix
  omega

/-- Floors are whole grant steps, so B is not below their sum. -/
theorem floorSum_le_formB {s : State} (sound : s.alc.allDomains Domain.sound = true) : s.alc.floorSum ≤ s.formB := by
  have step : s.alc.floorSum % 250 = 0 := by
    refine sumSix_steps (f := s.alc.floorOf) fun i => ?_
    cases slot : s.alc.domains.get i with
    | none => rw [floorOf_none slot]
    | some d =>
      rw [floorOf_some slot]
      have h := allDomains_iff.mp sound i d slot
      simp only [Domain.sound, Bool.and_eq_true, isStep_iff] at h
      exact h.1.1.2
  unfold State.formB
  split
  · exact le_refl _
  · unfold stepDown
    have := le_max_left s.alc.floorSum (s.base - s.alc.budget.reduction - s.derate)
    omega

/-- B, in the words of the statement. -/
theorem formB_eq (s : State) {l : ChassisLimits} (chassis : s.lst.chassis = some l) :
    s.formB = if s.alc.budget.sourceSeverity = true ∨ (∃ z, s.alc.budget.severities.get z = true) then s.alc.floorSum
      else max s.alc.floorSum (s.base - s.alc.budget.reduction -
        ((if s.alc.budget.derates.get 0 then l.stallDerate.get 0 else 0) +
          (if s.alc.budget.derates.get 1 then l.stallDerate.get 1 else 0))) / 250 * 250 := by
  have derate : s.derate = (if s.alc.budget.derates.get 0 then l.stallDerate.get 0 else 0) +
      (if s.alc.budget.derates.get 1 then l.stallDerate.get 1 else 0) := by rw [State.derate, chassis]
  have held : s.alc.budget.held = true ↔
      s.alc.budget.sourceSeverity = true ∨ (∃ z, s.alc.budget.severities.get z = true) := by
    simp [Budget.held, mem_six]
  rw [State.formB, derate]
  simp only [held, stepDown]

/-! ## The recomputation (R115) -/

section
variable {s : State} {c : RoundCause}

theorem recompute_managed (managed : s.managed = true) : recompute c s = settleBudget c (s.setB (some s.formB)) :=
  if_pos managed

theorem overCeiling_ne_nil : s.alc.overCeiling ≠ [] ↔ ∃ i, s.alc.trimmed.get i < s.alc.grants.get i := by
  rw [← List.isEmpty_eq_false_iff, List.isEmpty_eq_false_iff_exists_mem]
  exact exists_congr fun i => mem_overCeiling

theorem settleBudget_reduces (h : s.alc.budget.effective.getD 0 < s.alc.taken ∨
    ∃ i, s.alc.trimmed.get i < s.alc.grants.get i) : settleBudget c s = reduce c s :=
  if_pos (h.imp id overCeiling_ne_nil.mpr)

theorem settleBudget_serves (h : ¬(s.alc.budget.effective.getD 0 < s.alc.taken ∨
    ∃ i, s.alc.trimmed.get i < s.alc.grants.get i)) :
    settleBudget c s = if s.alc.taken < s.alc.budget.effective.getD 0 then serve s else s := by
  have spare : 0 < s.alc.spare ↔ s.alc.taken < s.alc.budget.effective.getD 0 := Nat.sub_pos_iff_lt
  rw [settleBudget, if_neg (mt (Or.imp id overCeiling_ne_nil.mp) h)]
  simp only [spare]

end

/-- The bound a trim puts on a grant, in the words of the statement. -/
theorem trimmed_eq {a : Alc} (holds : a.allDomains Domain.holdsFloor = true) (i : Fin 6) : a.trimmed.get i =
    match a.domains.get i with
    | some d => min (d.grant.getD 0) (d.effCeiling.getD 0)
    | none => 0 := by
  cases slot : a.domains.get i with
  | none => rw [trimmed_none slot]
  | some d =>
    obtain ⟨g, c, grant, -, formed, -⟩ := holdsFloor_iff.mp (allDomains_iff.mp holds i d slot)
    simp [trimmed_some slot, Domain.held, grant, formed]

theorem sumSix_list (f : Fin 6 → Nat) : (([0, 1, 2, 3, 4, 5] : List (Fin 6)).map f).sum = sumSix f :=
  sum_map_eq_sumSix (by decide) fun i out => absurd (mem_six i) out

/-! ## SYS_CAP (R108) -/

theorem sysCap_badField {cap : Option Nat} {s : State} (bad : ¬∀ x, cap = some x → x ≤ 250000 ∧ x % 250 = 0) :
    sysCap cap s = (s, .only .badField) := by
  refine if_pos ?_
  cases cap with
  | none => exact absurd (fun x h => nomatch h) bad
  | some x =>
    have out : ¬(x ≤ 250000 ∧ x % 250 = 0) := fun h => bad fun y hy => by cases hy; exact h
    simp only [Option.any_some, Bool.or_eq_true, decide_eq_true_eq, Bool.not_eq_true', ← Bool.not_eq_true, isStep_iff]
    omega

theorem sysCap_good {cap : Option Nat} {s : State} (good : ∀ x, cap = some x → x ≤ 250000 ∧ x % 250 = 0) :
    sysCap cap s = (storeCap cap s,
      { status := .ok, body := .budget (storeCap cap s).effective (storeCap cap s).spare }) := by
  refine if_neg ?_
  cases cap with
  | none => simp
  | some x =>
    have ok := good x rfl
    simp only [Option.any_some, Bool.or_eq_true, decide_eq_true_eq, Bool.not_eq_true', ← Bool.not_eq_true, isStep_iff]
    omega

/-- Settles O45. -/
theorem budgetIsFormedFromItsInputs : Obligations.BudgetIsFormedFromItsInputs := by
  unfold Obligations.BudgetIsFormedFromItsInputs
  refine ⟨fun c l s managed chassis => ?_, fun c s managed sound holds => ?_, fun dt tag cap s takes => ?_⟩
  · intro b cap held base r d
    rw [recompute_effective c managed, ((Grants.refl s).recompute c).formB_eq, formB_eq s chassis]
    have base_eq : s.base = base := by
      simp only [State.base, base, held]
      cases s.alc.budget.systemCap <;> cases s.alc.budget.sourceLimit <;> rfl
    rw [base_eq]
    rfl
  · intro t budget formed taken ceiling above lowered
    have trim : ∀ i, formed.alc.trimmed.get i = ceiling i := fun i => trimmed_eq (a := formed.alc) holds i
    have t_eq : t = settleBudget c formed := recompute_managed managed
    have tight : (formed.alc.budget.effective.getD 0 < formed.alc.taken ∨
        ∃ i, formed.alc.trimmed.get i < formed.alc.grants.get i) ↔ budget < taken ∨ above := by
      simp only [trim]
      rfl
    refine ⟨fun within free => ?_, fun need => ?_⟩
    · rw [t_eq, settleBudget_serves (mt tight.mp (by rintro (h | h); exacts [absurd h (not_lt.mpr within), free h]))]
      rfl
    have reduced : t = reduce c formed := t_eq.trans (settleBudget_reduces (tight.mpr need))
    have grants : ∀ i, t.alc.grants.get i = (formed.alc.reducedGrants budget).get i := fun i => by
      rw [reduced]
      exact reduce_grants c formed i
    obtain ⟨affected, round⟩ := reduce_round c formed
    rw [← reduced] at round
    have order := reduce_takesInOrder (c := c) (s := formed) holds sound
    have lowers := reduce_lowersDomains (c := c) (s := formed) holds
    rw [← reduced] at order lowers
    have bound : (fun i => formed.alc.trimmed.get i) = ceiling := funext trim
    rw [bound] at order
    refine ⟨lowers, order, fun i => ?_, ?_, ?_, ?_, fun opened => ?_, fun closed lower => ?_⟩
    · rw [grants, ← trim]
      exact reducedGrants_le
    · have total := sum_reducedGrants (a := formed.alc) sound holds (floorSum_le_formB (s := s) sound)
      have same : (fun i => t.alc.grants.get i) = fun i => (formed.alc.reducedGrants budget).get i := funext grants
      rw [sumSix_list, grantSum_eq, ← bound]
      exact (congrArg sumSix same).trans total
    · rw [round]
      split
      · rfl
      · split <;> rfl
    · rw [round]
      split
      · rfl
      · split <;> rfl
    · have known : formed.alc.round.opened = true := opened
      rw [round, if_pos known]
      exact ⟨opened, rfl, fun x => mem_withRoundCause⟩
    · have unknown : ¬formed.alc.round.opened = true := by
        show ¬s.alc.round.opened = true
        simp [closed]
      rw [round, if_neg unknown, if_pos (by exact lower)]
      exact ⟨rfl, rfl, rfl⟩
  · intro good stored answers
    have stores : storeCap cap (s.elapse dt) = if s.alc.budget.systemCap = cap then stored else recompute .sysCap stored := rfl
    refine ⟨fun bad => owner_answers takes (sysCap_badField bad), fun ok same => ?_, fun ok managed differs => ?_⟩
    · have still : storeCap cap (s.elapse dt) = stored := by
        rw [stores]
        split
        · rfl
        · next differs =>
          have un : ¬stored.managed = true := by
            have off : s.managed = false := same.resolve_right differs
            show ¬s.managed = true
            simp [off]
          exact if_neg un
      have accepted := sysCap_good (s := s.elapse dt) ok
      rw [still] at accepted
      exact owner_answers takes accepted
    · have changed : storeCap cap (s.elapse dt) = recompute .sysCap stored := stores.trans (if_neg differs)
      have accepted := sysCap_good (s := s.elapse dt) ok
      rw [changed] at accepted
      have grants := (Grants.refl stored).recompute .sysCap
      have still : (recompute .sysCap stored).managed = s.managed := grants.managed
      have answered := owner_answers (kind := 0x29) (tag := tag) takes accepted
      simp only [State.effective, State.spare, still] at answered
      exact ⟨recompute .sysCap stored, answered, grantsOnly_trans (t := stored) rfl grants.only, recompute_clu ..,
        recompute_effective .sysCap (by exact managed), grants.budget, grants.cores⟩

end Sys2Proof.Machine

/-! PROOFS. DOMAIN_PERMIT (R127 to R129). -/

namespace Sys2Proof.Machine

section
variable {slot : Nat} {i : Fin 6} {d : Domain} {s : State}

theorem domainPermitOff_noSuch (h : ∀ i : Fin 6, slot = i.val → s.alc.domains.get i = none) :
    domainPermitOff slot s = (s, .only .noSuch) := by
  rw [domainPermitOff, domainAt_none h]
  rfl

theorem domainPermitOn_noSuch (h : ∀ i : Fin 6, slot = i.val → s.alc.domains.get i = none) :
    domainPermitOn slot s = (s, .only .noSuch) := by
  rw [domainPermitOn, domainAt_none h]
  rfl

/-- The state a permit's change leaves, the permit being another. -/
def State.permitted (s : State) (i : Fin 6) (d : Domain) (p : Permit) : State :=
  if s.managed then
    match p with
    | .off => permitOffManaged i d s
    | .on => permitOnManaged i d s
  else s.setDomain i (some { d with permit := p })

variable (number : slot = i.val) (held : s.alc.domains.get i = some d)
include number held

theorem domainPermitOff_eq : domainPermitOff slot s =
    if d.permit = .off then (s, permitAnswer i .off s) else (s.permitted i d .off, permitAnswer i .off (s.permitted i d .off)) := by
  rw [domainPermitOff, domainAt_some number held]
  rfl

theorem domainPermitOn_eq : domainPermitOn slot s =
    if d.permit = .on then (s, permitAnswer i .on s) else (s.permitted i d .on, permitAnswer i .on (s.permitted i d .on)) := by
  rw [domainPermitOn, domainAt_some number held]
  rfl

end

/-! ## Permit OFF (R128) -/

/-- The state with the permit OFF stored, the reservation adjusted and the entry off the queue. -/
def State.switchedOff (s : State) (i : Fin 6) (d : Domain) : State :=
  (adjustReservation i (s.setDomain i (some { d with permit := .off, effCeiling := some d.floor }))).setQueue
    (dropEntry i s.alc.queue)

section
variable {i : Fin 6} {d : Domain} {s : State}

theorem permitOffManaged_eq : permitOffManaged i d s =
    if d.floor < d.held then reduce .permit (s.switchedOff i d) else postGrant .ceiling i (s.switchedOff i d) := by
  set e : Domain := { d with permit := .off, effCeiling := some d.floor } with he
  have slot : (s.setDomain i (some e)).alc.domains.get i = some e := by simp
  have kept : (adjustReservation i (s.setDomain i (some e))).alc.domains.get i = some e := by
    rw [adjustReservation_eq slot]
    exact slot
  have still : e.waits = false := by simp [Domain.waits, he]
  have queue : (adjustReservation i (s.setDomain i (some e))).alc.queue = s.alc.queue := by
    rw [adjustReservation_eq slot]
    rfl
  rw [permitOffManaged, ← he, syncQueue_still kept still, queue]
  rfl

theorem switchedOff_alc : ∃ r : Round, s.switchedOff i d = { s with alc := { s.alc with
    domains := s.alc.domains.set i (some { d with permit := .off, effCeiling := some d.floor })
    queue := dropEntry i s.alc.queue, round := r } } := by
  have slot : (s.setDomain i (some { d with permit := .off, effCeiling := some d.floor })).alc.domains.get i =
      some { d with permit := .off, effCeiling := some d.floor } := by simp
  rw [State.switchedOff, adjustReservation_eq slot]
  exact ⟨_, rfl⟩

/-- With a grant at or above the floor nothing is reserved for the domain any more. -/
theorem switchedOff_exact (low : d.floor ≤ d.held) : s.switchedOff i d = { s with alc := { s.alc with
    domains := s.alc.domains.set i (some { d with permit := .off, effCeiling := some d.floor })
    queue := dropEntry i s.alc.queue
    round := if s.alc.round.beneficiary = some i then { s.alc.round with reservation := 0, beneficiary := none }
      else s.alc.round } } := by
  have slot : (s.setDomain i (some { d with permit := .off, effCeiling := some d.floor })).alc.domains.get i =
      some { d with permit := .off, effCeiling := some d.floor } := by simp
  have none : Domain.shortfall { d with permit := .off, effCeiling := some d.floor } = 0 := by
    have same : Domain.held { d with permit := .off, effCeiling := some d.floor } = d.held := rfl
    have wanted : Domain.wanted { d with permit := .off, effCeiling := some d.floor } = d.floor := by
      simp [Domain.wanted, Domain.wanted?, Domain.wantedIn]
    rw [Domain.shortfall, same, wanted]
    omega
  rw [State.switchedOff, adjustReservation_eq slot, if_pos none]
  rfl

theorem switchedOff_slot : (s.switchedOff i d).alc.domains.get i = some { d with permit := .off, effCeiling := some d.floor } := by
  obtain ⟨r, e⟩ := switchedOff_alc (s := s) (i := i) (d := d)
  rw [e]
  simp

/-- A domain above its floor is taken down to it, in a round. -/
theorem permitOff_lowers (high : d.floor < d.held) : let t := reduce .permit (s.switchedOff i d)
    t.alc.round.opened = true ∧
      ∃ e, t.alc.domains.get i = some e ∧ e.effCeiling = some d.floor ∧ e.grant = some d.floor ∧ e.state = .revoking := by
  intro t
  set u := s.switchedOff i d with hu
  set targets := u.alc.reducedGrants (u.alc.budget.effective.getD 0) with ht
  have slot : u.alc.domains.get i = some { d with permit := .off, effCeiling := some d.floor } := switchedOff_slot
  have trim : u.alc.trimmed.get i = d.floor := by
    rw [trimmed_some slot]
    exact min_eq_right (le_of_lt high)
  have target : targets.get i = d.floor := by
    rw [ht, Alc.reducedGrants, takeFrom_get_of_le_floor _ _ _ (by rw [trim, floorOf_some slot]), trim]
  have below : targets.get i < u.alc.grants.get i := by
    rw [target, grants_some slot]
    exact high
  have mem := mem_reductionOrder.mpr below
  have grants : t.alc.grants.get i < u.alc.grants.get i := by
    rw [show t = reduce .permit u from rfl, reduce_grants]
    exact below
  obtain ⟨affected, round⟩ := reduce_round .permit u
  refine ⟨?_, ?_⟩
  · rw [show t = reduce .permit u from rfl, round]
    split
    · assumption
    · rw [if_pos ⟨i, grants⟩]
  · have get := lowerEach_get (c := .permit) (targets := targets) (l := u.alc.reductionOrder targets)
      (nodup_reductionOrder _)
      (joinRound .permit (u.alc.reductionOrder targets).isEmpty (u.reserve 0 none)) i
    have domains := joinRound_domains .permit (u.alc.reductionOrder targets).isEmpty (u.reserve 0 none)
    rw [if_pos mem, domains] at get
    have slot' : (u.reserve 0 none).alc.domains.get i = _ := slot
    rw [slot', Option.map_some] at get
    exact ⟨_, get, rfl, congrArg some target, rfl⟩

/-- A domain whose permit is OFF gets no entry by a reduction. -/
theorem reduce_entry_off (c : RoundCause) (slot : s.alc.domains.get i = some d) (off : d.permit = .off)
    (out : ¬s.alc.entry i) : ¬(reduce c s).alc.entry i := by
  set targets := s.alc.reducedGrants (s.alc.budget.effective.getD 0)
  set u := joinRound c (s.alc.reductionOrder targets).isEmpty (s.reserve 0 none) with hu
  have queue : u.alc.queue = s.alc.queue := by
    rw [hu, joinRound]
    split <;> rfl
  have slot' : u.alc.domains.get i = some d := by
    rw [hu, joinRound_domains]
    exact slot
  show ¬(lowerEach c targets (s.alc.reductionOrder targets) u).alc.entry i
  by_cases mem : i ∈ s.alc.reductionOrder targets
  · have get := lowerEach_get (c := c) (targets := targets) (l := s.alc.reductionOrder targets)
      (nodup_reductionOrder _) u i
    rw [if_pos mem, slot', Option.map_some] at get
    rw [entry_lowerEach (nodup_reductionOrder _) mem slot', waits_of_slot get, waits_iff]
    rintro ⟨on, -⟩
    have on : d.permit = .on := on
    rw [off] at on
    cases on
  · rw [entry_lowerEach_other mem, Alc.entry, queue]
    exact out

/-! ## Permit ON (R129) -/

/-- The state with the permit ON and its ceiling stored, the entry in step. -/
def State.switchedOn (s : State) (i : Fin 6) (e : Domain) : State :=
  (s.setDomain i (some e)).setQueue (if e.held < e.wanted then s.queueWith i e else dropEntry i s.alc.queue)

theorem permitOnManaged_eq {e : Domain}
    (he : e = { d with permit := .on, effCeiling := some (s.ceilingOf { d with permit := .on }) }) :
    permitOnManaged i d s = if e.held < e.wanted then serve (State.post (s.grantNotice i e .ceiling []) (s.switchedOn i e))
      else State.post (s.grantNotice i e .ceiling []) (s.switchedOn i e) := by
  have slot : (s.setDomain i (some e)).alc.domains.get i = some e := by simp
  have synced : syncQueue i (s.setDomain i (some e)) = s.switchedOn i e := by
    unfold State.switchedOn
    split
    · next short => exact syncQueue_waiting slot ⟨by rw [he], short⟩
    · next met =>
      have still : e.waits = false := by simp [Domain.waits, met]
      exact syncQueue_still slot still
  have slot' : (s.switchedOn i e).alc.domains.get i = some e := by simp [State.switchedOn, State.setQueue]
  rw [permitOnManaged, ← he, synced, postGrant_eq slot' (by decide)]
  rfl

end

/-! ## The statement -/

/-- What the two permits leave of the rest. -/
theorem permitted_parts {i : Fin 6} {d : Domain} {s : State} {p : Permit} (managed : s.managed = true) :
    ∃ e u, e.core = { d with permit := p }.core ∧ u.alc.domains = s.alc.domains.set i (some e) ∧
      u.alc.budget = s.alc.budget ∧ u.clu = s.clu ∧ s.grantsOnly u ∧ Grants u (s.permitted i d p) ∧
      (s.permitted i d p).clu = u.clu ∧ (s.permitted i d p).alc.budget = u.alc.budget := by
  cases p with
  | off =>
    have whole : s.permitted i d .off = permitOffManaged i d s := if_pos managed
    rw [whole]
    obtain ⟨r, u_eq⟩ := switchedOff_alc (s := s) (i := i) (d := d)
    refine ⟨{ d with permit := .off, effCeiling := some d.floor }, s.switchedOff i d, rfl, by rw [u_eq], by rw [u_eq],
      by rw [u_eq], by rw [u_eq, State.grantsOnly], ?_⟩
    rw [permitOffManaged_eq]
    split
    · have allocs : Allocs False _ _ := (Allocs.refl (s.switchedOff i d)).reduce .permit
      exact ⟨allocs.grants, allocs.clu, reduce_budget ..⟩
    · have allocs : Allocs False _ _ := (Allocs.refl (s.switchedOff i d)).postGrant .ceiling i
      exact ⟨allocs.grants, allocs.clu, by rw [postGrant_alc]⟩
  | on =>
    have whole : s.permitted i d .on = permitOnManaged i d s := if_pos managed
    rw [whole]
    set e : Domain := { d with permit := .on, effCeiling := some (s.ceilingOf { d with permit := .on }) } with he
    refine ⟨e, s.switchedOn i e, rfl, rfl, rfl, rfl, rfl, ?_⟩
    rw [permitOnManaged_eq he]
    have told := (Grants.refl (s.switchedOn i e)).post (s.grantNotice i e .ceiling [])
    split
    · have allocs : Allocs False _ _ := (Allocs.refl (State.post (s.grantNotice i e .ceiling []) (s.switchedOn i e))).serve
      exact ⟨told.trans allocs.grants, allocs.clu, serve_budget ..⟩
    · exact ⟨told, rfl, rfl⟩

/-- Settles O51. -/
theorem permitsActOnTheCeiling : Obligations.PermitsActOnTheCeiling := by
  unfold Obligations.PermitsActOnTheCeiling
  intro dt tag slot s takes row
  refine ⟨fun none p => ?_, fun i d p number held => ?_⟩
  · cases p with
    | off => exact owner_answers takes (domainPermitOff_noSuch (by exact none))
    | on => exact owner_answers takes (domainPermitOn_noSuch (by exact none))
  intro stored answers
  have changes : d.permit ≠ p → answers ((s.elapse dt).permitted i d p) := fun differs => by
    cases p with
    | off => exact owner_answers takes ((domainPermitOff_eq number (by exact held)).trans (if_neg differs))
    | on => exact owner_answers takes ((domainPermitOn_eq number (by exact held)).trans (if_neg differs))
  refine ⟨fun same => ?_, fun differs un => ?_, fun differs managed => ?_⟩
  · have slot' : (s.elapse dt).alc.domains.get i = some d := held
    cases p with
    | off => exact owner_answers takes ((domainPermitOff_eq number slot').trans (if_pos same))
    | on => exact owner_answers takes ((domainPermitOn_eq number slot').trans (if_pos same))
  · have plain : (s.elapse dt).permitted i d p = (s.elapse dt).setDomain i (some stored) := by
      have off : ¬(s.elapse dt).managed = true := by
        show ¬s.managed = true
        simp [un]
      exact if_neg off
    have h := changes differs
    rw [plain] at h
    exact h
  obtain ⟨e, u, core, domains, budget, clu, only, grants, clu', budget'⟩ :=
    permitted_parts (i := i) (d := d) (p := p) (s := s.elapse dt) managed
  have whole : (s.elapse dt).permitted i d p = _ := if_pos (by exact managed)
  have cores : ∀ j, u.alc.coreOf j = if j = i then some stored.core else s.alc.coreOf j := fun j => by
    rw [← core, Alc.coreOf, domains, get_set]
    by_cases own : i = j
    · rw [if_pos own, if_pos own.symm]
      rfl
    · rw [if_neg own, if_neg (Ne.symm own)]
      rfl
  refine ⟨_, changes differs, grantsOnly_trans only grants.only, clu'.trans clu, budget'.trans budget,
    fun j => (grants.cores j).trans (cores j), ⟨fun off low => ?_, fun on => ?_⟩, fun off => ?_, fun on => ?_⟩
  · subst off
    have exact_ := switchedOff_exact (s := s.elapse dt) (i := i) low
    set u' := (s.elapse dt).switchedOff i d with hu'
    have slot' : u'.alc.domains.get i = _ := switchedOff_slot
    have whole : (s.elapse dt).permitted i d .off = permitOffManaged i d (s.elapse dt) := whole
    intro u
    have same : u' = u := exact_
    rw [whole, permitOffManaged_eq, ← hu', postGrant_eq slot' (by decide), same]
    rfl
  · subst on
    have whole : (s.elapse dt).permitted i d .on = permitOnManaged i d (s.elapse dt) := whole
    obtain ⟨on, hon⟩ : ∃ on : Domain, on =
        { d with permit := .on, effCeiling := some ((s.elapse dt).ceilingOf { d with permit := .on }) } := ⟨_, rfl⟩
    have whole := whole.trans (permitOnManaged_eq hon)
    rw [whole]
    by_cases short : on.held < on.wanted
    · rw [if_pos short, State.switchedOn, if_pos short]
      subst hon
      exact (if_pos short).symm
    · rw [if_neg short, State.switchedOn, if_neg short]
      subst hon
      exact (if_neg short).symm
  · subst off
    have whole : (s.elapse dt).permitted i d .off = permitOffManaged i d (s.elapse dt) := whole
    rw [whole, permitOffManaged_eq]
    obtain ⟨r, u_eq⟩ := switchedOff_alc (s := s.elapse dt) (i := i) (d := d)
    set u' := (s.elapse dt).switchedOff i d with hu'
    have slot' : u'.alc.domains.get i = some { d with permit := .off, effCeiling := some d.floor } := switchedOff_slot
    have out : ¬u'.alc.entry i := by
      rw [u_eq]
      rintro ⟨e, he, own⟩
      exact (mem_dropEntry.mp he).2 own
    by_cases high : d.floor < d.held
    · rw [if_pos high]
      exact ⟨fun e he own => reduce_entry_off .permit slot' rfl out ⟨e, he, own⟩, fun low => absurd high (not_lt.mpr low),
        fun _ => permitOff_lowers high⟩
    · rw [if_neg high, postGrant_alc]
      exact ⟨fun e he own => out ⟨e, he, own⟩, fun _ => by rw [u_eq]; rfl, fun h => absurd h high⟩
  · subst on
    have whole : (s.elapse dt).permitted i d .on = permitOnManaged i d (s.elapse dt) := whole
    set on : Domain := { d with permit := .on, effCeiling := some ((s.elapse dt).ceilingOf { d with permit := .on }) } with hon
    have whole := whole.trans (permitOnManaged_eq (e := on) rfl)
    have slot' : (State.post ((s.elapse dt).grantNotice i on .ceiling []) ((s.elapse dt).switchedOn i on)).alc.domains.get i =
        some on := by simp [State.switchedOn, State.setQueue]
    have ceiling : ∃ x, ((s.elapse dt).permitted i d .on).alc.domains.get i = some x ∧ x.effCeiling = on.effCeiling := by
      rw [whole]
      split
      · have bases := ((Allocs.refl (C := False)
          (State.post ((s.elapse dt).grantNotice i on .ceiling []) ((s.elapse dt).switchedOn i on))).serve).bases i
        obtain ⟨x, slot, same⟩ := ceiling_of_bases bases.symm slot'
        exact ⟨x, slot, same.symm⟩
      · exact ⟨on, slot', rfl⟩
    obtain ⟨x, slot, same⟩ := ceiling
    rw [slot, Option.bind_some, same]
    rfl

end Sys2Proof.Machine

/-! PROOFS. Serving, preemption and the close of a round, step by step (R131 to R133, R149). -/

namespace Sys2Proof.Machine

/-! ## A grant raised (R132) -/

/-- The state with a domain's grant raised to `g`, and its GRANT notice. -/
def State.raised (i : Fin 6) (d : Domain) (g : Nat) (s : State) : State :=
  State.post (s.grantNotice i { d with grant := some g } .raise []) (s.setDomain i (some { d with grant := some g }))

section
variable {i : Fin 6} {d : Domain} {s : State} {amount : Nat}

theorem raiseGrant_eq (slot : s.alc.domains.get i = some d) :
    raiseGrant amount i s = syncQueue i (s.raised i d (d.held + amount)) := by
  have own : (s.setDomain i (some { d with grant := some (d.held + amount) })).alc.domains.get i =
      some { d with grant := some (d.held + amount) } := by simp
  simp only [raiseGrant, slot]
  rw [postGrant_eq own (by decide)]
  rfl

theorem raised_slot (g : Nat) : (s.raised i d g).alc.domains.get i = some { d with grant := some g } := by
  simp [State.raised]

theorem wanted_regrant (d : Domain) (g : Option Nat) : Domain.wanted { d with grant := g } = d.wanted := rfl

/-- A raise that meets the wanted value takes the entry off the queue. -/
theorem raiseGrant_meets (slot : s.alc.domains.get i = some d) (meets : d.held + amount = d.wanted) :
    raiseGrant amount i s = (s.raised i d d.wanted).setQueue (dropEntry i s.alc.queue) := by
  have still : Domain.waits { d with grant := some d.wanted } = false := by
    simp [Domain.waits, wanted_regrant, Domain.held]
  rw [raiseGrant_eq slot, meets, syncQueue_still (raised_slot _) still]
  rfl

/-- A raise that does not, leaves the entry where it is. -/
theorem raiseGrant_short (slot : s.alc.domains.get i = some d) (short : d.held + amount < d.wanted) (on : d.permit = .on)
    (queued : s.alc.queue.any (·.slot == i) = true) : raiseGrant amount i s = s.raised i d (d.held + amount) := by
  have waits : d.permit = .on ∧ Domain.held { d with grant := some (d.held + amount) } <
      Domain.wanted { d with grant := some (d.held + amount) } := ⟨on, short⟩
  rw [raiseGrant_eq slot, syncQueue_waiting (raised_slot _) waits]
  have queue : (s.raised i d (d.held + amount)).queueWith i { d with grant := some (d.held + amount) } = s.alc.queue :=
    if_pos queued
  rw [queue]
  rfl

/-- The sum of the grants after one of them is raised. -/
theorem grantSum_setDomain {e : Domain} (slot : s.alc.domains.get i = some d) (more : e.held = d.held + amount) :
    (s.setDomain i (some e)).alc.grantSum = s.alc.grantSum + amount := by
  rw [grantSum_eq, grantSum_eq, sumSix_eq, sumSix_eq, ← Finset.add_sum_erase _ _ (Finset.mem_univ i),
    ← Finset.add_sum_erase _ (f := fun j => s.alc.grants.get j) (Finset.mem_univ i)]
  have rest : ∑ j ∈ Finset.univ.erase i, (s.setDomain i (some e)).alc.grants.get j =
      ∑ j ∈ Finset.univ.erase i, s.alc.grants.get j := by
    refine Finset.sum_congr rfl fun j hj => ?_
    have ne : i ≠ j := (Finset.ne_of_mem_erase hj).symm
    simp [Alc.grants, get_tabulate, get_set, ne]
  have own : (s.setDomain i (some e)).alc.grants.get i = s.alc.grants.get i + amount := by
    rw [grants_some slot, grants_some (d := e) (by simp), more]
  rw [rest, own]
  omega

end

/-! ## Serving (R131, R132) -/

section
variable {s : State} {e : QueueEntry} {l : List QueueEntry} {d : Domain}

theorem serve_opened (h : s.alc.round.opened = true) : serve s = s := if_pos h

theorem serve_closed (h : s.alc.round.opened = false) :
    serve s = weighPreemption (serveHeads (s.alc.queue.length + 1) s) := if_neg (by simp [h])

theorem serve_empty (h : s.alc.queue = []) : serve s = s := by
  unfold serve
  split
  · rfl
  · simp [serveHeads, weighPreemption, h]

variable (queue : s.alc.queue = e :: l) (slot : s.alc.domains.get e.slot = some d)
include queue slot

theorem serveHeads_head (n : Nat) : serveHeads (n + 1) s =
    if min s.alc.spare d.shortfall = d.shortfall then
      serveHeads n (if min s.alc.spare d.shortfall = 0 then s else raiseGrant (min s.alc.spare d.shortfall) e.slot s)
    else if min s.alc.spare d.shortfall = 0 then s else raiseGrant (min s.alc.spare d.shortfall) e.slot s := by
  rw [serveHeads]
  simp only [queue, slot]

theorem weighPreemption_head : weighPreemption s = preemptFor e.slot d s := by
  simp only [weighPreemption, queue, slot]

variable (short : 0 < d.shortfall)
include short

/-- Nothing is spare: the head waits. -/
theorem serve_spent (closed : s.alc.round.opened = false) (spent : s.alc.spare = 0) : serve s = preemptFor e.slot d s := by
  rw [serve_closed closed, serveHeads_head queue slot, spent, Nat.zero_min, if_neg (by omega), if_pos rfl,
    weighPreemption_head queue slot]

theorem serveHeads_meets (n : Nat) (enough : d.shortfall ≤ s.alc.spare) :
    serveHeads (n + 1) s = serveHeads n (raiseGrant d.shortfall e.slot s) := by
  rw [serveHeads_head queue slot, Nat.min_eq_right enough, if_pos rfl, if_neg (by omega)]

omit short in
theorem serveHeads_partly (n : Nat) (some_ : 0 < s.alc.spare) (few : s.alc.spare < d.shortfall) :
    serveHeads (n + 1) s = raiseGrant s.alc.spare e.slot s := by
  rw [serveHeads_head queue slot, Nat.min_eq_left (le_of_lt few), if_neg (by omega), if_neg (by omega)]

end

/-! ## Preemption (R133) -/

/-- Two tables that differ on a list of slots alone differ in their sums by what they differ by there. -/
theorem sumSix_outside {f g : Fin 6 → Nat} {l : List (Fin 6)} {k : Nat} (nodup : l.Nodup) (outside : ∀ i, i ∉ l → f i = g i)
    (inside : (l.map f).sum + k = (l.map g).sum) : sumSix f + k = sumSix g := by
  rw [← List.sum_toFinset f nodup, ← List.sum_toFinset g nodup] at inside
  rw [sumSix_eq, sumSix_eq]
  have all_f := Finset.sum_add_sum_compl l.toFinset f
  have all_g := Finset.sum_add_sum_compl l.toFinset g
  have rest : ∑ i ∈ l.toFinsetᶜ, f i = ∑ i ∈ l.toFinsetᶜ, g i :=
    Finset.sum_congr rfl fun i hi => outside i (by simpa using hi)
  rw [← all_f, ← all_g, rest, ← inside]
  exact Nat.add_right_comm _ _ _

theorem takeable_eq (a : Alc) (p : Nat) (holds : a.allDomains Domain.sound = true) :
    a.takeable p = ((a.takeOrder (p + 1)).map fun i => a.grants.get i - a.floorOf i).sum := by
  have parts : ((a.takeOrder (p + 1)).map fun i => a.grants.get i - a.floorOf i).sum =
      ((a.takeOrder (p + 1)).map fun i => match a.domains.get i with
        | some d => if p < d.priority then d.held - d.floor else 0
        | none => 0).sum := by
    refine congrArg List.sum (List.map_congr_left fun i mem => ?_)
    obtain ⟨d, slot, above, -⟩ := mem_takeOrder.mp mem
    have high : p < d.priority := by omega
    simp [grants_some slot, floorOf_some slot, slot, high]
  rw [parts, sum_map_eq_sumSix (nodup_takeOrder a (p + 1)) fun i out => ?_]
  · rfl
  · cases slot : a.domains.get i with
    | none => rfl
    | some d =>
      have low : ¬p < d.priority := fun high =>
        out (mem_takeOrder.mpr ⟨d, slot, by omega, priority_le holds slot⟩)
      simp [low]

/-- The state in which a preemption lowers domains. -/
def State.preempting (s : State) (i : Fin 6) (reservation : Nat) : State :=
  { s with alc := { s.alc with round :=
    { number := nextRound s.alc.round.number, opened := true, causes := [.preempt], affected := [], reservation := reservation
      beneficiary := some i } } }

/-- The grants a preemption leads to. -/
def Alc.preempted (a : Alc) (p need : Nat) : Vector Nat 6 := takeFrom a.floorOf (a.takeOrder (p + 1)) need a.grants

section
variable {i : Fin 6} {d : Domain} {s : State}

theorem preemptFor_idle (h : s.alc.takeable d.priority = 0) : preemptFor i d s = s := if_pos (.inr h)

theorem preemptFor_spent (closed : s.alc.round.opened = false) (short : 0 < d.shortfall)
    (takes : 0 < s.alc.takeable d.priority) (spent : s.alc.spare = 0) :
    let reservation := min d.shortfall (s.alc.takeable d.priority)
    let targets := s.alc.preempted d.priority reservation
    preemptFor i d s = lowerEach .preempt targets
      ((s.alc.takeOrder (d.priority + 1)).filter fun j => targets.get j < s.alc.grants.get j) (s.preempting i reservation) := by
  intro reservation targets
  unfold preemptFor
  dsimp only
  rw [if_neg (by omega), spent, Nat.zero_add, Nat.sub_zero, lowerAll_eq, joinRound_opens closed]
  have joined : ∀ b : Bool, joinRound .preempt b (s.preempting i reservation) = s.preempting i reservation := fun b => by
    rw [joinRound_open (by rfl)]
    rfl
  exact congrArg (lowerEach .preempt targets _) (joined _)

end

/-- A preemption's plan, carried out. -/
theorem lowerEach_preempted {s : State} {i : Fin 6} {p need reservation : Nat}
    (sound : s.alc.allDomains Domain.sound = true) (holds : s.alc.allDomains Domain.holdsFloor = true)
    (fits : need ≤ s.alc.takeable p) :
    let targets := s.alc.preempted p need
    let t := lowerEach .preempt targets ((s.alc.takeOrder (p + 1)).filter fun j => targets.get j < s.alc.grants.get j)
      (s.preempting i reservation)
    s.lowersDomains t (fun _ => false) ∧
      s.takesInOrder t (fun i => s.alc.grants.get i) (fun x => p < x.priority) ∧
      (∀ j x, s.alc.domains.get j = some x → x.priority ≤ p → t.alc.domains.get j = some x) ∧
      t.alc.grantSum + need = s.alc.grantSum ∧ ∃ extra, t.alc.round = { (s.preempting i reservation).alc.round with
        affected := extra } := by
  intro targets t
  set order := (s.alc.takeOrder (p + 1)).filter fun j => targets.get j < s.alc.grants.get j with ho
  have nodup : order.Nodup := (nodup_takeOrder _ _).filter _
  have low : ∀ j, s.alc.floorOf j ≤ s.alc.grants.get j := fun j => (floor_le_trimmed holds j).trans trimmed_le
  have declared : ∀ j ∈ order, s.alc.domains.get j ≠ none := fun j mem => by
    obtain ⟨x, slot, -⟩ := mem_takeOrder.mp (List.mem_filter.mp mem).1
    simp [slot]
  have domains : (s.preempting i reservation).alc.domains = s.alc.domains := rfl
  have grants : ∀ j, t.alc.grants.get j = targets.get j := fun j => by
    rw [show t = lowerEach .preempt targets order (s.preempting i reservation) from rfl,
      grants_lowerEach nodup domains declared]
    split
    · rfl
    · next out =>
      by_cases mem : j ∈ s.alc.takeOrder (p + 1)
      · have le : targets.get j ≤ s.alc.grants.get j := takeFrom_le ..
        have not_below : ¬targets.get j < s.alc.grants.get j := fun below =>
          out (List.mem_filter.mpr ⟨mem, by simpa using below⟩)
        omega
      · exact (takeFrom_get_of_not_mem _ mem _ _).symm
  refine ⟨?_, fun j k x y slot slot' who taken before => ?_, fun j x slot priority => ?_, ?_, ?_⟩
  · refine lowersDomains_lowerEach nodup rfl (fun j _ => rfl) (fun j mem x slot => ⟨?_, ?_⟩) fun j x slot => floor_le_held holds slot
    · rw [← floorOf_some slot]
      exact takeFrom_floor _ _ _ _ _ (low j)
    · rw [← grants_some slot]
      simpa using (List.mem_filter.mp mem).2
  · rw [grants] at taken ⊢
    rw [← floorOf_some slot]
    exact takeFrom_inOrder (mem_takeOrder.mpr ⟨x, slot, by omega, priority_le sound slot⟩) ⟨x, y, slot, slot', before⟩ (low j)
      taken
  · have out : j ∉ order := fun mem => by
      obtain ⟨y, slot', above, -⟩ := mem_takeOrder.mp (List.mem_filter.mp mem).1
      rw [slot] at slot'
      cases slot'
      omega
    have get := lowerEach_get (c := .preempt) (targets := targets) nodup (s.preempting i reservation) j
    rw [if_neg out] at get
    exact get.trans slot
  · rw [takeable_eq _ _ sound] at fits
    have total := takeFrom_sum s.alc.floorOf (s.alc.takeOrder (p + 1)) need s.alc.grants (nodup_takeOrder _ _) fun j _ => low j
    rw [Nat.min_eq_left fits] at total
    have sums := sumSix_outside (f := targets.get) (g := s.alc.grants.get) (nodup_takeOrder s.alc (p + 1))
      (fun j out => takeFrom_get_of_not_mem _ out _ _) total
    rw [grantSum_eq, grantSum_eq, ← sums]
    exact congrArg (fun f => sumSix f + need) (funext grants)
  · obtain ⟨extra, round, -⟩ := lowerEach_round (c := .preempt) (targets := targets) nodup (s.preempting i reservation)
    exact ⟨_, round⟩

end Sys2Proof.Machine

/-! PROOFS. Settlement, expiry, and the close of a round (R145 to R150). -/

namespace Sys2Proof.Machine

/-! ## The close (R149, R150) -/

theorem outcomes_eq (a : Alc) (g : GrantState) :
    a.outcomes g = a.round.affected.countP fun e => (a.domains.get e.slot).any (·.state == g) := by
  refine List.countP_congr fun e _ => ?_
  cases a.domains.get e.slot <;> rfl

/-- The outcomes depend on the affected list and the grant states. -/
theorem outcomes_congr {a b : Alc} (affected : b.round.affected = a.round.affected)
    (states : ∀ j, (b.domains.get j).map Domain.state = (a.domains.get j).map Domain.state) (g : GrantState) :
    b.outcomes g = a.outcomes g := by
  rw [outcomes_eq, outcomes_eq, affected]
  refine List.countP_congr fun e _ => ?_
  have same := states e.slot
  cases ha : a.domains.get e.slot <;> cases hb : b.domains.get e.slot <;> simp_all

/-- The ROUND notice of a state's round. -/
def State.roundNotice (s : State) : Notice :=
  .round s.alc.round.number s.alc.round.causes (s.alc.outcomes .settled) (s.alc.outcomes .clamped) (s.alc.outcomes .overdue)

section
variable {s : State} {i : Fin 6} {d : Domain}

theorem closeRound_alone (nobody : s.alc.round.beneficiary = none) :
    closeRound s = serve (clearRound (s.post s.roundNotice)) := by
  have kept : grantReservation s = s := by simp [grantReservation, nobody]
  rw [closeRound, kept]
  rfl

/-- A raise leaves the ROUND notice as it is. -/
theorem roundNotice_raised (slot : s.alc.domains.get i = some d) (g : Nat) (q : List QueueEntry) :
    (((s.reserve 0 none).raised i d g).setQueue q).roundNotice = s.roundNotice := by
  have states : ∀ j, ((((s.reserve 0 none).raised i d g).setQueue q).alc.domains.get j).map Domain.state =
      (s.alc.domains.get j).map Domain.state := fun j => by
    show ((s.alc.domains.set i (some { d with grant := some g })).get j).map _ = _
    rw [get_set]
    split
    · next e => rw [← e, slot]; rfl
    · rfl
  simp only [State.roundNotice, outcomes_congr (a := s.alc) (b := (((s.reserve 0 none).raised i d g).setQueue q).alc) rfl states]
  rfl

variable (owner : s.alc.round.beneficiary = some i) (slot : s.alc.domains.get i = some d)
include owner slot

theorem closeRound_meets (meets : d.held + s.alc.round.reservation = d.wanted) : closeRound s =
    serve (clearRound (State.post s.roundNotice ((s.raised i d d.wanted).setQueue (dropEntry i s.alc.queue)))) := by
  have granted : grantReservation s = ((s.reserve 0 none).raised i d d.wanted).setQueue (dropEntry i s.alc.queue) := by
    simp only [grantReservation, owner]
    exact raiseGrant_meets (s := s.reserve 0 none) slot meets
  have told : postRound (grantReservation s) = (grantReservation s).post s.roundNotice := by
    rw [granted, ← roundNotice_raised slot d.wanted (dropEntry i s.alc.queue)]
    rfl
  rw [closeRound, told, granted]
  rfl

theorem closeRound_short (short : d.held + s.alc.round.reservation < d.wanted) (on : d.permit = .on)
    (queued : s.alc.queue.any (·.slot == i) = true) : closeRound s =
    serve (clearRound (State.post s.roundNotice (s.raised i d (d.held + s.alc.round.reservation)))) := by
  have granted : grantReservation s =
      ((s.reserve 0 none).raised i d (d.held + s.alc.round.reservation)).setQueue s.alc.queue := by
    simp only [grantReservation, owner]
    exact raiseGrant_short (s := s.reserve 0 none) slot short on queued
  have told : postRound (grantReservation s) = (grantReservation s).post s.roundNotice := by
    rw [granted, ← roundNotice_raised slot (d.held + s.alc.round.reservation) s.alc.queue]
    rfl
  rw [closeRound, told, granted]
  rfl

end

/-! ## Serving the head (R132) -/

theorem dropEntry_head {e : QueueEntry} {l : List QueueEntry} (once : ((e :: l).map (·.slot)).Nodup) :
    dropEntry e.slot (e :: l) = l := by
  have out : ∀ x ∈ l, x.slot ≠ e.slot := fun x hx same =>
    (List.nodup_cons.mp once).1 (List.mem_map.mpr ⟨x, hx, same⟩)
  have drop : dropEntry e.slot (e :: l) = dropEntry e.slot l := by simp [dropEntry]
  rw [drop]
  exact List.filter_eq_self.mpr fun x hx => by simpa using out x hx

section
variable {s : State} {e : QueueEntry} {l : List QueueEntry} {d : Domain}
  (closed : s.alc.round.opened = false) (queue : s.alc.queue = e :: l) (slot : s.alc.domains.get e.slot = some d)
  (short : d.held < d.wanted)
include closed queue slot short

theorem serve_meets (once : (s.alc.queue.map (·.slot)).Nodup) (enough : d.wanted - d.held ≤ s.alc.spare) :
    serve s = serve ((s.raised e.slot d d.wanted).setQueue l) := by
  have lacks : 0 < d.shortfall := Nat.sub_pos_of_lt short
  have meets : d.held + d.shortfall = d.wanted := by
    rw [Domain.shortfall]
    omega
  have served := serveHeads_meets queue slot lacks (l.length + 1) enough
  rw [raiseGrant_meets slot meets, queue, dropEntry_head (queue ▸ once)] at served
  rw [serve_closed closed, queue, List.length_cons, served, serve_closed (by exact closed)]
  rfl

theorem serve_partly (on : d.permit = .on) (some_ : 0 < s.alc.spare) (few : s.alc.spare < d.wanted - d.held) :
    serve s = serve (s.raised e.slot d (d.held + s.alc.spare)) := by
  have partly : raiseGrant s.alc.spare e.slot s = s.raised e.slot d (d.held + s.alc.spare) :=
    raiseGrant_short slot (by omega) on (by simp [queue])
  set r := s.raised e.slot d (d.held + s.alc.spare) with hr
  have slot' : r.alc.domains.get e.slot = some { d with grant := some (d.held + s.alc.spare) } := raised_slot _
  have spent : r.alc.spare = 0 := by
    have sum : r.alc.grantSum = s.alc.grantSum + s.alc.spare := grantSum_setDomain (s := s) slot rfl
    have budget : r.alc.budget = s.alc.budget := rfl
    have round : r.alc.round = s.alc.round := rfl
    rw [Alc.spare, Alc.taken, sum, budget, round]
    have := s.alc.spare
    simp only [Alc.spare, Alc.taken] at some_ ⊢
    omega
  have lacks : 0 < Domain.shortfall { d with grant := some (d.held + s.alc.spare) } := by
    show 0 < d.wanted - (d.held + s.alc.spare)
    omega
  rw [serve_closed closed, serveHeads_partly queue slot _ some_ few, partly,
    serve_spent (s := r) queue slot' lacks closed spent, weighPreemption_head (s := r) queue slot']

end

/-! ## Settlement and expiry of one domain (R145 to R148) -/

theorem withdrawCause_withAlc (c : ClampCause) (n : Fin 6) (a : Alc) (s : State) :
    withdrawCause c n { s with alc := a } = { withdrawCause c n s with alc := a } := by
  unfold withdrawCause setLine
  dsimp only
  split <;> rfl

theorem addCause_withAlc (c : ClampCause) (n : Fin 6) (a : Alc) (s : State) :
    addCause c n { s with alc := a } = { addCause c n s with alc := a } := by
  unfold addCause setLine
  dsimp only
  split <;> rfl

theorem detect_withAlc (k : FaultKind) (x : Nat) (a : Alc) (s : State) :
    detect k x { s with alc := a } = { detect k x s with alc := a } := by
  unfold detect
  dsimp only
  split <;> rfl

theorem addCause_alc (c : ClampCause) (n : Fin 6) (s : State) : (addCause c n s).alc = s.alc := by
  have only := linesOnly_setLine n { s.clu.get n with causes := withCause (s.clu.get n).causes c } s
  rw [State.linesOnly] at only
  rw [addCause, only]

theorem withdrawCause_alc (c : ClampCause) (n : Fin 6) (s : State) : (withdrawCause c n s).alc = s.alc := by
  have only := linesOnly_setLine n { s.clu.get n with causes := withoutCause (s.clu.get n).causes c } s
  rw [State.linesOnly] at only
  rw [withdrawCause, only]

/-- A domain's record stored with a GRANT notice of reason ROUND. -/
def State.toldRound (i : Fin 6) (e : Domain) (s : State) : State :=
  State.post (s.grantNotice i e .round (if s.alc.round.affected.any (·.slot == i) then s.alc.round.causes else []))
    (s.setDomain i (some e))

section
variable {i : Fin 6} {d : Domain} {s : State}

theorem postGrant_round (e : Domain) : postGrant .round i (s.setDomain i (some e)) = s.toldRound i e := by
  have slot : (s.setDomain i (some e)).alc.domains.get i = some e := by simp
  have causes : (s.setDomain i (some e)).alc.round.causesFor i .round =
      if s.alc.round.affected.any (·.slot == i) then s.alc.round.causes else [] := by
    simp [Round.causesFor, Round.lists, State.setDomain]
  rw [postGrant, slot, causes]
  rfl

/-- A settled domain's record. -/
def Domain.settledNow (d : Domain) : Domain :=
  { d with state := .settled, deadline := none, holdStart := none, overdueSince := none }

theorem settleDomain_eq : settleDomain i d s = (withdrawOverdue d s).toldRound i d.settledNow := by
  have commutes : withdrawOverdue d (s.setDomain i (some d.settledNow)) =
      (withdrawOverdue d s).setDomain i (some d.settledNow) := by
    unfold withdrawOverdue
    cases d.line with
    | none => rfl
    | some n =>
      refine (withdrawCause_withAlc ..).trans ?_
      rw [State.setDomain, withdrawCause_alc]
  rw [← postGrant_round, ← commutes]
  rfl

theorem expireDeadline_eq (slot : s.alc.domains.get i = some d) :
    expireDeadline i s = closeIfDone ((detect .domainOverdue i (addOverdue d s)).toldRound i (d.expired s.now)) := by
  have commutes : detect .domainOverdue i (addOverdue d (s.setDomain i (some (d.expired s.now)))) =
      (detect .domainOverdue i (addOverdue d s)).setDomain i (some (d.expired s.now)) := by
    have added : addOverdue d (s.setDomain i (some (d.expired s.now))) =
        { addOverdue d s with alc := (s.setDomain i (some (d.expired s.now))).alc } := by
      unfold addOverdue
      cases d.line with
      | none => rfl
      | some n => exact addCause_withAlc ..
    have kept : (detect .domainOverdue i (addOverdue d s)).alc = s.alc := by
      have only := (detect_only .domainOverdue i (addOverdue d s)).1
      rw [State.noticesOnly] at only
      rw [only]
      unfold addOverdue
      cases d.line with
      | none => rfl
      | some n => exact addCause_alc ..
    rw [added, detect_withAlc]
    generalize detect .domainOverdue i (addOverdue d s) = u at kept ⊢
    simp only [State.setDomain, kept]
  rw [expireDeadline]
  simp only [slot]
  rw [commutes, postGrant_round]

/-- A domain settled or expired while another one is REVOKING leaves the round open. -/
theorem closeIfDone_others {e : Domain} (others : ∃ j x, j ≠ i ∧ s.alc.domains.get j = some x ∧ x.state = .revoking) :
    closeIfDone (s.toldRound i e) = s.toldRound i e := by
  obtain ⟨j, x, ne, slot, revoking⟩ := others
  refine closeIfDone_waits (.inr ⟨j, revoking_iff.mpr ⟨x, ?_, revoking⟩⟩)
  show (s.alc.domains.set i (some e)).get j = some x
  rw [get_set, if_neg (Ne.symm ne)]
  exact slot

/-- The slot stays declared. -/
theorem closeIfDone_slot {e : Domain} (slot : s.alc.domains.get i = some e) : ∃ x, (closeIfDone s).alc.domains.get i = some x := by
  have bases := ((Allocs.refl (C := False) s).closeIfDone).bases i
  rw [slot] at bases
  cases after : (closeIfDone s).alc.domains.get i with
  | none => simp [after] at bases
  | some x => exact ⟨x, rfl⟩

theorem toldRound_slot (e : Domain) : (s.toldRound i e).alc.domains.get i = some e := by simp [State.toldRound]

end

section
variable {slot : Nat} {i : Fin 6} {d : Domain} {s : State}

theorem domainSettled_noSuch (h : ∀ i : Fin 6, slot = i.val → s.alc.domains.get i = none) :
    domainSettled slot s = (s, .only .noSuch) := by
  rw [domainSettled, domainAt_none h]
  rfl

theorem settledAnswer_some {e : Domain} (left : Option Nat) (h : s.alc.domains.get i = some e) :
    settledAnswer i left s = { status := .ok, body := .settled e.state left } := by
  simp only [settledAnswer, h]

variable (number : slot = i.val) (held : s.alc.domains.get i = some d)
include number held

theorem domainSettled_still (still : d.state = .unmanaged ∨ d.state = .settled) :
    domainSettled slot s = (s, { status := .ok, body := .settled d.state none }) := by
  rw [domainSettled, domainAt_some number held, ← settledAnswer_some none held]
  rcases still with h | h <;> simp only [h]

theorem domainSettled_conflict (managed : d.state ≠ .unmanaged) (open_ : d.state ≠ .settled) (measured : d.measured ≠ none) :
    domainSettled slot s = (s, { status := .conflict, body := .settled d.state none }) := by
  have some_ : d.measured.isSome = true := Option.isSome_iff_ne_none.mpr measured
  rw [domainSettled, domainAt_some number held]
  cases h : d.state with
  | unmanaged => exact absurd h managed
  | settled => exact absurd h open_
  | _ => simp [h, some_, settledConflict]

theorem domainSettled_revoking (revoking : d.state = .revoking) (unmeasured : d.measured = none) : domainSettled slot s =
    (closeIfDone (settleDomain i d s), settledAnswer i none (closeIfDone (settleDomain i d s))) := by
  rw [domainSettled, domainAt_some number held]
  simp [revoking, unmeasured]

theorem domainSettled_released {o : Nat} (late : d.state = .clamped ∨ d.state = .overdue) (unmeasured : d.measured = none)
    (since : d.overdueSince = some o) : domainSettled slot s =
    if o + 200000 ≤ s.now then (settleDomain i d s, settledAnswer i none (settleDomain i d s))
    else (s, settledAnswer i (some ((o + 200000 - s.now) / 1000)) s) := by
  rw [domainSettled, domainAt_some number held]
  rcases late with h | h <;> simp [h, unmeasured, since, holdTime, ms, State.remainingMs]

end

end Sys2Proof.Machine

/-! PROOFS. The statement on settlement, expiry, close and serving (R131 to R133, R145 to R150). -/

namespace Sys2Proof.Machine

/-- A domain's wanted value, in the words of the statement. -/
theorem wanted_of_ceiling {d : Domain} (formed : d.effCeiling ≠ none) :
    d.wanted = max d.floor (min (d.request.getD d.floor) (d.effCeiling.getD 0)) := by
  obtain ⟨c, hc⟩ := Option.ne_none_iff_exists'.mp formed
  simp [Domain.wanted, Domain.wanted?, Domain.wantedIn, hc]

theorem held_of_grant {d : Domain} {g : Nat} (grant : d.grant = some g) : d.held = g := by simp [Domain.held, grant]

/-- What settling leaves of the rest. -/
theorem settleDomain_parts {i : Fin 6} {d : Domain} {s : State} : s.grantsOnly (settleDomain i d s) ∧
    (settleDomain i d s).alc = { s.alc with domains := s.alc.domains.set i (some d.settledNow) } ∧
    ∀ n, d.line = some n → ClampCause.overdue ∉ ((settleDomain i d s).clu.get n).causes := by
  have lines := withdrawOverdue_lines d s
  rw [settleDomain_eq]
  refine ⟨?_, ?_, fun n line => ?_⟩
  · refine grantsOnly_trans (t := withdrawOverdue d s) ?_ ?_
    · rw [State.linesOnly] at lines
      rw [State.grantsOnly, lines]
    · rw [State.grantsOnly, State.toldRound, State.post, slk_post_eq]
      rfl
  · have same : (withdrawOverdue d s).alc = s.alc := withdrawOverdue_alc d s
    rw [State.toldRound, State.post_alc, State.setDomain_alc, same]
  · show ClampCause.overdue ∉ ((withdrawOverdue d s).clu.get n).causes
    simp [withdrawOverdue, line, withdrawCause_get, mem_withoutCause]

theorem withdrawOverdue_eq (d : Domain) (s : State) : withdrawOverdue d s = match d.line with
    | none => s
    | some n => withdrawCause .overdue n s := rfl

theorem addOverdue_eq (d : Domain) (s : State) : addOverdue d s = match d.line with
    | none => s
    | some n => addCause .overdue n s := rfl

theorem expired_eq (d : Domain) (now : Nat) : d.expired now = { d with
    state := if d.line = none then .overdue else .clamped, deadline := none, overdueSince := some now
    clamps := min 65535 (d.clamps + 1) } := by
  rw [Domain.expired]
  cases d.line <;> rfl

/-- What an expiry stores, before the round is looked at. -/
theorem expiry_parts (i : Fin 6) (d : Domain) (s : State) :
    let u := detect .domainOverdue i (addOverdue d s)
    ({ s with mdc := u.mdc } : State).grantsOnly u ∧ u.alc = s.alc ∧
      u.mdc = { s.mdc with
        faults := s.mdc.faults.set 4 { s.mdc.faults.get 4 with detected := true, subject := some i.val } } ∧
      ∀ n, d.line = some n → ClampCause.overdue ∈ (u.clu.get n).causes := by
  intro u
  have lines : s.linesOnly (addOverdue d s) := by
    unfold addOverdue
    split
    · rfl
    · exact linesOnly_setLine ..
  obtain ⟨notices, faults⟩ := detect_only .domainOverdue i (addOverdue d s)
  rw [State.linesOnly] at lines
  rw [State.noticesOnly] at notices
  have mdc : (addOverdue d s).mdc = s.mdc := by rw [lines]
  have alc : (addOverdue d s).alc = s.alc := by rw [lines]
  refine ⟨?_, ?_, ?_, fun n line => ?_⟩
  · have parts : ∀ v w : State, s.linesOnly v → (∀ m, ({ v with mdc := m } : State).noticesOnly w →
        ({ s with mdc := w.mdc } : State).grantsOnly w) := fun v w hv m hw => by
      rw [State.linesOnly] at hv
      rw [State.noticesOnly] at hw
      rw [State.grantsOnly, hw, hv]
    exact parts _ u lines _ notices
  · rw [show u = _ from notices]
    exact alc
  · rw [show u = _ from notices, mdc]
    rfl
  · have clu : u.clu = (addOverdue d s).clu := by rw [show u = _ from notices]
    rw [clu]
    simp [addOverdue, line, addCause_get, mem_withCause]

theorem toldRound_eq {s u : State} (alc : u.alc = s.alc) (i : Fin 6) (e : Domain) : u.toldRound i e = State.post
    (u.grantNotice i e .round (if s.alc.round.affected.any (·.slot == i) then s.alc.round.causes else []))
    { u with alc := { s.alc with domains := s.alc.domains.set i (some e) } } := by
  rw [State.toldRound, State.setDomain, alc]

theorem toldRound_only (i : Fin 6) (e : Domain) (s : State) : s.grantsOnly (s.toldRound i e) := by
  rw [State.grantsOnly, State.toldRound, State.post, slk_post_eq]
  rfl

/-- Settles O52. -/
theorem settlementAndExpiry : Obligations.SettlementAndExpiry := by
  unfold Obligations.SettlementAndExpiry
  refine ⟨fun dt tag slot s => ?_, fun s => ?_⟩
  · intro answers
    refine ⟨fun takes none => owner_answers takes (domainSettled_noSuch (by exact none)), fun i d number held => ?_⟩
    intro others after settles causes told settled
    have slot' : (s.elapse dt).alc.domains.get i = some d := held
    have settled_eq : settleDomain i d (s.elapse dt) = settled := by
      rw [settleDomain_eq, toldRound_eq (withdrawOverdue_alc d _)]
      rfl
    have own : settled.alc.domains.get i = some d.settledNow := by
      rw [← settled_eq, settleDomain_parts.2.1]
      simp
    have revokes : s.takes → d.state = .revoking → d.measured = none →
        ∃ e, (closeIfDone settled).alc.domains.get i = some e ∧ answers .ok (.settled e.state none) (closeIfDone settled) := by
      intro takes revoking unmeasured
      obtain ⟨e, he⟩ := closeIfDone_slot own
      have accepted := domainSettled_revoking number slot' revoking unmeasured
      rw [settled_eq, settledAnswer_some none he] at accepted
      exact ⟨e, he, owner_answers takes accepted⟩
    have settles_of : answers .ok (.settled .settled none) settled → settles := fun h =>
      ⟨settled, h, settled_eq ▸ settleDomain_parts.1, settled_eq ▸ settleDomain_parts.2.1, settled_eq ▸ settleDomain_parts.2.2⟩
    have released : ∀ o, s.takes → (d.state = .clamped ∨ d.state = .overdue) → d.measured = none → d.overdueSince = some o →
        (o + 200000 ≤ s.now + dt → answers .ok (.settled .settled none) settled) ∧
        (s.now + dt < o + 200000 →
          answers .ok (.settled d.state (some ((o + 200000 - (s.now + dt)) / 1000))) (s.elapse dt)) := by
      intro o takes late unmeasured since
      have accepted := domainSettled_released number slot' late unmeasured since
      refine ⟨fun due => ?_, fun early => ?_⟩
      · rw [if_pos (by exact due), settled_eq, settledAnswer_some none own] at accepted
        exact owner_answers takes accepted
      · rw [if_neg (by exact not_le.mpr early), settledAnswer_some _ slot'] at accepted
        exact owner_answers takes accepted
    have expires : ∀ e, d.state = .revoking → d.deadline = some e → exec (.deadlineExpiry i) s = .next (closeIfDone
        ((detect .domainOverdue i (addOverdue d (s.reach e))).toldRound i (d.expired (max s.now e)))) := by
      intro e revoking deadline
      have due : s.deadlineOf i = some e := by simp [State.deadlineOf, held, revoking, deadline]
      have row : exec (.deadlineExpiry i) s = .next (atExpiry (s.deadlineOf i) (expireDeadline i) s) := rfl
      rw [row, due]
      exact congrArg Host.Outcome.next (expireDeadline_eq (s := s.reach e) held)
    refine ⟨revokes, fun o takes late unmeasured since due => (released o takes late unmeasured since).1 due,
      fun e revoking deadline => ?_, fun takes still => owner_answers takes (domainSettled_still number slot' still),
      fun takes managed open_ measured => owner_answers takes (domainSettled_conflict number slot' managed open_ measured),
      fun takes revoking unmeasured another => ?_, fun o takes late unmeasured since =>
        ⟨fun due => settles_of ((released o takes late unmeasured since).1 due), (released o takes late unmeasured since).2⟩,
      fun e revoking deadline => ?_⟩
    · obtain ⟨-, alc, -⟩ := expiry_parts i d (s.reach e)
      rw [expires e revoking deadline, toldRound_eq (s := s) alc, expired_eq]
      rfl
    · obtain ⟨e, he, h⟩ := revokes takes revoking unmeasured
      have stays : closeIfDone settled = settled := by
        rw [← settled_eq, settleDomain_eq]
        refine closeIfDone_others ?_
        rw [withdrawOverdue_alc]
        exact another
      rw [stays] at h he
      rw [own] at he
      cases he
      exact settles_of h
    · obtain ⟨only, alc, mdc, lines⟩ := expiry_parts i d (s.reach e)
      set u := detect .domainOverdue i (addOverdue d (s.reach e)) with hu
      set w := u.toldRound i (d.expired (max s.now e)) with hw
      have grants : Grants w (closeIfDone w) := (Grants.refl w).closeIfDone
      have told := grantsOnly_trans (toldRound_only i (d.expired (max s.now e)) u) grants.only
      have mdc' : (closeIfDone w).mdc = u.mdc := by
        rw [State.grantsOnly] at told
        rw [told]
      refine ⟨closeIfDone w, expires e revoking deadline, ?_, mdc'.trans mdc, fun n line => ?_, fun another => ?_⟩
      · rw [mdc']
        exact grantsOnly_trans only told
      · have clu : (closeIfDone w).clu = u.clu := ((Allocs.refl (C := False) w).closeIfDone).clu
        rw [clu]
        exact lines n line
      · have stays : closeIfDone w = w := closeIfDone_others (by rw [alc]; exact another)
        rw [stays, hw, toldRound_eq (s := s) alc, State.post_alc, expired_eq]
  · intro round wanted raised with_ count closed told revoking spare
    have notice : State.post s.roundNotice = told := by
      simp only [State.roundNotice, outcomes_eq]
      rfl
    have revoking_iff' : (∃ i, s.alc.revoking i = true) ↔ revoking := exists_congr fun i => revoking_iff
    have unrevoked : ¬revoking → ∀ i, s.alc.revoking i = false := fun h i => by
      cases r : s.alc.revoking i with
      | false => rfl
      | true => exact absurd (revoking_iff'.mp ⟨i, r⟩) h
    refine ⟨fun h => closeIfDone_waits (h.imp id revoking_iff'.mpr), fun opened still nobody => ?_,
      fun i d g opened still owner slot grant meets formed => ?_,
      fun i d g opened still owner slot grant short formed on queued => ?_, fun h => h.elim serve_opened serve_empty,
      fun e l d g shut queue slot grant formed on short once => ?_⟩
    · rw [closeIfDone_closes opened (unrevoked still), closeRound_alone nobody, notice]
      rfl
    · have wants : d.wanted = wanted d := wanted_of_ceiling formed
      have met : d.held + s.alc.round.reservation = d.wanted := by
        rw [held_of_grant grant, wants]
        exact meets
      rw [closeIfDone_closes opened (unrevoked still), closeRound_meets owner slot met, notice, wants]
      rfl
    · have wants : d.wanted = wanted d := wanted_of_ceiling formed
      have lacks : d.held + s.alc.round.reservation < d.wanted := by
        rw [held_of_grant grant, wants]
        exact short
      rw [closeIfDone_closes opened (unrevoked still), closeRound_short owner slot lacks on queued, notice, held_of_grant grant]
      rfl
    have wants : d.wanted = wanted d := wanted_of_ceiling formed
    have holds : d.held = g := held_of_grant grant
    have lacks : d.held < d.wanted := by
      rw [holds, wants]
      exact short
    have spare_eq : s.alc.spare = spare := rfl
    refine ⟨fun enough => ?_, fun some_ few => ?_, fun spent sound floors => ?_⟩
    · rw [serve_meets shut queue slot lacks once (by rw [wants, holds, spare_eq]; exact enough), wants]
      rfl
    · rw [serve_partly shut queue slot lacks on some_ (by rw [wants, holds, spare_eq]; exact few), holds]
      rfl
    · intro part takeable t
      have takeable_is : s.alc.takeable d.priority = takeable := by
        rw [show takeable = sumSix part from sumSix_list part]
        unfold Alc.takeable Alc.sumDomains
        refine congrArg sumSix (funext fun j => ?_)
        cases h : s.alc.domains.get j <;> simp [part, h, Domain.held]
      have shortfall : d.shortfall = wanted d - g := by rw [Domain.shortfall, wants, holds]
      have t_eq : t = preemptFor e.slot d s := serve_spent queue slot (Nat.sub_pos_of_lt lacks) shut spent
      refine ⟨fun none => ?_, fun takes => ?_⟩
      · rw [t_eq, preemptFor_idle (takeable_is.trans none)]
      · have plan := preemptFor_spent (i := e.slot) shut (Nat.sub_pos_of_lt lacks) (by rw [takeable_is]; exact takes) spent
        obtain ⟨lowers, order, spares, sum, extra, round'⟩ := lowerEach_preempted (i := e.slot) (p := d.priority)
          (reservation := min d.shortfall (s.alc.takeable d.priority)) sound floors (min_le_right d.shortfall _)
        rw [← plan, ← t_eq] at lowers order spares sum round'
        have reservation : t.alc.round.reservation = min (wanted d - g) takeable := by
          rw [round', ← shortfall, ← takeable_is]
          rfl
        refine ⟨lowers, order, spares, ?_, reservation, by rw [round']; rfl, by rw [round']; rfl, by rw [round']; rfl,
          by rw [round']; rfl⟩
        rw [reservation, ← shortfall, ← takeable_is]
        exact sum

end Sys2Proof.Machine

/-! PROOFS. What a hand-over to zones, fans and Allocator leaves of zones, fans, budget and ceilings (R91, R92, R93, R160). -/

namespace Sys2Proof.Machine

/-- What a hand-over keeps, over `Fixed`; `W` says which zones it evaluates. -/
structure Handed (W : Fin 6 → Prop) (s t : State) : Prop where
  fixed : Fixed s t
  managed : t.managed = s.managed
  budget : t.alc.budget = { s.alc.budget with
    severities := t.alc.budget.severities, derates := t.alc.budget.derates, effective := t.alc.budget.effective }
  bases : ∀ i, (t.alc.domains.get i).map Domain.base = (s.alc.domains.get i).map Domain.base
  formed : s.managed = true → s.alc.budget.effective = some s.formB → t.alc.budget.effective = some t.formB
  zones : ∀ z, t.znm.zones.get z = { s.znm.zones.get z with
    state := (t.znm.zones.get z).state, woke := (t.znm.zones.get z).woke, demand := (t.znm.zones.get z).demand }
  others : ∀ z, ¬W z → (t.znm.zones.get z).state = (s.znm.zones.get z).state ∧
    (t.znm.zones.get z).woke = (s.znm.zones.get z).woke
  fans : ∀ m, (t.fnc.fans.get m).enabled = (s.fnc.fans.get m).enabled ∧
    (t.fnc.fans.get m).minDuty = (s.fnc.fans.get m).minDuty
  quiet : (∀ z, ¬W z) → Quiet (· ≠ 0x44) s t

theorem follow_setup (f : Fan) (t now : Nat) :
    (f.follow t now).enabled = f.enabled ∧ (f.follow t now).minDuty = f.minDuty ∧ (f.follow t now).target = t := by
  unfold Fan.follow
  split
  · exact ⟨rfl, rfl, rfl⟩
  · split <;> exact ⟨rfl, rfl, rfl⟩
  · split <;> exact ⟨rfl, rfl, rfl⟩

namespace Handed

variable {W : Fin 6 → Prop} {s t u : State}

theorem refl (s : State) : Handed W s s :=
  ⟨.refl s, rfl, rfl, fun _ => rfl, fun _ h => h, fun _ => rfl, fun _ _ => ⟨rfl, rfl⟩, fun _ => ⟨rfl, rfl⟩, fun _ => .refl s⟩

theorem trans (h : Handed W s t) (k : Handed W t u) : Handed W s u where
  fixed := h.fixed.trans k.fixed
  managed := k.managed.trans h.managed
  budget := by rw [k.budget, h.budget]
  bases i := (k.bases i).trans (h.bases i)
  formed m f := k.formed (h.managed.trans m) (h.formed m f)
  zones z := by rw [k.zones z, h.zones z]
  others z w := ⟨((k.others z w).1).trans (h.others z w).1, ((k.others z w).2).trans (h.others z w).2⟩
  fans m := ⟨(k.fans m).1.trans (h.fans m).1, (k.fans m).2.trans (h.fans m).2⟩
  quiet w := (h.quiet w).trans (k.quiet w)

theorem ofFans (h : OnlyFans s t) (fixed : Fixed s t) (fans : ∀ m, (t.fnc.fans.get m).enabled = (s.fnc.fans.get m).enabled ∧
    (t.fnc.fans.get m).minDuty = (s.fnc.fans.get m).minDuty) : Handed W s t where
  fixed := fixed
  managed := h.managed
  budget := by rw [h.budget]
  bases := h.bases
  formed m f := (h.formed f).resolve_right (by simp [m])
  zones z := by rw [h.zones z]
  others z _ := by
    rw [h.zones z]
    exact ⟨rfl, rfl⟩
  fans := fans
  quiet _ := h.quiet.mono fun k hk => by rcases hk with rfl | rfl | rfl <;> decide

/-- An input of the budget handed over by a recomputation. -/
theorem recomputed {c : RoundCause} {f : Budget → Budget} (kept : ∀ b : Budget, f b = { b with
    severities := (f b).severities, derates := (f b).derates }) (s : State) : Handed W s (recompute c (s.withBudget f)) := by
  set b := s.withBudget f with hb
  have grants : Grants b (recompute c b) := (Grants.refl b).recompute c
  have allocs : Allocs False b (recompute c b) := (Allocs.refl b).recompute c
  have only := grants.only
  rw [State.grantsOnly] at only
  have znm : (recompute c b).znm = s.znm := by rw [only]; rfl
  have fnc : (recompute c b).fnc = s.fnc := by rw [only]; rfl
  refine ⟨?_, grants.managed, ?_, allocs.bases, fun m _ => recompute_effective c (s := b) m, fun z => by rw [znm],
    fun z _ => by rw [znm]; exact ⟨rfl, rfl⟩, fun m => by rw [fnc]; exact ⟨rfl, rfl⟩, fun _ => ?_⟩
  · have stored : Fixed s b := (Fixed.refl s).step rfl rfl rfl rfl rfl rfl rfl rfl rfl rfl rfl (fun _ => rfl) (fun _ => rfl)
      fun _ => rfl
    exact stored.grants grants
  · have formed : (recompute c b).alc.budget = { f s.alc.budget with effective := (recompute c b).alc.budget.effective } :=
      grants.budget
    rw [formed, kept s.alc.budget]
  · exact ((Quiet.same rfl : Quiet _ s b).trans allocs.quiet).mono fun k hk => by rcases hk with rfl | rfl <;> decide

/-- A change of the clamp lines. -/
theorem ofLines (h : s.linesOnly t) (grants : Grants s t) (quiet : Quiet (· = 0x43) s t) : Handed W s t := by
  rw [State.linesOnly] at h
  have alc : t.alc = s.alc := by rw [h]
  have znm : t.znm = s.znm := by rw [h]
  have fnc : t.fnc = s.fnc := by rw [h]
  exact ⟨(Fixed.refl s).grants grants, grants.managed, by rw [alc], fun i => by rw [alc], fun _ f => by
    rw [grants.formB_eq, alc]
    exact f, fun z => by rw [znm], fun z _ => by rw [znm]; exact ⟨rfl, rfl⟩, fun m => by rw [fnc]; exact ⟨rfl, rfl⟩,
    fun _ => quiet.mono fun k hk => by rw [hk]; decide⟩

/-- A change of the zones' states and demands alone. -/
theorem ofZones (h : t = { s with znm := t.znm }) (zones : ∀ z, t.znm.zones.get z = { s.znm.zones.get z with
      state := (t.znm.zones.get z).state, woke := (t.znm.zones.get z).woke, demand := (t.znm.zones.get z).demand })
    (others : ∀ z, ¬W z → (t.znm.zones.get z).state = (s.znm.zones.get z).state ∧
      (t.znm.zones.get z).woke = (s.znm.zones.get z).woke) : Handed W s t where
  fixed := (Fixed.refl s).step (by rw [h]) (by rw [h]) (by rw [h]) (by rw [h]) (by rw [h]) (by rw [h]) (by rw [h]) (by rw [h])
    (by rw [h]) (by rw [h]) (by rw [h]) (fun i => by rw [h]) (fun n => by rw [h]) fun z => by rw [zones z]; rfl
  managed := by rw [h]; rfl
  budget := by rw [h]
  bases i := by rw [h]
  formed _ f := by
    rw [h]
    exact f
  zones := zones
  others := others
  fans m := by rw [h]; exact ⟨rfl, rfl⟩
  quiet _ := .same (by rw [h])

theorem ofStep (h : HandStep W s t) : Handed W s t := by
  cases h with
  | severity z v s => exact recomputed (fun _ => rfl) s
  | derate n v s => exact recomputed (fun _ => rfl) s
  | fan n x s =>
    have fans := OnlyFans.stored n ((s.fnc.fans.get n).follow x s.now) s
    refine ofFans fans ((Fixed.refl s).step rfl rfl rfl rfl rfl rfl rfl rfl rfl rfl rfl (fun _ => rfl) (fun _ => rfl)
      fun _ => rfl) fun m => ?_
    show ((s.fnc.fans.set n _).get m).enabled = _ ∧ ((s.fnc.fans.set n _).get m).minDuty = _
    rw [get_set]
    split
    · next e =>
      subst e
      obtain ⟨enabled, duty, -⟩ := follow_setup (s.fnc.fans.get n) x s.now
      exact ⟨enabled, duty⟩
    · exact ⟨rfl, rfl⟩
  | fanNotice n f s => exact ofFans (.fanNotice n f s) ((Fixed.refl s).grants ((Grants.refl s).post _)) fun m => ⟨rfl, rfl⟩
  | zoneNotice z s hz =>
    have grants : Grants s (postZone z s) := (Grants.refl s).post _
    exact ⟨(Fixed.refl s).grants grants, rfl, rfl, fun _ => rfl, fun _ f => f, fun _ => rfl, fun _ _ => ⟨rfl, rfl⟩,
      fun _ => ⟨rfl, rfl⟩, fun none => absurd hz (none z)⟩
  | demand z d s =>
    refine ofZones rfl (fun y => ?_) fun y _ => ?_
    · simp only [State.setZone, State.withZnm, get_set]
      split
      · next e => rw [e]
      · rfl
    · simp only [State.setZone, State.withZnm, get_set]
      split
      · next e => rw [e]; exact ⟨rfl, rfl⟩
      · exact ⟨rfl, rfl⟩
  | demands f s =>
    refine ofZones rfl (fun y => ?_) fun y _ => ?_ <;> simp [State.mapZones, State.withZnm, get_tabulate]
  | judged z x w s hz =>
    refine ofZones rfl (fun y => ?_) fun y hy => ?_
    · simp only [State.setZone, State.withZnm, get_set]
      split
      · next e => rw [e]
      · rfl
    · have ne : z ≠ y := fun e => hy (e ▸ hz)
      simp [State.setZone, State.withZnm, get_set, ne]
  | claim v s => exact ofZones rfl (fun _ => rfl) fun _ _ => ⟨rfl, rfl⟩
  | clamp s => exact ofLines (linesOnly_addCauseTo ..) ((Grants.refl s).addCauseTo _ _) (quiet_addCauseTo ..)
  | unclamp s => exact ofLines (linesOnly_withdrawCauseFrom ..) ((Grants.refl s).withdrawCauseFrom _ _) (quiet_withdrawCauseFrom ..)
  | wake s dozing =>
    have fixed : Fixed s s.awake := ((Fixed.refl s).setMode .running).stopContact.wakeContact
    rw [State.awake_eq] at fixed ⊢
    refine ⟨fixed, ?_, rfl, fun _ => rfl, fun _ f => f, fun _ => rfl, fun _ _ => ⟨rfl, rfl⟩, fun _ => ⟨rfl, rfl⟩,
      fun _ => .same rfl⟩
    simp [State.managed, dozing, Mode.managed]

theorem ofHands (h : Hands W s t) : Handed W s t := h.keeps refl trans ofStep

theorem lst (h : Handed W s t) : t.lst = s.lst := h.fixed.lst

theorem plu (h : Handed W s t) : t.plu = s.plu := h.fixed.plu

theorem active (h : Handed W s t) : t.active = s.active := by
  simp only [State.active, State.activeId, h.lst, h.plu]

/-- A zone that is not evaluated keeps its record but for its demands. -/
theorem zone (h : Handed W s t) {z : Fin 6} (other : ¬W z) :
    t.znm.zones.get z = { s.znm.zones.get z with demand := (t.znm.zones.get z).demand } := by
  have zone := h.zones z
  obtain ⟨state, woke⟩ := h.others z other
  rw [state, woke] at zone
  exact zone

end Handed

end Sys2Proof.Machine

/-! PROOFS. Fan targets: what they depend on, and what brings them up to date (R93, R160). -/

namespace Sys2Proof.Machine

/-! ## What a target depends on -/

/-- A fan's target, if it is enabled, is the one that is formed now. -/
def State.aimed (s : State) (m : Fin 2) : Prop :=
  (s.fnc.fans.get m).enabled = true → (s.fnc.fans.get m).target = s.targetOf m

theorem lifted_eq (s : State) (m : Fin 2) :
    s.lifted m = six.any fun z => (s.znm.zones.get z).maps m && (s.znm.zones.get z).state.severe := by
  rw [State.lifted, State.mappedZones, List.any_filter, List.any_map]
  rfl

theorem demands_eq (s : State) (m : Fin 2) : s.demands m =
    six.filterMap fun z => if (s.znm.zones.get z).maps m then (s.znm.zones.get z).demand.get m else none := by
  rw [State.demands, State.mappedZones, List.filterMap_filter, List.filterMap_map]
  rfl

theorem targetOf_congr {s t : State} {m : Fin 2} (managed : t.managed = s.managed)
    (running : t.mdc.mode = .running ↔ s.mdc.mode = .running) (active : t.active = s.active)
    (maps : ∀ z, (t.znm.zones.get z).maps m = (s.znm.zones.get z).maps m)
    (severe : ∀ z, (s.znm.zones.get z).maps m = true → (t.znm.zones.get z).state.severe = (s.znm.zones.get z).state.severe)
    (demand : ∀ z, (s.znm.zones.get z).maps m = true → (t.znm.zones.get z).demand.get m = (s.znm.zones.get z).demand.get m)
    (duty : (t.fnc.fans.get m).minDuty = (s.fnc.fans.get m).minDuty) : t.targetOf m = s.targetOf m := by
  have lifted : t.lifted m = s.lifted m := by
    rw [lifted_eq, lifted_eq]
    refine congrArg six.any (funext fun z => ?_)
    rw [maps z]
    cases mapped : (s.znm.zones.get z).maps m with
    | false => rfl
    | true => rw [severe z mapped]
  have demands : t.demands m = s.demands m := by
    rw [demands_eq, demands_eq]
    refine congrArg six.filterMap (funext fun z => ?_)
    rw [maps z]
    split
    · next mapped => exact demand z mapped
    · rfl
  have floor : t.fanFloor m = s.fanFloor m := by simp only [State.fanFloor, running, active]
  have raw : t.rawTarget m = s.rawTarget m := by
    unfold State.rawTarget
    rw [managed, lifted, floor, active, State.highestDemand, State.highestDemand, demands]
  rw [State.targetOf, State.targetOf, raw, Fan.heldTarget, Fan.heldTarget, duty]

section
variable {s t : State} {m : Fin 2}

/-- Nothing that a target depends on changes. -/
theorem aimed_same (mdc : t.mdc = s.mdc) (lst : t.lst = s.lst) (plu : t.plu = s.plu) (zones : t.znm.zones = s.znm.zones)
    (fans : t.fnc.fans = s.fnc.fans) (h : s.aimed m) : t.aimed m := by
  have active : t.active = s.active := by simp only [State.active, State.activeId, lst, plu]
  have target : t.targetOf m = s.targetOf m := targetOf_congr (by rw [State.managed, mdc]; rfl) (by rw [mdc]) active
    (fun z => by rw [zones]) (fun z _ => by rw [zones]) (fun z _ => by rw [zones]) (by rw [fans])
  intro enabled
  rw [fans] at enabled ⊢
  rw [target]
  exact h enabled

/-! ## One fan's record replaced -/

theorem handDerate_kept (n : Fin 2) (v : Bool) (s : State) :
    (handDerate n v s).fnc = s.fnc ∧ (handDerate n v s).znm = s.znm ∧ (handDerate n v s).mdc = s.mdc ∧
      (handDerate n v s).lst = s.lst ∧ (handDerate n v s).plu = s.plu := by
  have only := (handDerate_facts n v s).1
  rw [State.grantsOnly] at only
  rw [only]
  exact ⟨rfl, rfl, rfl, rfl, rfl⟩

theorem setFan_kept (n : Fin 2) (f : Fan) (s : State) : (setFan n f s).fnc.fans = s.fnc.fans.set n f ∧
    (setFan n f s).znm = s.znm ∧ (setFan n f s).mdc = s.mdc ∧ (setFan n f s).lst = s.lst ∧ (setFan n f s).plu = s.plu := by
  by_cases claim : (s.fnc.fans.get n).state.claim = f.state.claim
  · cases same : (s.fnc.fans.get n).state.same f.state with
    | false =>
      rw [setFan_told same claim]
      exact ⟨rfl, rfl, rfl, rfl, rfl⟩
    | true =>
      rw [setFan_stored same claim]
      exact ⟨rfl, rfl, rfl, rfl, rfl⟩
  · obtain ⟨t, e, told⟩ := setFan_claims claim
    obtain ⟨fnc, znm, mdc, lst, plu⟩ := handDerate_kept n f.state.claim t
    rw [State.noticesOnly] at told
    rw [e, fnc, znm, mdc, lst, plu, told]
    exact ⟨rfl, rfl, rfl, rfl, rfl⟩

/-- What applying one target leaves, and the fan's record after it. -/
theorem applyTarget_kept (n : Fin 2) (s : State) : (applyTarget n s).znm = s.znm ∧ (applyTarget n s).mdc = s.mdc ∧
    (applyTarget n s).lst = s.lst ∧ (applyTarget n s).plu = s.plu ∧
    ∀ m, (applyTarget n s).fnc.fans.get m = if n = m ∧ (s.fnc.fans.get n).enabled = true then
      (s.fnc.fans.get m).follow (s.targetOf m) s.now else s.fnc.fans.get m := by
  unfold applyTarget
  dsimp only
  split
  · next enabled =>
    obtain ⟨fans, znm, mdc, lst, plu⟩ := setFan_kept n ((s.fnc.fans.get n).follow (s.targetOf n) s.now) s
    refine ⟨znm, mdc, lst, plu, fun m => ?_⟩
    rw [fans, get_set]
    by_cases own : n = m
    · subst own
      rw [if_pos rfl, if_pos ⟨rfl, enabled⟩]
    · rw [if_neg own, if_neg fun h => own h.1]
  · next disabled => exact ⟨rfl, rfl, rfl, rfl, fun m => by rw [if_neg fun h => disabled h.2]⟩

/-- Applying a target brings that fan up to date and leaves the other as it is. -/
theorem applyTarget_aims (n : Fin 2) (h : m = n ∨ s.aimed m) : (applyTarget n s).aimed m := by
  obtain ⟨znm, mdc, lst, plu, fan⟩ := applyTarget_kept n s
  have active : (applyTarget n s).active = s.active := by simp only [State.active, State.activeId, lst, plu]
  have setup : ((applyTarget n s).fnc.fans.get m).enabled = (s.fnc.fans.get m).enabled ∧
      ((applyTarget n s).fnc.fans.get m).minDuty = (s.fnc.fans.get m).minDuty := by
    rw [fan]
    split
    · exact ⟨(follow_setup _ _ _).1, (follow_setup _ _ _).2.1⟩
    · exact ⟨rfl, rfl⟩
  have target : (applyTarget n s).targetOf m = s.targetOf m := targetOf_congr (by rw [State.managed, mdc]; rfl) (by rw [mdc])
    active (fun z => by rw [znm]) (fun z _ => by rw [znm]) (fun z _ => by rw [znm]) setup.2
  intro enabled
  rw [setup.1] at enabled
  rw [target, fan]
  split
  · exact (follow_setup _ _ _).2.2
  · next other =>
    refine (h.resolve_left fun own => other ⟨own.symm, ?_⟩) enabled
    rw [← own]
    exact enabled

theorem applyTargets_aims (s : State) (m : Fin 2) : (applyTargets s).aimed m := by
  show (applyTarget 1 (applyTarget 0 s)).aimed m
  refine applyTarget_aims 1 ?_
  by_cases one : m = 1
  · exact .inl one
  · exact .inr (applyTarget_aims 0 (.inl (by omega)))

theorem reformDemands_aims (s : State) (m : Fin 2) : (reformDemands s).aimed m := applyTargets_aims _ m

theorem wakeUp_aims (s : State) (m : Fin 2) : (wakeUp s).aimed m := reformDemands_aims _ m

end

end Sys2Proof.Machine

/-! PROOFS. The evaluation of a zone, stage by stage: demands, targets, severity and thermal claim (R87, R91 to R94, R160). -/

namespace Sys2Proof.Machine

variable {s t u : State} {z : Fin 6} {n m : Fin 2}

/-- Between two states a fan's target stays up to date, and is brought up to date where a zone's demand for it changes. -/
def Follows (z : Fin 6) (m : Fin 2) (s t : State) : Prop :=
  s.aimed m ∨ (t.znm.zones.get z).demand.get m ≠ (s.znm.zones.get z).demand.get m → t.aimed m

namespace Follows

theorem refl (s : State) : Follows z m s s := fun h => h.resolve_right fun ne => ne rfl

theorem trans (h : Follows z m s t) (k : Follows z m t u) : Follows z m s u := by
  rintro (aimed | moved)
  · exact k (.inl (h (.inl aimed)))
  · by_cases same : (t.znm.zones.get z).demand.get m = (s.znm.zones.get z).demand.get m
    · exact k (.inr (same ▸ moved))
    · exact k (.inl (h (.inr same)))

theorem ofAimed (h : t.aimed m) : Follows z m s t := fun _ => h

theorem same (mdc : t.mdc = s.mdc) (lst : t.lst = s.lst) (plu : t.plu = s.plu) (zones : t.znm.zones = s.znm.zones)
    (fans : t.fnc.fans = s.fnc.fans) : Follows z m s t := by
  rintro (aimed | moved)
  · exact aimed_same mdc lst plu zones fans aimed
  · exact absurd (by rw [zones]) moved

end Follows

/-! ## Demands -/

theorem demandOf_onlyFans (h : OnlyFans s t) (z : Fin 6) (n : Fin 2) : t.demandOf z n = s.demandOf z n := by
  have lst : t.lst = s.lst := by rw [h.rest]
  have plu : t.plu = s.plu := by rw [h.rest]
  have temperature : (t.znm.zones.get z).temperature = (s.znm.zones.get z).temperature := by rw [h.zones]
  simp only [State.demandOf, State.fanFloor, State.active, State.activeId, h.mdc, lst, plu, temperature]

/-- One zone's demand for one fan replaced: the other fan's target depends on nothing that changes. -/
theorem aimed_setDemand {d : Option Nat} (other : n ≠ m) (h : s.aimed m) :
    (s.setZone z { s.znm.zones.get z with demand := (s.znm.zones.get z).demand.set n d }).aimed m := by
  obtain ⟨t, stored⟩ : ∃ t, t = s.setZone z { s.znm.zones.get z with demand := (s.znm.zones.get z).demand.set n d } := ⟨_, rfl⟩
  rw [← stored]
  have zones : ∀ y, t.znm.zones.get y = if z = y then
      { s.znm.zones.get y with demand := (s.znm.zones.get y).demand.set n d } else s.znm.zones.get y := fun y => by
    rw [stored]
    simp only [State.setZone, State.withZnm, get_set]
    split
    · next e => rw [e]
    · rfl
  have target : t.targetOf m = s.targetOf m := by
    refine targetOf_congr (by rw [stored]; rfl) (by rw [stored]; rfl) (by rw [stored]; rfl) (fun y => ?_) (fun y _ => ?_)
      (fun y _ => ?_) (by rw [stored]; rfl) <;> rw [zones]
    · split <;> rfl
    · split <;> rfl
    · split
      · exact (get_set ..).trans (if_neg other)
      · rfl
  have fans : t.fnc = s.fnc := by rw [stored]; rfl
  intro enabled
  rw [fans] at enabled ⊢
  rw [target]
  exact h enabled

theorem handDemand_cases (z : Fin 6) (n : Fin 2) (s : State) :
    ((s.znm.zones.get z).maps n = false ∨ (s.znm.zones.get z).demand.get n = some (s.demandOf z n)) ∧ handDemand z n s = s ∨
    (s.znm.zones.get z).maps n = true ∧ handDemand z n s = applyTarget n
      (s.setZone z { s.znm.zones.get z with demand := (s.znm.zones.get z).demand.set n (some (s.demandOf z n)) }) := by
  unfold handDemand
  dsimp only
  split
  · next done => exact .inl ⟨done, rfl⟩
  · next new => exact .inr ⟨by simpa using (not_or.mp new).1, rfl⟩

theorem handDemand_follows (z : Fin 6) (n m : Fin 2) (s : State) : Follows z m s (handDemand z n s) := by
  rcases handDemand_cases z n s with ⟨-, e⟩ | ⟨-, e⟩ <;> rw [e]
  · exact .refl s
  · by_cases own : m = n
    · exact .ofAimed (applyTarget_aims n (.inl own))
    · rintro (aimed | moved)
      · exact applyTarget_aims n (.inr (aimed_setDemand (Ne.symm own) aimed))
      · refine absurd ?_ moved
        rw [(applyTarget_kept ..).1]
        simp only [State.setZone, State.withZnm, get_set, if_true]
        exact if_neg (Ne.symm own)

/-- The demand for a mapped fan after its hand-over is the one that is formed now; the other's stays. -/
theorem handDemand_demand (z : Fin 6) (n m : Fin 2) (s : State) : ((handDemand z n s).znm.zones.get z).demand.get m =
    if n = m ∧ (s.znm.zones.get z).maps n = true then some (s.demandOf z n) else (s.znm.zones.get z).demand.get m := by
  rcases handDemand_cases z n s with ⟨done, e⟩ | ⟨mapped, e⟩ <;> rw [e]
  · rcases done with unmapped | same
    · rw [if_neg fun h => by simp [unmapped] at h]
    · split
      · next own => rw [← own.1, same]
      · rfl
  · rw [(applyTarget_kept ..).1]
    simp only [State.setZone, State.withZnm, get_set, if_true, mapped, and_true]

theorem handDemands_follows (z : Fin 6) (m : Fin 2) (s : State) : Follows z m s (handDemands z s) :=
  (handDemand_follows z 0 m s).trans (handDemand_follows z 1 m _)

theorem maps_onlyFans (h : OnlyFans s t) (z : Fin 6) (n : Fin 2) :
    (t.znm.zones.get z).maps n = (s.znm.zones.get z).maps n := by
  rw [h.zones]
  rfl

theorem handDemands_demand (mapped : (s.znm.zones.get z).maps m = true) :
    ((handDemands z s).znm.zones.get z).demand.get m = some ((handDemands z s).demandOf z m) := by
  show ((handDemand z 1 (handDemand z 0 s)).znm.zones.get z).demand.get m = _
  have first : OnlyFans s (handDemand z 0 s) := .handDemand z 0 s
  have second : OnlyFans (handDemand z 0 s) (handDemands z s) := .handDemand z 1 _
  rw [demandOf_onlyFans second, handDemand_demand, handDemand_demand, maps_onlyFans first]
  have fan : m = 0 ∨ m = 1 := by omega
  rcases fan with e | e <;> subst e <;> simp [mapped, demandOf_onlyFans first]

/-! ## Thermal claim and severity -/

theorem anyCritical_iff (s : State) : s.anyCritical = true ↔ ∃ z, (s.znm.zones.get z).state = .critical := by
  rw [State.anyCritical, List.any_eq_true]
  constructor
  · rintro ⟨z, -, h⟩
    exact ⟨z, by simpa using h⟩
  · rintro ⟨z, h⟩
    exact ⟨z, by fin_cases z <;> simp [six], by simpa using h⟩

/-- What updating the thermal claim does: the claim alone, and the clamp lines. -/
theorem updateThermalClaim_facts (s : State) :
    State.linesOnly (s.withZnm fun m => { m with thermalClaim := s.anyCritical }) (updateThermalClaim s) ∧
    (s.anyCritical = s.znm.thermalClaim → updateThermalClaim s = s) ∧
    (s.anyCritical ≠ s.znm.thermalClaim → ∀ k, ClampCause.thermal ∈ ((updateThermalClaim s).clu.get k).causes ↔
      s.anyCritical = true) := by
  unfold updateThermalClaim
  split
  · next same => exact ⟨by rw [same]; exact .refl _, fun _ => rfl, fun ne => absurd same ne⟩
  · next moved =>
    split
    · next on =>
      rw [on]
      exact ⟨linesOnly_addCauseTo .., fun same => absurd (on.trans same) moved, fun _ k => by simpa using six_cause .thermal true _ k⟩
    · next off =>
      rw [Bool.not_eq_true] at off
      rw [off]
      exact ⟨linesOnly_withdrawCauseFrom .., fun same => absurd (off.trans same) moved,
        fun _ k => by simpa using six_cause .thermal false _ k⟩

end Sys2Proof.Machine

/-! PROOFS. A zone's evaluation: the severity handed on, and the state after it (R88, R91, R92, R94). -/

namespace Sys2Proof.Machine

variable {s t u : State} {z : Fin 6} {n m : Fin 2}

/-! ## The severity handed on -/

theorem handSeverity_facts (z : Fin 6) (v : Bool) (s : State) : s.grantsOnly (handSeverity z v s) ∧
    (handSeverity z v s).alc.budget.severities.get z = v ∧
    (s.managed = true → (handSeverity z v s).alc.budget.effective = some (handSeverity z v s).formB) := by
  have grants := (Grants.refl (s.withBudget fun b => { b with severities := b.severities.set z v })).recompute .thermal
  refine ⟨grantsOnly_trans rfl grants.only, ?_, fun m => recompute_effective .thermal (s := s.withBudget _) m⟩
  show (recompute .thermal (s.withBudget _)).alc.budget.severities.get z = v
  rw [grants.budget]
  exact (get_set ..).trans (if_pos rfl)

/-- What the hand-over to the Allocator and to the lines keeps of what a target depends on. -/
structure Parts (s t : State) : Prop where
  mdc : t.mdc = s.mdc
  lst : t.lst = s.lst
  plu : t.plu = s.plu
  zones : t.znm.zones = s.znm.zones

namespace Parts

theorem trans (h : Parts s t) (k : Parts t u) : Parts s u :=
  ⟨k.mdc.trans h.mdc, k.lst.trans h.lst, k.plu.trans h.plu, k.zones.trans h.zones⟩

theorem aimed (h : Parts s t) (fans : t.fnc.fans = s.fnc.fans) (a : s.aimed m) : t.aimed m :=
  aimed_same h.mdc h.lst h.plu h.zones fans a

theorem managed (h : Parts s t) : t.managed = s.managed := by rw [State.managed, h.mdc]; rfl

theorem anyCritical (h : Parts s t) : t.anyCritical = s.anyCritical := by rw [State.anyCritical, h.zones]; rfl

end Parts

theorem handSeverity_parts (z : Fin 6) (v : Bool) (s : State) : Parts s (handSeverity z v s) ∧
    (handSeverity z v s).fnc = s.fnc ∧ (handSeverity z v s).znm = s.znm := by
  have only := (handSeverity_facts z v s).1
  rw [State.grantsOnly] at only
  rw [only]
  exact ⟨⟨rfl, rfl, rfl, rfl⟩, rfl, rfl⟩

theorem updateThermalClaim_parts (s : State) : Parts s (updateThermalClaim s) ∧
    (updateThermalClaim s).fnc = s.fnc ∧ (updateThermalClaim s).alc = s.alc ∧
    (updateThermalClaim s).znm.thermalClaim = s.anyCritical := by
  have lines := (updateThermalClaim_facts s).1
  rw [State.linesOnly] at lines
  rw [lines]
  exact ⟨⟨rfl, rfl, rfl, rfl⟩, rfl, rfl, rfl⟩

/-- The targets of the fans that a zone is mapped to. -/
def liftFans (maps : Fin 2 → Bool) (s : State) : State := two.foldl (fun u n => if maps n then applyTarget n u else u) s

theorem liftFans_facts (maps : Fin 2 → Bool) (s : State) : OnlyFans s (liftFans maps s) ∧ (liftFans maps s).znm = s.znm ∧
    ∀ m, maps m = true ∨ s.aimed m → (liftFans maps s).aimed m := by
  have one : ∀ n (u : State), OnlyFans u (if maps n then applyTarget n u else u) ∧
      (if maps n then applyTarget n u else u).znm = u.znm ∧
      ∀ m, (m = n ∧ maps m = true) ∨ u.aimed m → (if maps n then applyTarget n u else u).aimed m := fun n u => by
    split
    · exact ⟨.applyTarget n u, (applyTarget_kept n u).1, fun m h => applyTarget_aims n (h.imp And.left id)⟩
    · next unmapped => exact ⟨.refl u, rfl, fun m h => h.resolve_left fun ⟨e, mapped⟩ => unmapped (e ▸ mapped)⟩
  obtain ⟨only, znm, aims⟩ := one 0 s
  obtain ⟨only', znm', aims'⟩ := one 1 (if maps 0 then applyTarget 0 s else s)
  refine ⟨only.trans only', znm'.trans znm, fun m h => aims' m ?_⟩
  have fan : m = 0 ∨ m = 1 := by omega
  rcases h with mapped | aimed
  · rcases fan with e | e
    · exact .inr (aims m (.inl ⟨e, mapped⟩))
    · exact .inl ⟨e, mapped⟩
  · exact .inr (aims m (.inr aimed))

theorem handSevere_same {old : ZoneState} (same : (s.znm.zones.get z).state.severe = old.severe) :
    handSevere z old s = updateThermalClaim s := if_pos same

theorem handSevere_moved {old : ZoneState} (moved : (s.znm.zones.get z).state.severe ≠ old.severe) :
    handSevere z old s = liftFans (s.znm.zones.get z).maps
      (updateThermalClaim (handSeverity z (s.znm.zones.get z).state.severe s)) := if_neg moved

/-- A severity handed on: the thermal claim and the lines follow the zones, Allocator and fans a change of severity. -/
structure Severed (z : Fin 6) (old : ZoneState) (s t : State) : Prop where
  mdc : t.mdc = s.mdc
  zones : t.znm.zones = s.znm.zones
  claim : t.znm.thermalClaim = s.anyCritical
  lines : s.anyCritical ≠ s.znm.thermalClaim → ∀ k, ClampCause.thermal ∈ (t.clu.get k).causes ↔ s.anyCritical = true
  aimed : ∀ m, s.aimed m → t.aimed m
  lifted : (s.znm.zones.get z).state.severe ≠ old.severe → (∀ m, (s.znm.zones.get z).maps m = true → t.aimed m) ∧
    t.alc.budget.severities.get z = (s.znm.zones.get z).state.severe ∧
    (s.managed = true → t.alc.budget.effective = some t.formB)

theorem handSevere_severed (z : Fin 6) (old : ZoneState) (s : State) : Severed z old s (handSevere z old s) := by
  by_cases moved : (s.znm.zones.get z).state.severe = old.severe
  · rw [handSevere_same moved]
    obtain ⟨parts, fnc, -, claim⟩ := updateThermalClaim_parts s
    exact ⟨parts.mdc, parts.zones, claim, (updateThermalClaim_facts s).2.2, fun m h => parts.aimed (by rw [fnc]) h,
      fun ne => absurd moved ne⟩
  · rw [handSevere_moved moved]
    obtain ⟨u, hu⟩ : ∃ u, u = handSeverity z (s.znm.zones.get z).state.severe s := ⟨_, rfl⟩
    obtain ⟨-, severity, formed⟩ := handSeverity_facts z (s.znm.zones.get z).state.severe s
    obtain ⟨first, ufnc, uznm⟩ := handSeverity_parts z (s.znm.zones.get z).state.severe s
    rw [← hu] at severity formed first ufnc uznm ⊢
    obtain ⟨second, vfnc, valc, claim⟩ := updateThermalClaim_parts u
    obtain ⟨-, -, lines⟩ := updateThermalClaim_facts u
    obtain ⟨v, hv⟩ : ∃ v, v = updateThermalClaim u := ⟨_, rfl⟩
    have vformed : s.managed = true → v.alc.budget.effective = some v.formB := fun m => by
      rw [formB_congr (hv ▸ valc) (hv ▸ second.lst) (by rw [hv, second.plu]), hv, valc]
      exact formed m
    rw [← hv] at second vfnc valc claim lines ⊢
    obtain ⟨only, znm, aims⟩ := liftFans_facts (s.znm.zones.get z).maps v
    have parts := first.trans second
    refine ⟨only.mdc.trans parts.mdc, by rw [znm, parts.zones], by rw [znm, claim, first.anyCritical], fun ne k => ?_,
      fun m h => aims m (.inr (parts.aimed (by rw [vfnc, ufnc]) h)), fun _ => ⟨fun m mapped => aims m (.inl mapped), ?_, fun m => ?_⟩⟩
    · rw [only.clu, ← first.anyCritical]
      exact lines (by rwa [first.anyCritical, uznm]) k
    · rw [only.budget, valc]
      exact severity
    · exact (only.formed (vformed m)).resolve_right (by rw [parts.managed, m]; decide)

/-! ## The evaluation -/

/-- The state an evaluation gives a zone. -/
def State.judgement (s : State) (z : Fin 6) : ZoneState :=
  judge (s.active.zones.get z) s.active.hysteresis (s.znm.zones.get z).state (s.znm.zones.get z).temperature

/-- An evaluation wakes the part. -/
def State.wakesFor (s : State) (z : Fin 6) : Bool :=
  s.mdc.mode == .dozing && entersWarm (s.znm.zones.get z).state (s.judgement z)

/-- A zone in its new state. -/
def State.judged (s : State) (z : Fin 6) : State :=
  s.setZone z { s.znm.zones.get z with state := s.judgement z, woke := (s.znm.zones.get z).woke || s.wakesFor z }

/-- The new state told, and the part awake if the zone wakes it. -/
def State.judgedTold (s : State) (z : Fin 6) : State :=
  if s.wakesFor z then wakeUp (postZone z (s.judged z)) else postZone z (s.judged z)

theorem evaluateZone_off (h : s.managed = false ∨ (s.znm.zones.get z).enabled = false) : evaluateZone z s = s :=
  if_pos (by rcases h with h | h <;> simp [h])

section
variable (managed : s.managed = true) (enabled : (s.znm.zones.get z).enabled = true)
include managed enabled

theorem evaluateZone_still (still : s.judgement z = (s.znm.zones.get z).state) : evaluateZone z s = handDemands z s := by
  unfold evaluateZone
  dsimp only
  rw [if_neg (by simp [managed, enabled])]
  exact if_pos still

theorem evaluateZone_moves (moves : s.judgement z ≠ (s.znm.zones.get z).state) :
    evaluateZone z s = handDemands z (handSevere z (s.znm.zones.get z).state (s.judgedTold z)) := by
  unfold evaluateZone
  dsimp only
  rw [if_neg (by simp [managed, enabled])]
  exact if_neg moves

end

theorem judged_get (y : Fin 6) : (s.judged z).znm.zones.get y = if z = y then
    { s.znm.zones.get y with state := s.judgement y, woke := (s.znm.zones.get y).woke || s.wakesFor y }
    else s.znm.zones.get y := by
  rw [State.judged, State.setZone, State.withZnm, get_set]
  split
  · next e => rw [e]
  · rfl

theorem aimed_judged (kept : (s.znm.zones.get z).maps m = true → (s.judgement z).severe = (s.znm.zones.get z).state.severe)
    (h : s.aimed m) : (s.judged z).aimed m := by
  have target : (s.judged z).targetOf m = s.targetOf m := by
    refine targetOf_congr rfl Iff.rfl rfl (fun y => ?_) (fun y mapped => ?_) (fun y _ => ?_) rfl <;> rw [judged_get]
    · split <;> rfl
    · split
      · next e =>
        subst e
        exact kept mapped
      · rfl
    · split <;> rfl
  intro on
  rw [target]
  exact h on

theorem judged_follows (kept : (s.znm.zones.get z).maps m = true → (s.judgement z).severe = (s.znm.zones.get z).state.severe) :
    Follows z m s (s.judged z) := by
  rintro (aimed | moved)
  · exact aimed_judged kept aimed
  · refine absurd ?_ moved
    rw [judged_get, if_pos rfl]

theorem judgedTold_follows : Follows z m (s.judged z) (s.judgedTold z) := by
  unfold State.judgedTold
  split
  · exact .ofAimed (wakeUp_aims _ m)
  · exact .same rfl rfl rfl rfl rfl

theorem Severed.follows {old : ZoneState} (h : Severed z old s t) : Follows z m s t := by
  rintro (aimed | moved)
  · exact h.aimed m aimed
  · exact absurd (by rw [h.zones]) moved

theorem wakesFor_dozing (h : s.wakesFor z = true) : s.mdc.mode = .dozing := by
  rw [State.wakesFor, Bool.and_eq_true, beq_iff_eq] at h
  exact h.1

/-- From the notice on no zone is evaluated any more. -/
theorem judgedTold_hands : Hands (fun _ => False) (postZone z (s.judged z)) (s.judgedTold z) := by
  unfold State.judgedTold
  split
  · next wakes =>
    have dozing := wakesFor_dozing wakes
    exact (Hands.refl _).wakeUp dozing
  · exact .refl _

theorem wakeUp_znm (s : State) : (wakeUp s).znm.thermalClaim = s.znm.thermalClaim := by
  have fans : OnlyFans s.awake (wakeUp s) := .reformDemands _
  rw [fans.rest, State.awake_eq]

theorem judgedTold_claim : (s.judgedTold z).znm.thermalClaim = s.znm.thermalClaim := by
  unfold State.judgedTold
  split
  · exact wakeUp_znm _
  · rfl

theorem judgedTold_mode : (s.judgedTold z).mdc.mode = if s.wakesFor z then .running else s.mdc.mode := by
  unfold State.judgedTold
  split
  · rw [(wakeUp_moved _).mdc]
  · rfl

/-- A zone of a part in RUNNING or DOZING after its evaluation, and what follows it. -/
structure Evaluated (z : Fin 6) (s t : State) : Prop where
  handed : Handed (· = z) s t
  state : (t.znm.zones.get z).state = s.judgement z
  woke : (t.znm.zones.get z).woke = ((s.znm.zones.get z).woke || s.wakesFor z)
  mode : t.mdc.mode = if s.wakesFor z then .running else s.mdc.mode
  told : s.judgement z ≠ (s.znm.zones.get z).state → ∃ n, n = Notice.zone z (t.znm.zones.get z).state
    (t.znm.zones.get z).temperature (t.znm.zones.get z).r (t.znm.zones.get z).woke ∧
    (n ∈ t.slk.notices ∨ t.slk.dropped = true) ∧ ∀ k ∈ t.slk.notices, k.kind = 0x44 → k ∈ s.slk.notices ∨ k = n
  silent : s.judgement z = (s.znm.zones.get z).state → ∀ k ∈ t.slk.notices, k.kind = 0x44 → k ∈ s.slk.notices
  claim : s.znm.thermalClaim = s.anyCritical → t.znm.thermalClaim = t.anyCritical
  lines : t.znm.thermalClaim ≠ s.znm.thermalClaim →
    ∀ k, ClampCause.thermal ∈ (t.clu.get k).causes ↔ t.znm.thermalClaim = true
  severity : (s.judgement z).severe ≠ (s.znm.zones.get z).state.severe →
    t.alc.budget.severities.get z = (s.judgement z).severe ∧ t.alc.budget.effective = some t.formB ∧
    ∀ m, (s.znm.zones.get z).maps m = true → t.aimed m
  follows : ∀ m, Follows z m s t
  demand : ∀ m, (s.znm.zones.get z).maps m = true → (t.znm.zones.get z).demand.get m = some (t.demandOf z m)

theorem anyCritical_congr (h : ∀ z, (t.znm.zones.get z).state = (s.znm.zones.get z).state) : t.anyCritical = s.anyCritical := by
  simp only [State.anyCritical, h]

theorem Handed.anyCritical (h : Handed (fun _ => False) s t) : t.anyCritical = s.anyCritical :=
  anyCritical_congr fun z => (h.others z id).1

theorem evaluateZone_handed (z : Fin 6) (s : State) : Handed (· = z) s (evaluateZone z s) :=
  .ofHands ((Hands.refl s).evaluateZone rfl)

section
variable (managed : s.managed = true) (enabled : (s.znm.zones.get z).enabled = true)
include managed enabled

/-- The zone keeps its state. -/
theorem evaluated_still (still : s.judgement z = (s.znm.zones.get z).state) : Evaluated z s (evaluateZone z s) := by
  have handed := evaluateZone_handed z s
  have asleep : s.wakesFor z = false := by
    rw [State.wakesFor, still]
    cases (s.znm.zones.get z).state <;> simp [entersWarm, ZoneState.level]
  rw [evaluateZone_still managed enabled still] at handed ⊢
  have kept : Handed (fun _ => False) s (handDemands z s) := .ofHands ((Hands.refl s).handDemands z)
  have fans : OnlyFans s (handDemands z s) := .handDemands z s
  have claim : (handDemands z s).znm.thermalClaim = s.znm.thermalClaim := by rw [fans.rest]
  obtain ⟨state, woke⟩ := kept.others z id
  refine ⟨handed, by rw [state, still], by rw [woke, asleep, Bool.or_false], by rw [asleep, fans.mdc]; rfl, fun moves => absurd still moves, fun _ k hk zone => ?_,
    fun h => by rw [claim, kept.anyCritical, h], fun ne => absurd claim ne, fun ne => absurd (by rw [still]) ne,
    fun m => handDemands_follows z m s, fun m mapped => handDemands_demand mapped⟩
  exact ((kept.quiet fun _ => id).notices k (by simp [zone])).mp hk

/-- The zone takes another state. -/
theorem evaluated_moves (moves : s.judgement z ≠ (s.znm.zones.get z).state) : Evaluated z s (evaluateZone z s) := by
  have handed := evaluateZone_handed z s
  rw [evaluateZone_moves managed enabled moves] at handed ⊢
  have severed := handSevere_severed z (s.znm.zones.get z).state (s.judgedTold z)
  have toldHands : Hands (fun _ => False) (postZone z (s.judged z)) (s.judgedTold z) := judgedTold_hands
  have severeHands := toldHands.handSevere z (s.znm.zones.get z).state
  have hands := severeHands.handDemands z
  obtain ⟨u, hu⟩ : ∃ u, u = handSevere z (s.znm.zones.get z).state (s.judgedTold z) := ⟨_, rfl⟩
  rw [← hu] at severed severeHands hands handed ⊢
  obtain ⟨t, ht⟩ : ∃ t, t = handDemands z u := ⟨_, rfl⟩
  have demands := handDemands_follows z
  have fans : OnlyFans u t := ht ▸ .handDemands z u
  have kept : Handed (fun _ => False) (postZone z (s.judged z)) t := ht ▸ .ofHands hands
  have told : Handed (fun _ => False) (postZone z (s.judged z)) (s.judgedTold z) := .ofHands toldHands
  have zone : t.znm.zones.get z = { (s.judged z).znm.zones.get z with demand := (t.znm.zones.get z).demand } := kept.zone id
  have before : (s.judgedTold z).znm.zones.get z =
      { (s.judged z).znm.zones.get z with demand := ((s.judgedTold z).znm.zones.get z).demand } := told.zone id
  rw [judged_get, if_pos rfl] at zone before
  have state : ((s.judgedTold z).znm.zones.get z).state = s.judgement z := by rw [before]
  have claim : t.znm.thermalClaim = t.anyCritical := by
    have same : t.anyCritical = (s.judgedTold z).anyCritical := kept.anyCritical.trans told.anyCritical.symm
    rw [same, ← severed.claim, fans.rest]
  have maps : ∀ m, ((s.judgedTold z).znm.zones.get z).maps m = (s.znm.zones.get z).maps m := fun m => by
    rw [before]
    rfl
  have umanaged : (s.judgedTold z).managed = true := by
    rw [told.managed]
    exact managed
  rw [← ht] at handed ⊢
  refine ⟨handed, by rw [zone], by rw [zone], ?_, fun _ => ⟨_, rfl, ?_, fun k hk isZone => ?_⟩, fun same => absurd same moves,
    fun _ => claim, fun ne k => ?_, fun ne => ?_, fun m => ?_, fun m mapped => ?_⟩
  · rw [fans.mdc, severed.mdc, judgedTold_mode]
  · have posted := post_waits (Notice.zone z (s.judgement z) (s.znm.zones.get z).temperature (s.znm.zones.get z).r
      ((s.znm.zones.get z).woke || s.wakesFor z)) (s.judged z)
    rw [zone]
    refine (kept.quiet fun _ => id).waits (by simp [Notice.kind]) ?_
    rw [postZone, judged_get, if_pos rfl]
    exact posted
  · have early := ((kept.quiet fun _ => id).notices k (by simp [isZone])).mp hk
    rw [postZone, judged_get, if_pos rfl] at early
    rw [zone]
    exact (mem_of_mem_post early).symm
  · rw [fans.clu, severed.lines ?_ k, claim, kept.anyCritical, told.anyCritical]
    rw [judgedTold_claim, told.anyCritical, ← kept.anyCritical, ← claim]
    exact ne
  · obtain ⟨lifted, severities, formed⟩ := severed.lifted (by rwa [state])
    refine ⟨by rw [fans.budget, severities, state], (fans.formed (formed umanaged)).resolve_right ?_, fun m mapped => ?_⟩
    · rw [(Handed.ofHands severeHands).managed]
      simp [show (postZone z (s.judged z)).managed = true from managed]
    · rw [ht]
      exact demands m u (.inl (lifted m ((maps m).trans mapped)))
  · rw [ht]
    refine Follows.trans ?_ (demands m u)
    by_cases free : (s.znm.zones.get z).maps m = true → (s.judgement z).severe = (s.znm.zones.get z).state.severe
    · exact ((judged_follows free).trans judgedTold_follows).trans severed.follows
    · rw [not_forall] at free
      obtain ⟨mapped, ne⟩ := free
      exact .ofAimed ((severed.lifted (by rwa [state])).1 m ((maps m).trans mapped))
  · rw [ht]
    refine handDemands_demand ?_
    rw [severed.zones, maps]
    exact mapped

theorem evaluateZone_evaluated : Evaluated z s (evaluateZone z s) := by
  by_cases still : s.judgement z = (s.znm.zones.get z).state
  · exact evaluated_still managed enabled still
  · exact evaluated_moves managed enabled still

end

/-- An evaluation keeps every target up to date. -/
theorem evaluateZone_aims (z : Fin 6) (h : s.aimed m) : (evaluateZone z s).aimed m := by
  by_cases off : s.managed = false ∨ (s.znm.zones.get z).enabled = false
  · rwa [evaluateZone_off off]
  · rw [not_or, Bool.not_eq_false, Bool.not_eq_false] at off
    exact (evaluateZone_evaluated off.1 off.2).follows m (.inl h)

end Sys2Proof.Machine

/-! PROOFS. Feeds and stale zones (R84, R85, R93, R160). -/

namespace Sys2Proof.Machine

/-! ## Demand and target in the words of the manual -/

theorem demandFor_some {t : Thresholds} {c f : Nat} {v : Int} (ordered : t.soft < t.hard) (le : f ≤ c) :
    demandFor t c f (some v) = if v ≤ t.soft - 80 then f else if t.hard ≤ v then c
      else f + (c - f) * (v - (t.soft - 80)).toNat / (t.hard - (t.soft - 80)).toNat := by
  show (if v ≤ t.soft - 80 then f else if t.hard ≤ v then c
    else ((f : Int) + ((c : Int) - f) * (v - (t.soft - 80)) / (t.hard - (t.soft - 80))).toNat) = _
  split
  · rfl
  · next above =>
    split
    · rfl
    · obtain ⟨a, ha⟩ : ∃ a : Nat, v - (t.soft - 80) = a := ⟨(v - (t.soft - 80)).toNat, by omega⟩
      obtain ⟨b, hb⟩ : ∃ b : Nat, t.hard - (t.soft - 80) = b := ⟨(t.hard - (t.soft - 80)).toNat, by omega⟩
      rw [ha, hb, ← Nat.cast_sub le]
      norm_cast

theorem heldTarget_eq (f : Fan) (x : Nat) : f.heldTarget x = if 0 < x ∧ x < f.minDuty then f.minDuty else x := by
  rw [Fan.heldTarget]
  split <;> split <;> omega

/-! ## What an evaluation gives a fed zone -/

section
variable {s u t : State} {z : Fin 6} {v : Option Int} {l f : Option Nat}

theorem evaluated_fed (enabled : (s.znm.zones.get z).enabled = true) (mode : u.mdc.mode = s.mdc.mode) (active : u.active = s.active)
    (zones : u.znm = { s.znm with zones := s.znm.zones.set z { s.znm.zones.get z with
      temperature := v, lastFeed := l, feedTimer := f } })
    (fans : u.fnc = s.fnc) (notices : ∀ n ∈ u.slk.notices, n.kind = 0x44 → n ∈ s.slk.notices) (h : Evaluated z u t) :
    let r := s.znm.zones.get z
    let severe := fun x : ZoneState => x = .hot ∨ x = .critical ∨ x = .faulted
    let new := t.znm.zones.get z
    let enters : Prop := 0 < new.state.level ∧ (r.state = .faulted ∨ r.state.level < new.state.level)
    let wakes : Prop := s.mdc.mode = .dozing ∧ enters
    new.state = judge (s.active.zones.get z) s.active.hysteresis r.state v ∧ new.temperature = v ∧ new.r = r.r ∧
    (wakes → t.mdc.mode = .running ∧ new.woke = true) ∧ (¬wakes → t.mdc.mode = s.mdc.mode ∧ new.woke = r.woke) ∧
    (∀ y, y ≠ z → (t.znm.zones.get y).state = (s.znm.zones.get y).state) ∧
    (new.state ≠ r.state → Notice.zone z new.state v new.r new.woke ∈ t.slk.notices ∨ t.slk.dropped = true) ∧
    (∀ n ∈ t.slk.notices, n.kind = 0x44 → n ∈ s.slk.notices ∨
      (new.state ≠ r.state ∧ n = .zone z new.state v new.r new.woke)) ∧
    ((s.znm.thermalClaim = true ↔ ∃ y, (s.znm.zones.get y).state = .critical) →
      (t.znm.thermalClaim = true ↔ ∃ y, (t.znm.zones.get y).state = .critical) ∧
      (t.znm.thermalClaim ≠ s.znm.thermalClaim →
        ∀ k, ClampCause.thermal ∈ (t.clu.get k).causes ↔ t.znm.thermalClaim = true)) ∧
    (¬(severe new.state ↔ severe r.state) → (t.alc.budget.severities.get z = true ↔ severe new.state) ∧
      t.alc.budget.effective = some t.formB) ∧
    ∀ m, m ∈ r.fanMap →
      new.demand.get m = some (t.demandOf z m) ∧
      ((s.fnc.fans.get m).enabled = true → (new.demand.get m ≠ r.demand.get m ∨ ¬(severe new.state ↔ severe r.state)) →
        (t.fnc.fans.get m).target = t.targetOf m) := by
  intro r severe new enters wakes
  have zone : ∀ y, u.znm.zones.get y = if z = y then
      { s.znm.zones.get y with temperature := v, lastFeed := l, feedTimer := f } else s.znm.zones.get y := fun y => by
    rw [zones, get_set]
    split
    · next e => rw [e]
    · rfl
  have own : u.znm.zones.get z = { r with temperature := v, lastFeed := l, feedTimer := f } := (zone z).trans (if_pos rfl)
  have states : ∀ y, (u.znm.zones.get y).state = (s.znm.zones.get y).state := fun y => by
    rw [zone]
    split <;> rfl
  have judgement : u.judgement z = judge (s.active.zones.get z) s.active.hysteresis r.state v := by
    rw [State.judgement, active, own]
  have state : new.state = u.judgement z := h.state
  have temperature : new.temperature = v := by
    rw [show new = _ from h.handed.zones z, own]
  have wakesFor : u.wakesFor z = true ↔ wakes := by
    rw [State.wakesFor, mode, own, ← state]
    simp [wakes, enters, entersWarm]
  have severe_iff : ∀ x : ZoneState, severe x ↔ x.severe = true := fun x => by
    rw [ZoneState.severe_eq]
    simp [severe, or_assoc]
  have moved : ¬(severe new.state ↔ severe r.state) ↔ (u.judgement z).severe ≠ (u.znm.zones.get z).state.severe := by
    rw [severe_iff, severe_iff, state, states, ← Bool.eq_iff_iff]
  have same_r : new.r = r.r := by rw [show new = _ from h.handed.zones z, own]
  refine ⟨state.trans judgement, temperature, same_r, fun w => ?_, fun w => ?_, fun y ne => ?_, fun ne => ?_, fun n hn zone => ?_,
    fun claimed => ⟨?_, fun ne => ?_⟩, fun ne => ?_, fun m hm => ⟨?_, fun on change => ?_⟩⟩
  · rw [← wakesFor] at w
    refine ⟨by rw [h.mode, w]; rfl, ?_⟩
    rw [show new.woke = _ from h.woke, w, Bool.or_true]
  · rw [← wakesFor, Bool.not_eq_true] at w
    refine ⟨by rw [h.mode, w]; exact mode, ?_⟩
    rw [show new.woke = _ from h.woke, w, Bool.or_false, own]
  · rw [(h.handed.others y ne).1, states]
  · rw [state, ← states z] at ne
    obtain ⟨n, e, waits, -⟩ := h.told ne
    rw [← temperature]
    exact e ▸ waits
  · by_cases ne : u.judgement z = (u.znm.zones.get z).state
    · exact .inl (notices n (h.silent ne n hn zone) zone)
    · obtain ⟨k, e, -, only⟩ := h.told ne
      rcases only n hn zone with old | rfl
      · exact .inl (notices n old zone)
      · refine .inr ⟨by rwa [state, ← states z], ?_⟩
        rw [e, ← temperature]
  · rw [h.claim, anyCritical_iff]
    rw [Bool.eq_iff_iff, anyCritical_iff, zones]
    simp only [← states] at claimed
    rw [claimed, zones]
  · exact h.lines (by rwa [zones])
  · obtain ⟨severities, formed, -⟩ := h.severity (moved.mp ne)
    rw [severities, severe_iff, state]
    exact ⟨Iff.rfl, formed⟩
  · exact h.demand m (by rw [own]; simp [Zone.maps, enabled, hm, r])
  · have on' : (t.fnc.fans.get m).enabled = true := by rw [(h.handed.fans m).1, fans, on]
    refine (?_ : t.aimed m) on'
    rcases change with demand | change
    · exact h.follows m (.inr (by rw [own]; exact demand))
    · exact (h.severity (moved.mp change)).2.2 m (by rw [own]; simp [Zone.maps, enabled, hm, r])

end

/-! ## ZONE_FEED and FEED_TIMER_EXPIRY -/

/-- An evaluation leaves no scan to complete: the part was not asleep, or no measurement scan waits. -/
theorem finishNew_evaluated {s u : State} {z : Fin 6} (msu : u.msu = s.msu) (mode : u.mdc.mode = s.mdc.mode)
    (alone : s.mdc.mode = .running ∨ s.msu.pendingMeas = false) :
    finishNew s (evaluateZone z u) = evaluateZone z u := by
  rcases (Units.evaluateZone z u).units with ⟨-, same, -⟩ | woken
  · exact finishNew_of_same (scanSpent_congr (same.trans msu))
  · have still : s.msu.pendingMeas = false := alone.resolve_left (by rw [← mode, woken.dozing]; nofun)
    exact finishNew_stopped still (msu ▸ woken.msu)

section
variable {s : State} {z : Fin 6} {v : Option Int}

theorem zoneFeed_noSuch {n : Nat} (big : 6 ≤ n) : zoneFeed n v s = (s, .only .noSuch) := by
  rw [zoneFeed, index?_none big]
  rfl

theorem zoneFeed_conflict (h : (s.znm.zones.get z).enabled = false ∨ (s.znm.zones.get z).source = .channels) :
    zoneFeed z v s = (s, .only .conflict) := by
  rw [zoneFeed, index?_val]
  exact if_pos (by rcases h with h | h <;> simp [h])

variable (enabled : (s.znm.zones.get z).enabled = true) (source : (s.znm.zones.get z).source = .fed)
include enabled source

theorem zoneFeed_badField (bad : ¬∀ x, v = some x → -400 ≤ x ∧ x ≤ 1500) : zoneFeed z v s = (s, .only .badField) := by
  rw [zoneFeed, index?_val]
  refine (if_neg (by rw [enabled, source]; decide)).trans (if_pos ?_)
  cases v with
  | none => exact absurd nofun bad
  | some x =>
    simp only [Option.some.injEq, forall_eq'] at bad
    simp only [Option.any_some, Bool.or_eq_true, decide_eq_true_eq]
    omega

theorem zoneFeed_fed (good : ∀ x, v = some x → -400 ≤ x ∧ x ≤ 1500) :
    zoneFeed z v s = (evaluateZone z (s.setZone z ((s.znm.zones.get z).feed v s.now)), .only .ok) := by
  rw [zoneFeed, index?_val]
  refine (if_neg (by rw [enabled, source]; decide)).trans (if_neg ?_)
  cases v with
  | none => decide
  | some x =>
    have := good x rfl
    simp only [Option.any_some, Bool.or_eq_true, decide_eq_true_eq]
    omega

end

theorem Zone.feed_eq (v : Option Int) (now : Nat) (r : Zone) : r.feed v now = { r with
    temperature := v, lastFeed := some now, feedTimer := if v = none then none else some (now + 2000000) } := by
  cases v <;> rfl

/-- The part does not wake for a zone that becomes FAULTED. -/
theorem wakesFor_faulted {s : State} {z : Fin 6} (h : s.judgement z = .faulted) : s.wakesFor z = false := by
  simp [State.wakesFor, h, entersWarm, ZoneState.level]

theorem evaluateZone_plu (z : Fin 6) (s : State) : (evaluateZone z s).plu = s.plu := (evaluateZone_handed z s).plu

theorem finishing_eq {owner : State → State × Answer} {s u : State} {a : Answer} (h : owner s = (u, a)) :
    finishing owner s = (finishNew s u, a) := by rw [finishing, h]

/-- A zone without a temperature is evaluated without a change between DOZING and RUNNING. -/
theorem evaluateZone_stale {z : Fin 6} {u : State} (none : (u.znm.zones.get z).temperature = none) :
    (evaluateZone z u).mdc = u.mdc ∧ (evaluateZone z u).msu = u.msu := by
  rcases (Units.evaluateZone z u).units with ⟨mdc, msu, -⟩ | woken
  · exact ⟨mdc, msu⟩
  · by_cases off : u.managed = false ∨ (u.znm.zones.get z).enabled = false
    · rw [evaluateZone_off off]
      exact ⟨rfl, rfl⟩
    · rw [not_or, Bool.not_eq_false, Bool.not_eq_false] at off
      have mode := (evaluateZone_evaluated off.1 off.2).mode
      have faulted : u.judgement z = .faulted := by rw [State.judgement, none]; rfl
      rw [wakesFor_faulted faulted, woken.mdc, woken.dozing] at mode
      cases mode

/-- The raw target in the words of R160. -/
theorem rawTarget_eq (s : State) (m : Fin 2) : s.rawTarget m =
    (let mapped := (([0, 1, 2, 3, 4, 5] : List (Fin 6)).map s.znm.zones.get).filter fun y => y.enabled && y.fanMap.contains m
    let floor := if s.mdc.mode = .running then (s.active.fans.get m).floor else 0
    if s.managed = false then 60
    else if mapped.any fun y => y.state == .hot || y.state == .critical || y.state == .faulted then 100
    else match (mapped.filterMap (·.demand.get m)).max? with
      | none => floor
      | some d => min (s.active.fans.get m).ceiling (max floor d)) := by
  unfold State.rawTarget
  rw [highestDemand_eq]
  cases s.managed with
  | false => rfl
  | true =>
    simp only [State.lifted, ZoneState.severe_eq]
    rfl

/-- A zone gone stale, before its evaluation. -/
def State.gone (s : State) (z : Fin 6) : State :=
  detect .zoneStale z (s.setZone z { s.znm.zones.get z with temperature := none, feedTimer := none })

theorem gone_facts (s : State) (z : Fin 6) : ∃ mdc slk, s.gone z = { s with
      znm := { s.znm with zones := s.znm.zones.set z { s.znm.zones.get z with temperature := none, feedTimer := none } }
      mdc := mdc, slk := slk } ∧ mdc.mode = s.mdc.mode ∧
    mdc.faults.get 2 = { s.mdc.faults.get 2 with detected := true, subject := some z.val } ∧
    ∀ n ∈ slk.notices, n.kind = 0x44 → n ∈ s.slk.notices := by
  obtain ⟨only, -⟩ := detect_only .zoneStale z (s.setZone z { s.znm.zones.get z with temperature := none, feedTimer := none })
  obtain ⟨faults, hf⟩ : ∃ faults, faults = (s.mdc.faults.set FaultKind.zoneStale.index
    { s.mdc.faults.get FaultKind.zoneStale.index with detected := true, subject := some z.val }) := ⟨_, rfl⟩
  refine ⟨{ s.mdc with faults := faults }, { s.slk with notices := (s.gone z).slk.notices, dropped := (s.gone z).slk.dropped },
    ?_, rfl, ?_, fun n hn zone => ?_⟩
  · rw [State.noticesOnly] at only
    rw [hf]
    exact only
  · rw [hf]
    exact (get_set ..).trans (if_pos rfl)
  · change n ∈ (s.gone z).slk.notices at hn
    unfold State.gone detect at hn
    dsimp only at hn
    split at hn
    · rcases mem_of_mem_post hn with e | old
      · rw [e] at zone
        exact absurd zone (by simp [Notice.kind])
      · exact old
    · exact hn

/-- Settles O40: the feed's checks in their order, and the evaluation's stages. -/
theorem feedsSetTheTemperature : Obligations.FeedsSetTheTemperature := by
  unfold Obligations.FeedsSetTheTemperature
  refine ⟨fun s z m => ⟨fun ordered le => ?_, ?_⟩, fun dt tag z temperature n e s => ?_⟩
  · show demandFor (s.active.zones.get z) (s.active.fans.get m).ceiling (s.fanFloor m) (s.znm.zones.get z).temperature = _
    cases (s.znm.zones.get z).temperature with
    | none => rfl
    | some v => exact demandFor_some ordered le
  · exact (congrArg (s.fnc.fans.get m).heldTarget (rawTarget_eq s m)).trans (heldTarget_eq ..)
  · intro r now good refused fed stale severe evaluated alone
    have answer : ∀ {k : Nat} {st : Status}, s.takes → zoneFeed k temperature (s.elapse dt) = (s.elapse dt, .only st) →
        refused k st := fun takes h =>
      owner_answers takes ((finishing_eq h).trans (by rw [finishNew_of_same rfl]; rfl))
    refine ⟨fun takes big => answer takes (zoneFeed_noSuch big), fun takes h => answer takes (zoneFeed_conflict h),
      fun takes on source bad => answer takes (zoneFeed_badField on source bad), fun takes on source ok => ?_, fun timer => ?_⟩
    · have accepted := finishing_eq (zoneFeed_fed (s := s.elapse dt) (z := z) on source ok)
      have stored : (s.elapse dt).setZone z (((s.elapse dt).znm.zones.get z).feed temperature (s.elapse dt).now) = fed := by
        rw [Zone.feed_eq]
        rfl
      rw [stored] at accepted
      have same : alone → finishNew (s.elapse dt) (evaluateZone z fed) = evaluateZone z fed :=
        finishNew_evaluated (s := s.elapse dt) (u := fed) rfl rfl
      refine ⟨_, owner_answers takes accepted, fun open_ => ?_, fun managed able => ?_, fun running => ?_⟩
      · exact (congrArg (finishNew (s.elapse dt)) (evaluateZone_off (s := fed) (.inl open_))).trans (finishNew_of_same rfl)
      · rw [same able]
        have done : Evaluated z fed (evaluateZone z fed) := evaluateZone_evaluated managed (by simp [fed, get_set, r, on])
        exact evaluated_fed (s := s) (u := fed) on rfl rfl rfl rfl (fun n hn _ => hn) done
      · rw [same (.inl running)]
        rcases (Units.evaluateZone z fed).units with ⟨-, msu, csu⟩ | woken
        · exact ⟨msu, evaluateZone_plu z fed, csu⟩
        · exact absurd (woken.dozing.symm.trans running) nofun
    · obtain ⟨mdc, slk, gone, mode, fault, notices⟩ := gone_facts (s.reach e) z
      have none : (((s.reach e).gone z).znm.zones.get z).temperature = none := by simp [gone, get_set]
      obtain ⟨same_mdc, same_msu⟩ := evaluateZone_stale none
      have ran : exec (.feedTimerExpiry z) s = .next (evaluateZone z ((s.reach e).gone z)) := by
        show Host.Outcome.next (atExpiry (s.znm.zones.get z).feedTimer (staleZone z) s) = _
        rw [show (s.znm.zones.get z).feedTimer = some e from timer]
        refine congrArg Host.Outcome.next (finishNew_of_same (scanSpent_congr (same_msu.trans ?_)))
        rw [gone]
      refine ⟨_, ran, fun open_ => evaluateZone_off (.inl ?_), ?_, fun managed on => ?_⟩
      · rw [State.managed, gone, mode]
        exact open_
      · rw [same_mdc, gone]
        exact fault
      · have done : Evaluated z ((s.reach e).gone z) (evaluateZone z ((s.reach e).gone z)) := by
          refine evaluateZone_evaluated ?_ ?_
          · rw [State.managed, gone, mode]
            exact managed
          · rw [gone]
            exact (congrArg Zone.enabled ((get_set ..).trans (if_pos rfl))).trans on
        refine ⟨evaluated_fed (s := s) (l := r.lastFeed) (f := Option.none) on ?_ ?_ ?_ ?_ ?_ done, ?_⟩
        · rw [gone]; exact mode
        · rw [gone]; rfl
        · rw [gone]; rfl
        · rw [gone]; rfl
        · rw [gone]; exact notices
        · rw [done.state, State.judgement, none]
          rfl

end Sys2Proof.Machine

/-! PROOFS. A new active set taken up by its consumers (R12, R13, R14, R86, R111, R114, R120, R160). -/

namespace Sys2Proof.Machine

variable {s t u : State}

/-! ## What one agent makes and no other undoes -/

/-- What one agent makes of what the others keep, and every other agent then keeps, holds at the end, whatever the order. -/
theorem inFreeOrder_once {P Q : State → Prop} {n k : Nat} {agent : Nat → State → State} {s : State} (hk : k < n)
    (start : P s.takeChoice) (keep : ∀ i t, i ≠ k → P t → P (agent i t)) (make : ∀ t, P t → Q (agent k t))
    (hold : ∀ i t, i ≠ k → Q t → Q (agent i t)) : Q (inFreeOrder n agent s) := by
  have done : ∀ (l : List Nat) (t : State), k ∉ l → Q t → Q (l.foldl (fun u a => agent a u) t) := by
    intro l
    induction l with
    | nil => exact fun _ _ h => h
    | cons a l ih =>
      intro t out h
      rw [List.mem_cons, not_or] at out
      exact ih _ out.2 (hold a t (Ne.symm out.1) h)
  have run : ∀ (l : List Nat) (t : State), l.Nodup → k ∈ l → P t → Q (l.foldl (fun u a => agent a u) t) := by
    intro l
    induction l with
    | nil => exact fun _ _ out => absurd out List.not_mem_nil
    | cons a l ih =>
      intro t once mem h
      rw [List.nodup_cons] at once
      by_cases own : a = k
      · subst own
        exact done l _ once.1 (make t h)
      · exact ih _ once.2 ((List.mem_cons.mp mem).resolve_left (Ne.symm own)) (keep a t own h)
  exact run _ _ (nodup_orderOf ..) (mem_orderOf.mpr hk) start

/-! ## Effective ceilings -/

/-- Every declared domain has the effective ceiling that is formed now. -/
def State.ceiled (s : State) : Prop := ∀ i d, s.alc.domains.get i = some d → d.effCeiling = some (s.ceilingOf d)

theorem ceilingOf_congr (adapter : t.alc.budget.adapterPresent = s.alc.budget.adapterPresent) (active : t.active = s.active)
    (d : Domain) : t.ceilingOf d = s.ceilingOf d := by
  rw [State.ceilingOf, State.ceilingOf, adapter, active]

theorem ceiled_of_bases (bases : ∀ i, (t.alc.domains.get i).map Domain.base = (s.alc.domains.get i).map Domain.base)
    (adapter : t.alc.budget.adapterPresent = s.alc.budget.adapterPresent) (active : t.active = s.active) (h : s.ceiled) :
    t.ceiled := by
  intro i d slot
  have same := bases i
  rw [slot] at same
  cases before : s.alc.domains.get i with
  | none => simp [before] at same
  | some e =>
    rw [before, Option.map_some, Option.map_some, Option.some.injEq] at same
    have ceiling : s.ceilingOf d = s.ceilingOf e := by
      change s.ceilingOf d.base = s.ceilingOf e.base
      rw [same]
    have formed : d.effCeiling = e.effCeiling := by
      change d.base.effCeiling = e.base.effCeiling
      rw [same]
    rw [ceilingOf_congr adapter active, ceiling, formed]
    exact h i e before

theorem adjustReservation_domains (i : Fin 6) (s : State) : (adjustReservation i s).alc.domains = s.alc.domains := by
  unfold adjustReservation
  split
  · split
    · rfl
    · split <;> rfl
  · rfl

theorem reformCeiling_get (i j : Fin 6) (s : State) : (reformCeiling i s).alc.domains.get j = if i = j then
    (s.alc.domains.get j).map fun d => { d with effCeiling := some (s.ceilingOf d) } else s.alc.domains.get j := by
  unfold reformCeiling
  split
  · next empty =>
    split
    · next e =>
      subst e
      rw [empty]
      rfl
    · rfl
  · next d slot =>
    dsimp only
    split
    · next formed =>
      split
      · next e =>
        subst e
        rw [slot, Option.map_some, ← formed]
      · rfl
    · have stored : ∀ v : State, v.alc.domains = (s.setDomain i (some { d with effCeiling := some (s.ceilingOf d) })).alc.domains →
          v.alc.domains.get j = if i = j then (s.alc.domains.get j).map fun d => { d with effCeiling := some (s.ceilingOf d) }
            else s.alc.domains.get j := fun v hv => by
        rw [hv, State.setDomain_alc, get_set]
        split
        · next e =>
          subst e
          rw [slot]
          rfl
        · rfl
      refine stored _ ?_
      split
      · rw [postGrant_alc, syncQueue_domains, adjustReservation_domains]
      · rw [syncQueue_domains, adjustReservation_domains]

theorem Grants.active (h : Grants s t) : t.active = s.active := by
  have only := h.only
  rw [State.grantsOnly] at only
  rw [only]
  rfl

theorem Grants.adapter (h : Grants s t) : t.alc.budget.adapterPresent = s.alc.budget.adapterPresent := by
  rw [h.budget]

theorem reformCeilings_ceiled (s : State) : (reformCeilings s).ceiled := by
  have formed : ∀ (l : List (Fin 6)) (t : State), Grants s t → ∀ i d,
      (l.foldl (fun u i => reformCeiling i u) t).alc.domains.get i = some d →
      (i ∈ l ∨ ∀ d, t.alc.domains.get i = some d → d.effCeiling = some (s.ceilingOf d)) →
      d.effCeiling = some (s.ceilingOf d) := by
    intro l
    induction l with
    | nil => exact fun t _ i d slot h => h.elim (fun h => absurd h List.not_mem_nil) fun h => h d slot
    | cons a l ih =>
      intro t grants i d slot h
      refine ih (reformCeiling a t) (grants.reformCeiling a) i d slot ?_
      by_cases own : a = i
      · refine .inr fun e he => ?_
        rw [reformCeiling_get, if_pos own, Option.map_eq_some_iff] at he
        obtain ⟨d, -, rfl⟩ := he
        exact congrArg some (ceilingOf_congr grants.adapter grants.active d)
      · refine h.imp (fun mem => (List.mem_cons.mp mem).resolve_left (Ne.symm own)) fun old e he => ?_
        rw [reformCeiling_get, if_neg own] at he
        exact old e he
  intro i d slot
  have grants : Grants s (reformCeilings s) := (Grants.refl s).reformCeilings
  rw [ceilingOf_congr grants.adapter grants.active]
  exact formed six s (.refl s) i d slot (.inl (mem_six i))

theorem recomputeCeilings_ceiled (c : RoundCause) (s : State) : (recomputeCeilings c s).ceiled := by
  have kept : ∀ t, Grants (reformCeilings s) t → Allocs False (reformCeilings s) t → t.ceiled := fun t grants allocs =>
    ceiled_of_bases allocs.bases grants.adapter grants.active (reformCeilings_ceiled s)
  unfold recomputeCeilings
  dsimp only
  split
  · exact kept _ ((Grants.refl _).recompute c).serve ((Allocs.refl _).recompute c).serve
  · exact kept _ ((Grants.refl _).recompute c) ((Allocs.refl _).recompute c)

/-! ## The consumers of a set -/

/-- What every consumer of a set keeps. -/
structure Consumed (s t : State) : Prop where
  managed : t.managed = s.managed
  lst : t.lst = s.lst
  plu : t.plu = s.plu
  adapter : t.alc.budget.adapterPresent = s.alc.budget.adapterPresent
  zones : ∀ z, t.znm.zones.get z = { s.znm.zones.get z with
    state := (t.znm.zones.get z).state, woke := (t.znm.zones.get z).woke, demand := (t.znm.zones.get z).demand }
  fans : ∀ m, (t.fnc.fans.get m).enabled = (s.fnc.fans.get m).enabled

namespace Consumed

theorem refl (s : State) : Consumed s s := ⟨rfl, rfl, rfl, rfl, fun _ => rfl, fun _ => rfl⟩

theorem trans (h : Consumed s t) (k : Consumed t u) : Consumed s u :=
  ⟨k.managed.trans h.managed, k.lst.trans h.lst, k.plu.trans h.plu, k.adapter.trans h.adapter,
    fun z => by rw [k.zones z, h.zones z], fun m => (k.fans m).trans (h.fans m)⟩

theorem ofHanded {W : Fin 6 → Prop} (h : Handed W s t) : Consumed s t :=
  ⟨h.managed, h.lst, h.plu, by rw [h.budget], h.zones, fun m => (h.fans m).1⟩

theorem active (h : Consumed s t) : t.active = s.active := by
  simp only [State.active, State.activeId, h.lst, h.plu]

end Consumed

/-- The Allocator with a new set: nothing but grants, queue, round and budget changes. -/
structure SetTaken (s t : State) : Prop where
  only : s.grantsOnly t
  credit : t.alc.budget.credit = min s.alc.budget.credit s.active.bucket
  armed : t.alc.budget.armed = weighArmed s.active s.alc.budget.armed (min s.alc.budget.credit s.active.bucket)
  adapter : t.alc.budget.adapterPresent = s.alc.budget.adapterPresent
  effective : s.managed = true → t.alc.budget.effective = some t.formB
  ceiled : t.ceiled

theorem takeNewSet_taken (c : RoundCause) (s : State) : SetTaken s (takeNewSet c s) := by
  obtain ⟨u, hu⟩ : ∃ u, u = s.withBudget fun b => { b with
      credit := min s.alc.budget.credit s.active.bucket
      armed := weighArmed s.active b.armed (min s.alc.budget.credit s.active.bucket) } := ⟨_, rfl⟩
  have e : takeNewSet c s = recomputeCeilings c u := by rw [hu]; rfl
  have grants : Grants u (recomputeCeilings c u) := (Grants.refl u).recomputeCeilings c
  rw [e]
  have stored : s.grantsOnly u := by rw [hu]; rfl
  refine ⟨grantsOnly_trans stored grants.only, ?_, ?_, ?_, fun m => recomputeCeilings_effective c (by rw [hu]; exact m),
    recomputeCeilings_ceiled c u⟩
  · rw [grants.budget, hu]
    rfl
  · rw [grants.budget, hu]
    rfl
  · rw [grants.budget, hu]
    rfl

namespace SetTaken

theorem parts (h : SetTaken s t) : Parts s t ∧ t.fnc = s.fnc ∧ t.znm = s.znm := by
  have only := h.only
  rw [State.grantsOnly] at only
  rw [only]
  exact ⟨⟨rfl, rfl, rfl, rfl⟩, rfl, rfl⟩

theorem consumed (h : SetTaken s t) : Consumed s t := by
  obtain ⟨parts, fnc, znm⟩ := h.parts
  exact ⟨parts.managed, parts.lst, parts.plu, h.adapter, fun z => by rw [znm], fun m => by rw [fnc]⟩

end SetTaken

/-- The consumers: the Allocator, each zone, and the fans. -/
theorem setConsumer_zone (cause : RoundCause) (z : Fin 6) (s : State) : setConsumer cause (z.val + 1) s = evaluateZone z s := by
  rw [setConsumer, index?_val]

theorem setConsumer_fans (cause : RoundCause) (s : State) : setConsumer cause 7 s = applyTargets s := rfl

theorem applyTargets_handed {W : Fin 6 → Prop} (s : State) : Handed W s (applyTargets s) := .ofHands (Hands.refl s).applyTargets

/-- Every consumer but the Allocator is a zone or the fans. -/
theorem setConsumer_succ (cause : RoundCause) (n : Nat) (s : State) :
    (∃ z : Fin 6, n = z.val ∧ setConsumer cause (n + 1) s = evaluateZone z s) ∨ setConsumer cause (n + 1) s = applyTargets s := by
  by_cases zone : n < 6
  · exact .inl ⟨⟨n, zone⟩, rfl, setConsumer_zone cause ⟨n, zone⟩ s⟩
  · refine .inr ?_
    rw [setConsumer, index?_none (Nat.not_lt.mp zone)]

/-- A consumer but the Allocator hands over to zones and fans, and evaluates at most its own zone. -/
theorem setConsumer_handed (cause : RoundCause) (n : Nat) (s : State) :
    Handed (fun z => n = z.val) s (setConsumer cause (n + 1) s) := by
  rcases setConsumer_succ cause n s with ⟨z, number, e⟩ | e <;> rw [e]
  · exact .ofHands ((Hands.refl s).evaluateZone number)
  · exact applyTargets_handed s

theorem setConsumer_consumed (cause : RoundCause) (n : Nat) (s : State) : Consumed s (setConsumer cause n s) := by
  cases n with
  | zero => exact (takeNewSet_taken cause s).consumed
  | succ n => exact .ofHanded (setConsumer_handed cause n s)

theorem setConsumer_aims {m : Fin 2} (cause : RoundCause) (n : Nat) (h : s.aimed m) : (setConsumer cause n s).aimed m := by
  cases n with
  | zero =>
    obtain ⟨parts, fnc, -⟩ := (takeNewSet_taken cause s).parts
    exact parts.aimed (congrArg Fnc.fans fnc) h
  | succ n =>
    rcases setConsumer_succ cause n s with ⟨z, -, e⟩ | e <;> rw [e]
    · exact evaluateZone_aims z h
    · exact applyTargets_aims s m

/-- The set's reach at the Allocator: credit and armed flag weighed by the set from what they were, B and ceilings formed. -/
structure SetHeld (s t : State) : Prop where
  credit : t.alc.budget.credit = min s.alc.budget.credit s.active.bucket
  armed : t.alc.budget.armed = weighArmed s.active s.alc.budget.armed (min s.alc.budget.credit s.active.bucket)
  effective : t.alc.budget.effective = some t.formB
  ceiled : t.ceiled

theorem Handed.inputs {W : Fin 6 → Prop} (h : Handed W s t) : t.alc.budget.credit = s.alc.budget.credit ∧
    t.alc.budget.armed = s.alc.budget.armed ∧ t.alc.budget.adapterPresent = s.alc.budget.adapterPresent := by
  rw [h.budget]
  exact ⟨rfl, rfl, rfl⟩

theorem SetHeld.handed {W : Fin 6 → Prop} (h : SetHeld s t) (k : Handed W t u) (managed : t.managed = true) : SetHeld s u := by
  obtain ⟨credit, armed, adapter⟩ := k.inputs
  exact ⟨credit.trans h.credit, armed.trans h.armed, k.formed managed h.effective,
    ceiled_of_bases k.bases adapter k.active h.ceiled⟩

theorem setConsumer_zero (cause : RoundCause) (s : State) : SetTaken s (setConsumer cause 0 s) := takeNewSet_taken cause s

theorem takeChoice_consumed (s : State) : Consumed s s.takeChoice := ⟨rfl, rfl, rfl, rfl, fun _ => rfl, fun _ => rfl⟩

theorem handSet_managed (cause : RoundCause) (managed : s.managed = true) :
    handSet cause s = inFreeOrder 8 (setConsumer cause) s := if_pos managed

/-- The Allocator has not taken the set up yet. -/
structure SetAwaited (s t : State) : Prop where
  managed : t.managed = true
  active : t.active = s.active
  credit : t.alc.budget.credit = s.alc.budget.credit
  armed : t.alc.budget.armed = s.alc.budget.armed

theorem SetAwaited.taken (h : SetAwaited s t) (taken : SetTaken t u) : u.managed = true ∧ SetHeld s u := by
  refine ⟨taken.consumed.managed.trans h.managed, ?_, ?_, taken.effective h.managed, taken.ceiled⟩
  · rw [← h.active, ← h.credit]
    exact taken.credit
  · rw [← h.active, ← h.credit, ← h.armed]
    exact taken.armed

theorem SetAwaited.handed {W : Fin 6 → Prop} (h : SetAwaited s t) (k : Handed W t u) : SetAwaited s u := by
  obtain ⟨credit, armed, -⟩ := k.inputs
  exact ⟨k.managed.trans h.managed, k.active.trans h.active, credit.trans h.credit, armed.trans h.armed⟩

/-- A consumer of another zone, and the Allocator, leave a zone's state. -/
theorem setConsumer_state {z : Fin 6} (cause : RoundCause) {n : Nat} (other : n ≠ z.val + 1) (s : State) :
    ((setConsumer cause n s).znm.zones.get z).state = (s.znm.zones.get z).state := by
  cases n with
  | zero =>
    obtain ⟨-, -, znm⟩ := (setConsumer_zero cause s).parts
    rw [znm]
  | succ n => exact ((setConsumer_handed cause n s).others z fun e => other (by rw [e])).1

section
variable (managed : s.managed = true) (cause : RoundCause)
include managed

theorem handSet_held : SetHeld s (handSet cause s) := by
  have start : SetAwaited s s.takeChoice := ⟨managed, rfl, rfl, rfl⟩
  rw [handSet_managed cause managed]
  refine (inFreeOrder_once (n := 8) (k := 0) (P := SetAwaited s) (Q := fun t => t.managed = true ∧ SetHeld s t) (by omega)
    start (fun i t other h => ?_) (fun t h => h.taken (setConsumer_zero cause t)) fun i t other h => ?_).2
  · obtain ⟨n, rfl⟩ := Nat.exists_eq_succ_of_ne_zero other
    exact h.handed (setConsumer_handed cause n t)
  · obtain ⟨n, rfl⟩ := Nat.exists_eq_succ_of_ne_zero other
    have handed := setConsumer_handed cause n t
    exact ⟨handed.managed.trans h.1, h.2.handed handed h.1⟩

omit managed in
theorem handSet_consumed : Consumed s (handSet cause s) := by
  unfold handSet
  split
  · exact inFreeOrder_keeps (P := Consumed s) (takeChoice_consumed s) fun n t _ h => h.trans (setConsumer_consumed cause n t)
  · exact .refl s

theorem handSet_aims (m : Fin 2) : (handSet cause s).aimed m := by
  rw [handSet_managed cause managed]
  exact inFreeOrder_makes (n := 8) (k := 7) (P := fun _ => True) (Q := fun t => t.aimed m) (by omega) trivial
    (fun _ _ _ _ => trivial) (fun t _ => applyTargets_aims t m) fun n t _ _ h => setConsumer_aims cause n h

theorem handSet_judges (z : Fin 6) (enabled : (s.znm.zones.get z).enabled = true) :
    ((handSet cause s).znm.zones.get z).state = s.judgement z := by
  have start : Consumed s s.takeChoice ∧ (s.takeChoice.znm.zones.get z).state = (s.znm.zones.get z).state :=
    ⟨takeChoice_consumed s, rfl⟩
  rw [handSet_managed cause managed]
  refine inFreeOrder_once (n := 8) (k := z.val + 1)
    (P := fun t => Consumed s t ∧ (t.znm.zones.get z).state = (s.znm.zones.get z).state)
    (Q := fun t => (t.znm.zones.get z).state = s.judgement z) (by omega) start (fun i t other h => ?_) (fun t h => ?_)
    fun i t other h => (setConsumer_state cause other t).trans h
  · obtain ⟨consumed, state⟩ := h
    exact ⟨consumed.trans (setConsumer_consumed cause i t), (setConsumer_state cause other t).trans state⟩
  · obtain ⟨consumed, state⟩ := h
    have evaluated : Evaluated z t (evaluateZone z t) :=
      evaluateZone_evaluated (consumed.managed.trans managed) (by rw [consumed.zones]; exact enabled)
    have temperature : (t.znm.zones.get z).temperature = (s.znm.zones.get z).temperature := by rw [consumed.zones]
    rw [setConsumer_zone, evaluated.state, State.judgement, State.judgement, consumed.active, state, temperature]

/-- In RUNNING and DOZING a set handed over is taken up. -/
theorem handSet_takesSet : s.takesSet (handSet cause s) s.active := by
  have held := handSet_held managed cause
  have consumed := handSet_consumed (s := s) cause
  refine ⟨held.credit, ?_, consumed.active, held.effective, fun i d slot => ?_, fun z => ⟨fun on => handSet_judges managed cause z on, ?_⟩,
    fun m on => handSet_aims managed cause m (by rw [consumed.fans]; exact on)⟩
  · rw [held.armed]
    exact weighArmed_iff
  · rw [held.ceiled i d slot, ceilingOf_congr consumed.adapter consumed.active, State.ceilingOf, Domain.ceilingNow]
    cases d.permit <;> simp
  · rw [consumed.zones z]
    exact ⟨rfl, rfl, rfl⟩

end

end Sys2Proof.Machine

/-! PROOFS. A set handed over in a step that may leave a scan to complete (R12, R13, R29): what such a step leaves of limits,
placement and source. -/

namespace Sys2Proof.Machine

variable {s t u : State}

/-! ## What a completion leaves of the other blocks' setup -/

/-- Clock, limits, placement, source setup and the queue of commands stay. -/
structure Placed (s t : State) : Prop where
  now : t.now = s.now
  lst : t.lst = s.lst
  plu : t.plu = s.plu
  setup : t.srm.setup = s.srm.setup
  pending : t.pending = s.pending

namespace Placed

theorem refl (s : State) : Placed s s := ⟨rfl, rfl, rfl, rfl, rfl⟩

theorem trans (h : Placed s t) (k : Placed t u) : Placed s u :=
  ⟨k.now.trans h.now, k.lst.trans h.lst, k.plu.trans h.plu, k.setup.trans h.setup, k.pending.trans h.pending⟩

theorem ofFixed (h : Fixed s t) : Placed s t := ⟨h.now, h.lst, h.plu, by rw [h.srm], h.pending⟩

theorem ofGrants (h : Grants s t) : Placed s t := by
  have only := h.only
  rw [State.grantsOnly] at only
  rw [only]
  exact ⟨rfl, rfl, rfl, rfl, rfl⟩

theorem withSrm {f : Srm → Srm} (s : State) (kept : (f s.srm).setup = s.srm.setup) : Placed s (s.withSrm f) :=
  ⟨rfl, rfl, rfl, kept, rfl⟩

theorem updateSeverity (s : State) : Placed s (Machine.updateSeverity s) := by
  unfold Machine.updateSeverity
  dsimp only
  split
  · exact refl s
  · refine (withSrm (f := fun r => { r with severity := s.srm.severe s.managed }) s rfl).trans ?_
    split
    · exact ofGrants ((Grants.refl _).addCauseTo _ _)
    · exact ofGrants ((Grants.refl _).withdrawCauseFrom _ _)

theorem handSource (s : State) : Placed s (Machine.handSource s) := by
  rcases handSource_grants s with same | ⟨grants, -⟩
  · rw [same]
    exact refl s
  · have taken : Placed s (s.withBudget (·.takeSource s.srm)) := ⟨rfl, rfl, rfl, rfl, rfl⟩
    exact taken.trans (ofGrants grants)

theorem post (n : Notice) (s : State) : Placed s (s.post n) := ⟨rfl, rfl, rfl, rfl, rfl⟩

theorem sourceChanged (s : State) : Placed s (Machine.sourceChanged s) :=
  (((withSrm (f := fun r => { r with sourceLimit := r.limit s.reserveOf }) s rfl).trans (updateSeverity _)).trans
    (post _ _)).trans (handSource _)

theorem sourceCompletion (c : Completion) (s : State) : Placed s (Machine.sourceCompletion c s) := by
  unfold Machine.sourceCompletion
  dsimp only
  split
  · exact refl s
  · exact (withSrm (f := fun r => { r with battery := s.srm.evaluated c }) s rfl).trans (sourceChanged _)

theorem updateBurst (c : Completion) (dtMs : Nat) (s : State) : Placed s (Machine.updateBurst c dtMs s) := by
  unfold Machine.updateBurst
  dsimp only
  have weighed : ∀ f, Placed s (s.withBudget f) := fun _ => ⟨rfl, rfl, rfl, rfl, rfl⟩
  split
  · exact weighed _
  · exact (weighed _).trans (ofGrants ((Grants.refl _).recompute _))

theorem allocatorCompletion (c : Completion) (dtMs : Nat) (s : State) : Placed s (Machine.allocatorCompletion c dtMs s) := by
  have measured : Placed s (measureDomains c s) := ⟨rfl, rfl, rfl, rfl, rfl⟩
  have checked : Grants (measureDomains c s)
      (closeIfDone (six.foldl (fun t i => checkDomain c.timeMs i t) (measureDomains c s))) :=
    (Grants.foldl (fun _ i h => h.checkDomain c.timeMs i) _ (Grants.refl _)).closeIfDone
  exact (measured.trans (ofGrants checked)).trans (updateBurst c dtMs _)

theorem completionConsumer (c : Completion) (dtMs n : Nat) (s : State) : Placed s (Machine.completionConsumer c dtMs n s) := by
  unfold Machine.completionConsumer
  split
  · exact sourceCompletion c s
  · exact allocatorCompletion c dtMs s
  · split
    · exact ofFixed (evaluateZone_handed _ s).fixed
    · exact refl s

theorem judgeGuard (c : Completion) (s : State) : Placed s (Machine.judgeGuard c s) := by
  have claim : ∀ v, Placed s (s.setGuard v) := fun _ => ⟨rfl, rfl, rfl, rfl, rfl⟩
  unfold Machine.judgeGuard
  dsimp only
  (repeat' split)
  · exact refl s
  · exact (claim false).trans (ofGrants ((Grants.refl _).withdrawCauseFrom six .guard))
  · exact refl s
  · exact (claim true).trans (ofGrants ((Grants.refl _).addCauseTo six .guard))
  · exact refl s

theorem consume (c : Completion) (dtMs : Nat) (s : State) : Placed s (Machine.consume c dtMs s) := by
  have start : Placed s s.takeChoice := ⟨rfl, rfl, rfl, rfl, rfl⟩
  unfold Machine.consume
  split
  · exact refl s
  · exact judgeGuard c s
  · exact inFreeOrder_keeps (P := Placed s) start fun n t _ h => h.trans (completionConsumer c dtMs n t)

theorem completeMeasurement (s : State) : Placed s (Machine.completeMeasurement s) := by
  have derived : Placed s (deriveZones s.completionNow (s.withMsu fun m => { m with scan := none, last := s.completionNow })) :=
    ⟨rfl, rfl, rfl, rfl, rfl⟩
  exact derived.trans (consume ..)

/-- With no contact scan that could go on, a scan's completion leaves them too. -/
theorem finishScan (claim : s.msu.claim = .unclaimed) : Placed s (Machine.finishScan s) := by
  unfold Machine.finishScan
  split
  · have idle : (Machine.completeMeasurement s).msu.claim = .unclaimed := by
      rw [completeMeasurement_msu claim]
      exact claim
    rw [handOnFrontEnd_unclaimed idle]
    exact (completeMeasurement s).trans ⟨rfl, rfl, rfl, rfl, rfl⟩
  · exact refl s

end Placed

/-! ## A step whose hand-overs may wake the part -/

/-- A step that reaches the scans only by waking the part completes no scan where no measurement scan waits, and leaves
limits, placement and source setup in any case. -/
theorem finishNew_units (msu : u.msu = s.msu) (h : Units u t) :
    Placed t (finishNew s t) ∧ (s.msu.pendingMeas = false → finishNew s t = t) := by
  rcases h.units with ⟨-, same, -⟩ | woken
  · have e : finishNew s t = t := finishNew_of_same (scanSpent_congr (same.trans msu))
    exact ⟨by rw [e]; exact .refl t, fun _ => e⟩
  · have stopped : t.msu = s.msu.stopped u.now := msu ▸ woken.msu
    refine ⟨?_, fun still => finishNew_stopped still stopped⟩
    have claim : t.msu.claim = .unclaimed := by rw [stopped, Msu.stopped_claim]
    unfold finishNew
    split
    · exact .refl t
    · exact .finishScan claim

theorem handSet_placed (cause : RoundCause) (s : State) : Placed s (handSet cause s) := .ofFixed ((Fixed.refl s).handSet cause)

theorem active_settled {p : SetId} {f : LimitSet} (placement : s.plu.placement = .settled p) (stored : s.lst.get p = some f) :
    s.active = f := by
  rw [State.active, State.activeId, placement, Placement.activeSet, stored]
  rfl

/-! ## A placement told -/

theorem tellPlacement_units (previous : Placement) (u : State) : Units u (tellPlacement previous u) ∧
    Placed u (tellPlacement previous u) := by
  have reported : Units u (reportPlacement previous u) ∧ Placed u (reportPlacement previous u) := by
    unfold reportPlacement
    split
    · exact ⟨.refl u, .refl u⟩
    · exact ⟨.handSet .placement u, handSet_placed .placement u⟩
  exact ⟨reported.1.trans (.post _ _), reported.2.trans (.post _ _)⟩

/-- Where no set is handed over the notice is all that follows. -/
theorem tellPlacement_quiet {previous : Placement} (h : u.managed = false ∨ u.plu.placement = previous) :
    tellPlacement previous u = u.post (.placement u.plu.placement previous u.plu.pin.isSome u.plu.evidence) := by
  have still : reportPlacement previous u = u := by
    rw [reportPlacement]
    split
    · rfl
    · next moved => exact if_neg (by rw [h.resolve_right moved]; decide)
  rw [tellPlacement, still]
  rfl

theorem tellPlacement_takesSet {previous : Placement} (managed : u.managed = true) (moved : u.plu.placement ≠ previous) :
    u.takesSet (tellPlacement previous u) u.active := by
  have handed : tellPlacement previous u = postPlacement previous (handSet .placement u) := by
    rw [tellPlacement, reportPlacement, if_neg moved]
  rw [handed]
  exact handSet_takesSet managed .placement

/-- What an event leaves that may have changed the placement: the notice, and where it has changed in RUNNING or DOZING its
set taken up. -/
structure Settled (s u t : State) (previous : Placement) : Prop where
  placed : Placed u t
  quiet : u.managed = false ∨ u.plu.placement = previous →
    t = u.post (.placement u.plu.placement previous u.plu.pin.isSome u.plu.evidence)
  takes : ∀ p f, u.plu.placement = .settled p → u.managed = true → u.plu.placement ≠ previous → s.msu.pendingMeas = false →
    u.lst.get p = some f → u.takesSet t f

theorem tellPlacement_settled {previous : Placement} (msu : u.msu = s.msu) :
    Settled s u (finishNew s (tellPlacement previous u)) previous := by
  obtain ⟨units, placed⟩ := tellPlacement_units previous u
  obtain ⟨finished, alone⟩ := finishNew_units msu units
  refine ⟨placed.trans finished, fun still => ?_, fun p f settled managed moved waits stored => ?_⟩
  · rw [tellPlacement_quiet still]
    exact finishNew_of_same (scanSpent_congr msu)
  · rw [alone waits, ← active_settled settled stored]
    exact tellPlacement_takesSet managed moved

end Sys2Proof.Machine

/-! PROOFS. Dwell expiry and pins (R69 to R77). -/

namespace Sys2Proof.Machine

variable {s : State}

/-! ## DWELL_EXPIRY -/

/-- Settles O37: a pin holds the candidate back; else the placement is told. -/
theorem dwellExpirySettlesTheCandidate : Obligations.DwellExpirySettlesTheCandidate := by
  intro s d running
  have due : exec .dwellExpiry s = .next (expireDwell (s.reach d)) := by
    show Host.Outcome.next (atExpiry s.plu.dwell.due expireDwell s) = _
    rw [running]
    rfl
  refine ⟨fun q pinned => ?_, fun p free candidate => ?_⟩
  · rw [due, expireDwell]
    have pin : (s.reach d).plu.pin = some q := pinned
    rw [pin]
    rfl
  · intro settled
    have ran : exec .dwellExpiry s = .next (finishNew (s.reach d) (tellPlacement s.plu.placement settled)) := by
      rw [due, expireDwell]
      have pin : (s.reach d).plu.pin = none := free
      have waits : (s.reach d).plu.candidate = some p := candidate
      rw [pin, waits]
      rfl
    have done : Settled (s.reach d) settled (finishNew (s.reach d) (tellPlacement s.plu.placement settled)) s.plu.placement :=
      tellPlacement_settled rfl
    refine ⟨fun still => ?_, _, ran, done.placed.plu, done.placed.now, done.placed.lst, done.placed.setup,
      fun f managed moved waits stored => ?_⟩
    · rw [ran, done.quiet (still.imp id Eq.symm)]
      have unpinned : settled.plu.pin.isSome = false := by
        show s.plu.pin.isSome = false
        rw [free]
        rfl
      rw [unpinned]
    · exact done.takes p f rfl managed (Ne.symm moved) waits stored

/-! ## Pins -/

theorem pinCode_index (p : SetId) : pinCode (p.index.val + 1) = some p := by cases p <;> rfl

theorem pinCode_none {code : Nat} (h : code = 0 ∨ 4 < code) : pinCode code = none := by
  unfold pinCode
  split <;> first | rfl | omega

theorem badTimeout_iff (timeout : Option Nat) :
    (timeout.any fun t => t < 1 || 3600 < t) = true ↔ ¬∀ x, timeout = some x → 1 ≤ x ∧ x ≤ 3600 := by
  cases timeout with
  | none => simp
  | some x =>
    simp only [Option.any_some, Bool.or_eq_true, decide_eq_true_eq, Option.some.injEq, forall_eq']
    omega

theorem placementPin_badField {code : Nat} {timeout : Option Nat}
    (bad : code = 0 ∨ 4 < code ∨ ¬∀ x, timeout = some x → 1 ≤ x ∧ x ≤ 3600) :
    placementPin code timeout s = (s, .only .badField) := by
  unfold placementPin
  split
  · rfl
  · next p named =>
    have time : ¬∀ x, timeout = some x → 1 ≤ x ∧ x ≤ 3600 := by
      rcases bad with zero | big | time
      · rw [pinCode_none (.inl zero)] at named
        cases named
      · rw [pinCode_none (.inr big)] at named
        cases named
      · exact time
    exact if_pos ((badTimeout_iff timeout).mpr time)

theorem placementPin_pins {p : SetId} {timeout : Option Nat} (good : ∀ x, timeout = some x → 1 ≤ x ∧ x ≤ 3600) :
    placementPin (p.index.val + 1) timeout s = (pinPlacement p timeout s, placementAnswer (pinPlacement p timeout s)) := by
  unfold placementPin
  rw [pinCode_index]
  exact if_neg fun bad => (badTimeout_iff timeout).mp bad good

theorem placementReport_congr {t u : State} (plu : t.plu = u.plu) (now : t.now = u.now) :
    t.placementReport = u.placementReport := by
  have left : t.timerLeft = u.timerLeft := by
    funext x
    rw [State.timerLeft, State.timerLeft, show t.remainingMs = u.remainingMs from funext fun d => by
      rw [State.remainingMs, State.remainingMs, now]]
  rw [State.placementReport, State.placementReport, plu, left]

/-- The dwell of a pinned placement, in the words of the statement. -/
theorem alignDwell_eq (p : SetId) (candidate : Option SetId) (fresh : Nat) (d : Dwell) : alignDwell p candidate fresh d =
    match candidate with
    | none => .idle
    | some c => if c = p then .idle else if d = .idle then .running fresh else d := by
  cases candidate with
  | none => rfl
  | some c => cases d <;> rfl

/-- The record with a pin, at a given time. -/
theorem pinned_eq (p : SetId) (timeout : Option Nat) (s : State) (n : Nat) :
    let u : State := { s with now := n }
    pinPlacement p timeout u = tellPlacement s.plu.placement { u with plu := { s.plu with
      pin := some { placement := p, expiry := timeout.map fun x => n + x * 1000000 }, placement := .settled p
      dwell := match s.plu.candidate with
        | none => .idle
        | some c => if c = p then .idle else if s.plu.dwell = .idle then
            .running (n + (match s.lst.sets.get (SetId.index c) with
              | some l => l.entryDwell
              | none => 3000) * 1000) else s.plu.dwell } } := by
  intro u
  have dwell : alignDwell p s.plu.candidate u.freshDwell s.plu.dwell = match s.plu.candidate with
      | none => .idle
      | some c => if c = p then .idle else if s.plu.dwell = .idle then
          .running (n + (match s.lst.sets.get (SetId.index c) with
            | some l => l.entryDwell
            | none => 3000) * 1000) else s.plu.dwell := by
    rw [alignDwell_eq]
    have candidate : u.plu.candidate = s.plu.candidate := rfl
    cases h : s.plu.candidate with
    | none => rfl
    | some c =>
      rw [State.freshDwell, candidate, h]
      rfl
  rw [← dwell]
  rfl

/-- The record at a pin's end, in the words of the statement. -/
theorem unpin_eq (q : Plu) : q.unpin = match q.dwell, q.candidate with
    | .elapsed, some c => { q with pin := none, placement := .settled c, dwell := .idle }
    | _, _ => { q with pin := none } := by
  unfold Plu.unpin
  rfl

theorem unpin_evidence (q : Plu) : q.unpin.evidence = q.evidence := by
  unfold Plu.unpin
  split <;> rfl

/-- Settles O38: the pinned and the unpinned record are told. -/
theorem pinsHoldThePlacement : Obligations.PinsHoldThePlacement := by
  intro dt tag code timeout s now goodTime fresh pinned ended told follows report
  have follow : ∀ (n : Nat) (q : Plu) (r t : State), r.msu = s.msu → q.evidence = s.plu.evidence →
      Settled r { s with now := n, plu := q } t s.plu.placement → follows { s with now := n } q t :=
    fun n q r t msu evidence settled => by
      refine ⟨fun still => ?_, fun p f placement managed moved waits stored => settled.takes p f placement managed moved
        (by rw [msu]; exact waits) stored⟩
      rw [settled.quiet still]
      show State.post (.placement q.placement s.plu.placement q.pin.isSome q.evidence) { s with now := n, plu := q } = _
      rw [evidence]
  have told : ∀ (r : State) (q : Plu), Settled r { r with plu := q }
      (finishNew r (tellPlacement s.plu.placement { r with plu := q })) s.plu.placement :=
    fun _ _ => tellPlacement_settled rfl
  have evidence : ended.evidence = s.plu.evidence := by
    rw [show ended = s.plu.unpin from (unpin_eq s.plu).symm, unpin_evidence]
  have answers : ∀ {q : Plu} {u : State}, u = tellPlacement s.plu.placement { s.elapse dt with plu := q } →
      placementAnswer u = report (finishNew (s.elapse dt) u) := fun {q u} e => by
    have before : Placed { s.elapse dt with plu := q } u := e ▸ (tellPlacement_units _ _).2
    have after : Placed { s.elapse dt with plu := q } (finishNew (s.elapse dt) u) :=
      e ▸ (tellPlacement_settled (s := s.elapse dt) (u := { s.elapse dt with plu := q }) rfl).placed
    rw [placementAnswer, placementReport_congr (before.plu.trans after.plu.symm) (before.now.trans after.now.symm)]
  refine ⟨fun takes bad => ?_, fun p takes named good => ?_, fun takes free => ?_, fun q takes held => ?_, fun p e held => ?_⟩
  · exact owner_answers takes ((finishing_eq (placementPin_badField bad)).trans (by rw [finishNew_self]; rfl))
  · subst named
    have pins := finishing_eq (placementPin_pins (s := s.elapse dt) (p := p) good)
    have record : pinPlacement p timeout (s.elapse dt) = tellPlacement s.plu.placement { s.elapse dt with plu := pinned p } :=
      pinned_eq p timeout s now
    rw [answers record] at pins
    have done := told (s.elapse dt) (pinned p)
    have placed := done.placed
    refine ⟨_, owner_answers takes pins, ?_⟩
    rw [record]
    exact ⟨placed.plu, placed.now, placed.lst, follow now (pinned p) (s.elapse dt) _ rfl rfl done⟩
  · have unpins : placementUnpin (s.elapse dt) = (s.elapse dt, report (s.elapse dt)) :=
      if_neg (by rw [show (s.elapse dt).plu.pin = none from free]; decide)
    refine owner_answers takes ((finishing_eq unpins).trans ?_)
    rw [finishNew_self]
  · have record : endPin (s.elapse dt) = tellPlacement s.plu.placement { s.elapse dt with plu := ended } := by
      rw [show ended = s.plu.unpin from (unpin_eq s.plu).symm]
      rfl
    have unpins : finishing placementUnpin (s.elapse dt) = _ := finishing_eq (show placementUnpin (s.elapse dt) =
      (endPin (s.elapse dt), placementAnswer (endPin (s.elapse dt))) from
      if_pos (by rw [show (s.elapse dt).plu.pin = some q from held]; rfl))
    rw [answers record] at unpins
    have done := told (s.elapse dt) ended
    have placed := done.placed
    refine ⟨_, owner_answers takes unpins, ?_⟩
    rw [record]
    exact ⟨placed.plu, placed.now, placed.lst, follow now ended (s.elapse dt) _ rfl evidence done⟩
  · have record : endPin (s.reach e) = tellPlacement s.plu.placement { s.reach e with plu := ended } := by
      rw [show ended = s.plu.unpin from (unpin_eq s.plu).symm]
      rfl
    have ran : exec .pinExpiry s = .next (finishNew (s.reach e) (endPin (s.reach e))) := by
      show Host.Outcome.next (atExpiry (s.plu.pin.bind (·.expiry)) (fun t => finishNew t (endPin t)) s) = _
      rw [held]
      rfl
    have done := told (s.reach e) ended
    have placed := done.placed
    refine ⟨_, ran, ?_⟩
    rw [record]
    exact ⟨placed.plu, placed.now, placed.lst, follow (max s.now e) ended (s.reach e) _ rfl evidence done⟩

end Sys2Proof.Machine

/-! PROOFS. LOAD_SET (R7 to R10, R14). -/

namespace Sys2Proof.Machine

theorem thresholdsOk_iff (t : Thresholds) : thresholdsOk t = true ↔
    t.soft < t.hard ∧ t.hard < t.critical ∧ -400 ≤ t.soft ∧ t.critical ≤ 1500 := by
  simp only [thresholdsOk, withinT, Bool.and_eq_true, decide_eq_true_eq]
  omega

theorem fanLimitsOk_iff (f : FanLimits) : fanLimitsOk f = true ↔ f.floor ≤ f.ceiling ∧ f.ceiling ≤ 100 := by
  simp only [fanLimitsOk, Bool.and_eq_true, decide_eq_true_eq]
  omega

section
variable {n : Nat} {f : LimitSet} {s : State}

theorem setOfNumber_none (big : 3 < n) : setOfNumber n = none := by
  unfold setOfNumber
  split <;> first | rfl | omega

theorem setOfNumber_some (small : n ≤ 3) : ∃ p, setOfNumber n = some p := by
  interval_cases n <;> exact ⟨_, rfl⟩

theorem loadSet_noSuch (big : 3 < n) : loadSet n f s = (s, .only .noSuch) := by
  rw [loadSet, setOfNumber_none big]
  rfl

theorem loadSet_badField {k : Nat} (small : n ≤ 3) (bad : firstFailing 1 (setChecks f) = some k) :
    loadSet n f s = (s, { status := .badField, body := .field k }) := by
  obtain ⟨p, named⟩ := setOfNumber_some small
  simp [loadSet, named, bad]

theorem loadSet_notReady (small : n ≤ 3) (good : firstFailing 1 (setChecks f) = none) (open_ : s.lst.chassis = none) :
    loadSet n f s = (s, .only .notReady) := by
  obtain ⟨p, named⟩ := setOfNumber_some small
  simp [loadSet, named, good, open_, refuse, Answer.only]

theorem loadSet_accepted {p : SetId} {c : ChassisLimits} (named : setOfNumber n = some p)
    (good : firstFailing 1 (setChecks f) = none) (locked : s.lst.chassis = some c)
    (fits : firstFailing 1 (boundChecks c f) = none) : loadSet n f s = (acceptSet p f s, .only .ok) := by
  simp [loadSet, named, good, locked, fits]

end

theorem acceptSet_placed (p : SetId) (f : LimitSet) (s : State) :
    Units (storeSet p f s) (acceptSet p f s) ∧ Placed (storeSet p f s) (acceptSet p f s) := by
  unfold acceptSet
  split
  · exact ⟨.handSet .setLoad _, handSet_placed .setLoad _⟩
  · exact ⟨.refl _, .refl _⟩

/-- A set that is not the active one, or is stored outside RUNNING and DOZING, is only stored. -/
theorem acceptSet_stored {p : SetId} {f : LimitSet} {s : State} (h : p ≠ s.activeId ∨ s.managed = false) :
    acceptSet p f s = storeSet p f s := by
  unfold acceptSet
  split
  · next active => exact if_neg (by rw [show (storeSet p f s).managed = false from h.resolve_left fun ne => ne active]; decide)
  · rfl

theorem storeSet_active {p : SetId} {f : LimitSet} {s : State} (h : p = s.activeId) : (storeSet p f s).active = f := by
  have own : (storeSet p f s).activeId = p := h.symm
  rw [State.active, own]
  have stored : (storeSet p f s).lst.get p = some f := (get_set ..).trans (if_pos rfl)
  rw [stored]
  rfl

/-- Settles O17: the four stages in their order, and the hand-over of a stored active set. -/
theorem loadSetHasFourStages : Obligations.LoadSetHasFourStages := by
  refine ⟨fun dt tag n f s takes => ?_, fun f => ?_⟩
  case refine_2 =>
    intro step zone fan ok
    refine firstFailing_iff (l := setChecks f) (ok := ok) fun i hi => ?_
    have hi : i < 19 := hi
    interval_cases i <;>
      simp [setChecks, six, two, stepIn, within, isStep, thresholdsOk_iff, fanLimitsOk_iff, ok, step, zone, fan, and_assoc, imp_iff_not_or]
  intro refused
  have answers : ∀ {st : Status} {b : ReplyBody}, loadSet n f (s.elapse dt) = (s.elapse dt, { status := st, body := b }) →
      refused st b := fun h =>
    owner_answers takes ((finishing_eq h).trans (by rw [finishNew_self]))
  refine ⟨fun big => answers (loadSet_noSuch big), fun small k bad => answers (loadSet_badField small bad),
    fun small good open_ => answers (loadSet_notReady small good open_),
    fun small good c k locked bad => answers (loadSet_outOfLimits small good locked bad), fun p c named good locked fits => ?_⟩
  intro stored
  have accepted := finishing_eq (loadSet_accepted (s := s.elapse dt) named good locked fits)
  obtain ⟨units, placed⟩ := acceptSet_placed p f (s.elapse dt)
  obtain ⟨finished, alone⟩ := finishNew_units (s := s.elapse dt) (u := storeSet p f (s.elapse dt)) rfl units
  have kept := placed.trans finished
  refine ⟨⟨_, owner_answers takes accepted, kept.lst, kept.plu, kept.pending, fun active managed waits => ?_⟩, fun other => ?_⟩
  · rw [alone waits, acceptSet, if_pos (by exact active)]
    have taken : (storeSet p f (s.elapse dt)).takesSet (handSet .setLoad (storeSet p f (s.elapse dt)))
        (storeSet p f (s.elapse dt)).active := handSet_takesSet (s := storeSet p f (s.elapse dt)) managed .setLoad
    rw [storeSet_active (s := s.elapse dt) active] at taken
    exact taken
  · refine owner_answers takes (accepted.trans ?_)
    rw [acceptSet_stored (s := s.elapse dt) other, finishNew_of_same (s := s.elapse dt) (t := storeSet p f (s.elapse dt)) rfl]
    rfl

end Sys2Proof.Machine

/-! PROOFS. A measurement completion at the Allocator (R121, R145, R148). -/

namespace Sys2Proof.Machine

/-! ## The compliance check of one domain -/

/-- A compliance check at a completion settles a domain. -/
def Domain.settlesAt (d : Domain) (timeMs tolerance : Nat) : Bool :=
  d.compliant tolerance && (d.state == .revoking ||
    (d.state == .clamped || d.state == .overdue) && d.holdStart.any fun h => h + 200 ≤ timeMs)

/-- A domain after its compliance check. -/
def Domain.checked (d : Domain) (timeMs tolerance : Nat) : Domain :=
  if d.settlesAt timeMs tolerance then d.settledNow
  else if d.state = .clamped ∨ d.state = .overdue then
    { d with holdStart := if d.compliant tolerance then some (d.holdStart.getD timeMs) else none }
  else d

section
variable {i : Fin 6} {d : Domain} {s t : State} {timeMs tolerance : Nat}

theorem setDomain_self (slot : s.alc.domains.get i = some d) : s.setDomain i (some d) = s := by
  rw [State.setDomain, ← slot, set_get_self]

theorem checked_settles (h : d.settlesAt timeMs tolerance = true) : d.checked timeMs tolerance = d.settledNow := if_pos h

theorem checked_held (h : d.settlesAt timeMs tolerance = false) (held : d.state = .clamped ∨ d.state = .overdue) :
    d.checked timeMs tolerance =
      { d with holdStart := if d.compliant tolerance then some (d.holdStart.getD timeMs) else none } :=
  (if_neg (by simp [h])).trans (if_pos held)

theorem checked_still (h : d.settlesAt timeMs tolerance = false) (free : ¬(d.state = .clamped ∨ d.state = .overdue)) :
    d.checked timeMs tolerance = d := (if_neg (by simp [h])).trans (if_neg free)

theorem checkHold_eq (slot : s.alc.domains.get i = some d) (held : d.state = .clamped ∨ d.state = .overdue) :
    checkHold i d timeMs (d.compliant s.active.tolerance) s =
      if d.settlesAt timeMs s.active.tolerance then settleDomain i d s
      else s.setDomain i (some (d.checked timeMs s.active.tolerance)) := by
  have back : (d.state == .revoking || (d.state == .clamped || d.state == .overdue) && d.holdStart.any fun h => h + 200 ≤ timeMs) =
      d.holdStart.any fun h => h + 200 ≤ timeMs := by
    rcases held with h | h <;> rw [h] <;> rfl
  unfold checkHold
  cases compliant : d.compliant s.active.tolerance with
  | false =>
    have still : d.settlesAt timeMs s.active.tolerance = false := by rw [Domain.settlesAt, compliant]; rfl
    rw [still, checked_held still held, compliant]
    rfl
  | true =>
    cases hold : d.holdStart with
    | none =>
      have still : d.settlesAt timeMs s.active.tolerance = false := by rw [Domain.settlesAt, compliant, back, hold]; rfl
      rw [still, checked_held still held, compliant, hold]
      rfl
    | some h =>
      have settles : d.settlesAt timeMs s.active.tolerance = decide (h + 200 ≤ timeMs) := by
        rw [Domain.settlesAt, compliant, back, hold]
        rfl
      rw [settles]
      by_cases passed : h + 200 ≤ timeMs
      · rw [decide_eq_true passed]
        exact if_pos passed
      · rw [decide_eq_false passed] at settles ⊢
        have same : { d with holdStart := some h } = d := by rw [← hold]
        rw [checked_held settles held, compliant, hold]
        refine (if_neg passed).trans ?_
        show s = s.setDomain i (some { d with holdStart := some h })
        rw [same, setDomain_self slot]

/-- A compliance check settles a domain or stores its record. -/
theorem checkDomain_eq (slot : s.alc.domains.get i = some d) : checkDomain timeMs i s =
    if d.settlesAt timeMs s.active.tolerance then settleDomain i d s
    else s.setDomain i (some (d.checked timeMs s.active.tolerance)) := by
  have free : d.state = .unmanaged ∨ d.state = .settled → d.settlesAt timeMs s.active.tolerance = false ∧
      d.checked timeMs s.active.tolerance = d := fun h => by
    have still : d.settlesAt timeMs s.active.tolerance = false := by
      rcases h with h | h <;> rw [Domain.settlesAt, h] <;> cases d.compliant s.active.tolerance <;> rfl
    exact ⟨still, checked_still still (by rcases h with h | h <;> rw [h] <;> decide)⟩
  rw [checkDomain, slot]
  dsimp only
  split
  · next revoking =>
    have settles : d.settlesAt timeMs s.active.tolerance = d.compliant s.active.tolerance := by
      rw [Domain.settlesAt, revoking]
      exact Bool.and_true _
    rw [settles]
    cases compliant : d.compliant s.active.tolerance with
    | true => rfl
    | false =>
      rw [checked_still (settles.trans compliant) (by rw [revoking]; decide), setDomain_self slot]
  · next held => exact checkHold_eq slot (.inl held)
  · next held => exact checkHold_eq slot (.inr held)
  · next revoking clamped overdue =>
    have other : d.state = .unmanaged ∨ d.state = .settled := by
      cases h : d.state with
      | revoking => exact absurd h revoking
      | clamped => exact absurd h clamped
      | overdue => exact absurd h overdue
      | _ => simp
    obtain ⟨still, same⟩ := free other
    rw [still, same, setDomain_self slot]
    rfl

/-- What a compliance check leaves: the domain's record checked, the line released where it settles. -/
structure DomainsChecked (timeMs : Nat) (l : List (Fin 6)) (s t : State) : Prop where
  only : s.grantsOnly t
  alc : t.alc = { s.alc with domains := t.alc.domains }
  domains : ∀ i, t.alc.domains.get i = if i ∈ l then (s.alc.domains.get i).map (·.checked timeMs s.active.tolerance)
    else s.alc.domains.get i
  overdue : ∀ n, ClampCause.overdue ∈ (t.clu.get n).causes → ClampCause.overdue ∈ (s.clu.get n).causes
  released : ∀ i ∈ l, ∀ d, s.alc.domains.get i = some d → d.settlesAt timeMs s.active.tolerance = true →
    ∀ n, d.line = some n → ClampCause.overdue ∉ (t.clu.get n).causes

theorem settleDomain_overdue (n : Fin 6) (h : ClampCause.overdue ∈ ((settleDomain i d s).clu.get n).causes) :
    ClampCause.overdue ∈ (s.clu.get n).causes := by
  rw [settleDomain_eq] at h
  change ClampCause.overdue ∈ ((withdrawOverdue d s).clu.get n).causes at h
  rw [withdrawOverdue_eq] at h
  split at h
  · exact h
  · rw [withdrawCause_get] at h
    split at h
    · exact (mem_withoutCause.mp h).2
    · exact h

theorem checkDomain_checked (timeMs : Nat) (i : Fin 6) (s : State) : DomainsChecked timeMs [i] s (checkDomain timeMs i s) := by
  have table : ∀ x : Option Domain, ∀ j, (s.alc.domains.get i).map (·.checked timeMs s.active.tolerance) = x →
      (s.alc.domains.set i x).get j = if j ∈ [i] then (s.alc.domains.get j).map (·.checked timeMs s.active.tolerance)
        else s.alc.domains.get j := fun x j hx => by
    rw [get_set]
    by_cases own : i = j
    · subst own
      rw [if_pos rfl, if_pos List.mem_cons_self, hx]
    · rw [if_neg own, if_neg (by simpa using Ne.symm own)]
  cases slot : s.alc.domains.get i with
  | none =>
    have same : checkDomain timeMs i s = s := by rw [checkDomain, slot]
    rw [same]
    refine ⟨rfl, rfl, fun j => ?_, fun _ h => h, fun j hj d hd => ?_⟩
    · split
      · next e =>
        rw [List.mem_singleton.mp e, slot]
        rfl
      · rfl
    · rw [List.mem_singleton] at hj
      rw [hj, slot] at hd
      cases hd
  | some d =>
    have own : ∀ j ∈ [i], ∀ e, s.alc.domains.get j = some e → e = d := fun j hj e he => by
      rw [List.mem_singleton] at hj
      rw [hj, slot] at he
      cases he
      rfl
    rw [checkDomain_eq slot]
    cases settles : d.settlesAt timeMs s.active.tolerance with
    | true =>
      obtain ⟨only, alc, released⟩ := settleDomain_parts (i := i) (d := d) (s := s)
      refine ⟨only, by rw [if_pos rfl, alc], fun j => ?_, fun n => settleDomain_overdue n, fun j hj e he _ n line => ?_⟩
      · rw [if_pos rfl, alc]
        exact table _ j (by rw [slot, Option.map_some, checked_settles settles])
      · exact released n (own j hj e he ▸ line)
    | false =>
      refine ⟨rfl, rfl, fun j => table _ j (by rw [slot]; rfl), fun _ h => h, fun j hj e he moved => ?_⟩
      rw [own j hj e he, settles] at moved
      cases moved

theorem grantsOnly_active (h : s.grantsOnly t) : t.active = s.active := by
  rw [State.grantsOnly] at h
  rw [h]
  rfl

theorem checkDomains_checked (timeMs : Nat) (l : List (Fin 6)) (once : l.Nodup) (s : State) :
    DomainsChecked timeMs l s (l.foldl (fun t i => checkDomain timeMs i t) s) := by
  induction l generalizing s with
  | nil => exact ⟨rfl, rfl, fun _ => rfl, fun _ h => h, fun _ h => absurd h List.not_mem_nil⟩
  | cons a l ih =>
    rw [List.nodup_cons] at once
    have first := checkDomain_checked timeMs a s
    have rest := ih once.2 (checkDomain timeMs a s)
    have active := grantsOnly_active first.only
    have other : ∀ i ∈ l, (checkDomain timeMs a s).alc.domains.get i = s.alc.domains.get i := fun i hi => by
      rw [first.domains, if_neg]
      rw [List.mem_singleton]
      exact fun e => once.1 (e ▸ hi)
    refine ⟨grantsOnly_trans first.only rest.only, rest.alc.trans ?_, fun i => ?_, fun n h => first.overdue n (rest.overdue n h),
      fun i hi d slot settles n line => ?_⟩
    · rw [first.alc]
      rfl
    · rw [List.foldl_cons, rest.domains, active]
      by_cases own : i = a
      · subst own
        rw [if_neg once.1, first.domains, if_pos List.mem_cons_self, if_pos List.mem_cons_self]
      · by_cases mem : i ∈ l
        · rw [if_pos mem, other i mem, if_pos (List.mem_cons_of_mem _ mem)]
        · rw [if_neg mem, first.domains, if_neg (by simpa using own), if_neg (by simp [own, mem])]
    · rcases List.mem_cons.mp hi with e | mem
      · subst e
        exact fun h => first.released i List.mem_cons_self d slot settles n line (rest.overdue n h)
      · exact rest.released i mem d ((other i mem).trans slot) (by rw [active]; exact settles) n line

end

/-! ## Measured powers -/

theorem measuredIn_eq (c : Completion) (d : Domain) : d.measuredIn c = match d.sense.bind fun n => c.values.get n with
    | none => none
    | some i => some (i.toNat * (match d.volt.bind fun n => c.values.get n with
      | some u => u.toNat
      | none => d.rail) / 1000) := by
  unfold Domain.measuredIn Completion.magnitude
  cases d.sense with
  | none => rfl
  | some m =>
    simp only [Option.bind_some]
    cases c.values.get m with
    | none => rfl
    | some i =>
      cases d.volt with
      | none => rfl
      | some n =>
        simp only [Option.bind_some, Option.map_some]
        cases c.values.get n <;> rfl

theorem measureDomains_get (c : Completion) (s : State) (i : Fin 6) : (measureDomains c s).alc.domains.get i =
    (s.alc.domains.get i).map fun d => { d with measured := d.measuredIn c } := get_tabulate ..

theorem compliant_iff {d : Domain} {tolerance : Nat} : d.compliant tolerance = true ↔
    ∃ x, d.measured = some x ∧ x ≤ d.grant.getD 0 + tolerance := by
  unfold Domain.compliant Domain.held
  cases d.measured <;> simp

end Sys2Proof.Machine

/-! PROOFS. The completion of a measurement scan: what its consumers leave, and the front end handed on (R29, R30, R32, R182). -/

namespace Sys2Proof.Machine

variable {s t u : State}

/-! ## The front end handed on -/

/-- What handing the front end on keeps: it reaches the two units of the scans, the placement's evidence and the notices. -/
structure FrontOnly (s t : State) : Prop where
  rest : t = { s with msu := t.msu, csu := t.csu, plu := t.plu, slk := t.slk }
  channels : t.msu.channels = s.msu.channels
  last : t.msu.last = s.msu.last
  scan : s.msu.scan = none → t.msu.scan = none

namespace FrontOnly

theorem refl (s : State) : FrontOnly s s := ⟨rfl, rfl, rfl, id⟩

theorem trans (h : FrontOnly s t) (k : FrontOnly t u) : FrontOnly s u where
  rest := by
    have e := k.rest
    rw [h.rest] at e
    exact e
  channels := k.channels.trans h.channels
  last := k.last.trans h.last
  scan := k.scan ∘ h.scan

theorem ofCsu (h : t = { s with csu := t.csu }) : FrontOnly s t := by
  rw [h]
  exact ⟨rfl, rfl, rfl, id⟩

end FrontOnly

theorem contactCompleted_touches (grouped : Bool) (measured : List (Fin 3)) (s : State) :
    ∃ c p k, s.contactCompleted grouped measured = { s with csu := c, plu := p, slk := k } := by
  have report : ∀ r : Vector TouchClass 8, ∃ c p k,
      evaluateCandidate { s with plu := { s.plu with evidence := s.plu.evidence.recount r } } =
        { s with csu := c, plu := p, slk := k } := fun r => by
    obtain ⟨p, d, h⟩ := evaluateCandidate_report s r
    exact ⟨s.csu, _, s.slk, h⟩
  have acted : ∃ c p k, s.contactActed grouped measured = { s with csu := c, plu := p, slk := k } := by
    unfold State.contactActed
    cases grouped with
    | false => exact report _
    | true =>
      simp only [Bool.true_eq_false, if_false]
      cases s.csu.learning with
      | idle => exact report _
      | learning origin count =>
        dsimp only
        split
        · exact ⟨_, s.plu, s.slk, rfl⟩
        · split
          · exact ⟨_, s.plu, s.slk, rfl⟩
          · exact ⟨_, s.plu, _, rfl⟩
  obtain ⟨c, p, k, h⟩ := acted
  rw [State.contactCompleted, h]
  unfold State.rebaseGoesOn State.beginsGroups
  dsimp only
  split
  · exact ⟨_, _, _, rfl⟩
  · split
    · exact ⟨_, _, _, rfl⟩
    · split
      · exact ⟨_, _, _, rfl⟩
      · exact ⟨_, _, _, rfl⟩

theorem endContact_front (grouped : Bool) (measured : List (Fin 3)) (s : State) :
    FrontOnly s (endContact grouped measured s) := by
  obtain ⟨c, p, k, done⟩ := contactCompleted_touches grouped measured { s with csu := { s.csu with scan := none } }
  rw [endContact_eq, freeFrontEnd_freed, done]
  refine ⟨rfl, ?_, ?_, fun none => ?_⟩
  · show (Msu.freed _ _).channels = _
    unfold Msu.freed
    split <;> rfl
  · show (Msu.freed _ _).last = _
    unfold Msu.freed
    split <;> rfl
  · show (Msu.freed _ _).scan = _
    unfold Msu.freed
    dsimp only
    rw [none]
    split <;> rfl

theorem continueContact_front (s : State) : FrontOnly s (continueContact s) := by
  unfold continueContact
  split
  · exact .refl s
  · split
    · exact endContact_front ..
    · exact ⟨rfl, rfl, rfl, id⟩

theorem handOnFrontEnd_front (s : State) : FrontOnly s (handOnFrontEnd s) := by
  have freed : FrontOnly s (s.withMsu fun m => { m with frontEnd := .free }) := ⟨rfl, rfl, rfl, id⟩
  have claimed : FrontOnly s ((s.withMsu fun m => { m with frontEnd := .free }).setClaim .running) := ⟨rfl, rfl, rfl, id⟩
  unfold handOnFrontEnd
  dsimp only
  split
  · exact claimed.trans (continueContact_front _)
  · exact freed

/-! ## What the consumers leave of the scans and the modes -/

/-- After the consumers the units of the scans are as they were, unless the part has left DOZING. -/
structure Consuming (s t : State) : Prop where
  now : t.now = s.now
  faults : t.mdc.faults = s.mdc.faults
  units : (t.mdc.mode = s.mdc.mode ∧ t.msu = s.msu ∧ t.csu = s.csu) ∨
    (t.mdc.mode ≠ s.mdc.mode ∧ t.msu = s.msu.stopped s.now)

theorem Consuming.ofUnits (h : Units s t) : Consuming s t := by
  rcases h.units with ⟨mdc, msu, csu⟩ | woken
  · exact ⟨h.now, by rw [mdc], .inl ⟨by rw [mdc], msu, csu⟩⟩
  · exact ⟨h.now, by rw [woken.mdc], .inr ⟨by rw [woken.mdc, woken.dozing]; nofun, woken.msu⟩⟩

theorem judgeGuard_lines (c : Completion) (s : State) :
    ∃ v, State.linesOnly { s with mdc := { s.mdc with guardClaim := v } } (judgeGuard c s) := by
  unfold judgeGuard
  dsimp only
  (repeat' split)
  · exact ⟨_, rfl⟩
  · exact ⟨false, linesOnly_withdrawCauseFrom ..⟩
  · exact ⟨_, rfl⟩
  · exact ⟨true, linesOnly_addCauseTo ..⟩
  · exact ⟨_, rfl⟩

theorem consume_consuming (c : Completion) (dtMs : Nat) (s : State) : Consuming s (consume c dtMs s) := by
  unfold consume
  split
  · exact .ofUnits (.refl s)
  · obtain ⟨v, lines⟩ := judgeGuard_lines c s
    rw [State.linesOnly] at lines
    rw [lines]
    exact ⟨rfl, rfl, .inl ⟨rfl, rfl, rfl⟩⟩
  · exact .ofUnits (Units.inFreeOrder (Units.completionConsumer c dtMs) s)

/-! ## What the consumers leave of the zones -/

theorem updateSeverity_znm (s : State) : (updateSeverity s).znm = s.znm := by
  unfold updateSeverity
  dsimp only
  split
  · rfl
  · split
    · have lines := linesOnly_addCauseTo six .source (s.withSrm fun r => { r with severity := s.srm.severe s.managed })
      rw [State.linesOnly] at lines
      rw [lines]
      rfl
    · have lines := linesOnly_withdrawCauseFrom six .source (s.withSrm fun r => { r with severity := s.srm.severe s.managed })
      rw [State.linesOnly] at lines
      rw [lines]
      rfl

theorem grantsOnly_znm (h : s.grantsOnly t) : t.znm = s.znm := by
  rw [State.grantsOnly] at h
  rw [h]

theorem sourceCompletion_znm (c : Completion) (s : State) : (sourceCompletion c s).znm = s.znm := by
  unfold sourceCompletion sourceChanged
  dsimp only
  split
  · rfl
  · rw [grantsOnly_znm (handSource_only _)]
    exact updateSeverity_znm _

theorem updateBurst_grants (c : Completion) (dtMs : Nat) (s : State) :
    ∃ f, Grants (s.withBudget f) (updateBurst c dtMs s) ∧ Allocs False (s.withBudget f) (updateBurst c dtMs s) := by
  unfold updateBurst
  dsimp only
  split
  · exact ⟨_, .refl _, .refl _⟩
  · exact ⟨_, (Grants.refl _).recompute _, (Allocs.refl _).recompute _⟩

/-- A completion at the Allocator, stage by stage: checks, close, bucket. -/
theorem allocatorCompletion_stages (c : Completion) (dtMs : Nat) (s : State) : ∃ u v,
    DomainsChecked c.timeMs six (measureDomains c s) u ∧ Grants u v ∧ Allocs False u v ∧
      allocatorCompletion c dtMs s = updateBurst c dtMs v :=
  ⟨_, _, checkDomains_checked c.timeMs six (by decide) (measureDomains c s), (Grants.refl _).closeIfDone,
    (Allocs.refl _).closeIfDone, rfl⟩

theorem allocatorCompletion_znm (c : Completion) (dtMs : Nat) (s : State) : (allocatorCompletion c dtMs s).znm = s.znm := by
  obtain ⟨u, v, checked, closed, -, e⟩ := allocatorCompletion_stages c dtMs s
  obtain ⟨f, burst, -⟩ := updateBurst_grants c dtMs v
  calc (allocatorCompletion c dtMs s).znm = v.znm := by rw [e, grantsOnly_znm burst.only]; rfl
    _ = u.znm := grantsOnly_znm closed.only
    _ = s.znm := grantsOnly_znm checked.only

theorem completionConsumer_cases (c : Completion) (dtMs n : Nat) (s : State) :
    (∃ z : Fin 6, n = z.val ∧ completionConsumer c dtMs n s = evaluateZone z s) ∨
    (n = 6 ∧ completionConsumer c dtMs n s = sourceCompletion c s) ∨
    (n = 7 ∧ completionConsumer c dtMs n s = allocatorCompletion c dtMs s) ∨
    (8 ≤ n ∧ completionConsumer c dtMs n s = s) := by
  unfold completionConsumer
  split
  · exact .inr (.inl ⟨rfl, rfl⟩)
  · exact .inr (.inr (.inl ⟨rfl, rfl⟩))
  · next source allocator =>
    by_cases zone : n < 6
    · have number : index? 6 n = some ⟨n, zone⟩ := dif_pos zone
      rw [number]
      exact .inl ⟨⟨n, zone⟩, rfl, rfl⟩
    · rw [index?_none (Nat.not_lt.mp zone)]
      have other : n ≠ 6 ∧ n ≠ 7 := ⟨source, allocator⟩
      exact .inr (.inr (.inr ⟨by omega, rfl⟩))

theorem completionConsumer_temperature (c : Completion) (dtMs n : Nat) (z : Fin 6) (s : State) :
    ((completionConsumer c dtMs n s).znm.zones.get z).temperature = (s.znm.zones.get z).temperature := by
  rcases completionConsumer_cases c dtMs n s with ⟨y, -, e⟩ | ⟨-, e⟩ | ⟨-, e⟩ | ⟨-, e⟩ <;> rw [e]
  · rw [(evaluateZone_handed y s).zones z]
  · rw [sourceCompletion_znm]
  · rw [allocatorCompletion_znm]

theorem consume_temperature (c : Completion) (dtMs : Nat) (z : Fin 6) (s : State) :
    ((consume c dtMs s).znm.zones.get z).temperature = (s.znm.zones.get z).temperature := by
  unfold consume
  split
  · rfl
  · obtain ⟨v, lines⟩ := judgeGuard_lines c s
    rw [State.linesOnly] at lines
    rw [lines]
  · exact inFreeOrder_keeps (n := 8) (P := fun t => (t.znm.zones.get z).temperature = (s.znm.zones.get z).temperature) rfl
      fun n t _ h => (completionConsumer_temperature c dtMs n z t).trans h

/-! ## Outside RUNNING and DOZING -/

theorem consume_unmanaged {c : Completion} {dtMs : Nat} (h : s.managed = false) :
    (consume c dtMs s).alc = s.alc ∧ (consume c dtMs s).srm = s.srm := by
  unfold consume
  split
  · exact ⟨rfl, rfl⟩
  · obtain ⟨v, lines⟩ := judgeGuard_lines c s
    rw [State.linesOnly] at lines
    rw [lines]
    exact ⟨rfl, rfl⟩
  · next prepare locked =>
    cases mode : s.mdc.mode with
    | prepare => exact absurd mode prepare
    | locked => exact absurd mode locked
    | _ => simp [State.managed, mode, Mode.managed] at h

theorem consume_managed {c : Completion} {dtMs : Nat} (h : s.managed = true) :
    consume c dtMs s = inFreeOrder 8 (completionConsumer c dtMs) s := by
  unfold consume
  split
  · next mode => simp [State.managed, mode, Mode.managed] at h
  · next mode => simp [State.managed, mode, Mode.managed] at h
  · rfl

/-! ## The guard (R182) -/

theorem mem_guardValues {c : Completion} {x : Int} : x ∈ guardValues c s ↔ ∃ n, (s.msu.channels.get n).enabled = true ∧
    (s.msu.channels.get n).kind = .temp ∧ c.values.get n = some x := by
  have mem : ∀ n : Fin 16, n ∈ sixteen := by decide
  simp [guardValues, mem, and_assoc]

/-- The guard claim after a judgement, and the lines that follow it. -/
theorem judgeGuard_facts {c : Completion} {l : ChassisLimits} (limits : s.lst.chassis = some l) :
    ((judgeGuard c s).mdc.guardClaim = true ↔ ∃ x ∈ guardValues c s,
      (if s.mdc.guardClaim then l.guardTemp - 50 else l.guardTemp) ≤ x) ∧
    ((judgeGuard c s).mdc.guardClaim = s.mdc.guardClaim → (judgeGuard c s).clu = s.clu) ∧
    ((judgeGuard c s).mdc.guardClaim ≠ s.mdc.guardClaim → ∀ n, ClampCause.guard ∈ ((judgeGuard c s).clu.get n).causes ↔
      (judgeGuard c s).mdc.guardClaim = true) := by
  have claim : ∀ {v} {w : State}, State.linesOnly (s.setGuard v) w → w.mdc.guardClaim = v := fun {v w} lines => by
    rw [State.linesOnly] at lines
    rw [lines]
    rfl
  unfold judgeGuard
  rw [limits]
  dsimp only
  split
  · next on =>
    rw [on]
    split
    · next cool =>
      have off := claim (linesOnly_withdrawCauseFrom six .guard (s.setGuard false))
      rw [off]
      refine ⟨⟨nofun, ?_⟩, nofun, fun _ n => by simpa using six_cause .guard false (s.setGuard false) n⟩
      rintro ⟨x, hx, hot⟩
      rw [List.all_eq_true] at cool
      have := cool x hx
      simp only [decide_eq_true_eq] at this hot
      omega
    · next hot =>
      rw [on]
      refine ⟨⟨fun _ => ?_, fun _ => rfl⟩, fun _ => rfl, fun ne => absurd rfl ne⟩
      rw [List.all_eq_true] at hot
      obtain ⟨x, hx, warm⟩ : ∃ x ∈ guardValues c s, ¬decide (x < l.guardTemp - 50) = true := by simpa using hot
      refine ⟨x, hx, ?_⟩
      rw [decide_eq_true_eq] at warm
      omega
  · next off =>
    rw [Bool.not_eq_true] at off
    rw [off]
    split
    · next hot =>
      have on := claim (linesOnly_addCauseTo six .guard (s.setGuard true))
      rw [on]
      refine ⟨⟨fun _ => ?_, fun _ => rfl⟩, nofun, fun _ n => by simpa using six_cause .guard true (s.setGuard true) n⟩
      rw [List.any_eq_true] at hot
      obtain ⟨x, hx, warm⟩ := hot
      exact ⟨x, hx, by simpa using warm⟩
    · next cool =>
      rw [off]
      refine ⟨⟨nofun, fun hot => absurd ?_ cool⟩, fun _ => rfl, fun ne => absurd rfl ne⟩
      obtain ⟨x, hx, warm⟩ := hot
      rw [List.any_eq_true]
      exact ⟨x, hx, by simpa using warm⟩

/-! ## Measured powers -/

/-- What a measured power is formed from, and the power itself. -/
def Domain.sensing (d : Domain) : Option Nat × Option (Fin 16) × Option (Fin 16) × Nat := (d.measured, d.sense, d.volt, d.rail)

/-- Every declared domain has its measured power from a completion. -/
def Alc.measuredBy (c : Completion) (a : Alc) : Prop := ∀ i d, a.domains.get i = some d → d.measured = d.measuredIn c

theorem measuredBy_of_sensing {a b : Alc} {c : Completion}
    (same : ∀ i, (b.domains.get i).map Domain.sensing = (a.domains.get i).map Domain.sensing) (h : a.measuredBy c) :
    b.measuredBy c := by
  intro i d slot
  have kept := same i
  rw [slot] at kept
  cases before : a.domains.get i with
  | none => simp [before] at kept
  | some e =>
    rw [before, Option.map_some, Option.map_some, Option.some.injEq, Domain.sensing, Domain.sensing, Prod.mk.injEq, Prod.mk.injEq,
      Prod.mk.injEq] at kept
    obtain ⟨measured, sense, volt, rail⟩ := kept
    rw [measured, h i e before, Domain.measuredIn, Domain.measuredIn, sense, volt, rail]

theorem sensing_of_bases {x y : Option Domain} (h : x.map Domain.base = y.map Domain.base) :
    x.map Domain.sensing = y.map Domain.sensing := by
  have e : ∀ z : Option Domain, z.map Domain.sensing = (z.map Domain.base).map Domain.sensing := fun z => by cases z <;> rfl
  rw [e x, e y, h]

/-- No allocation touches what a power is formed from. -/
theorem Allocs.sensing {C : Prop} (h : Allocs C s t) (i : Fin 6) :
    (t.alc.domains.get i).map Domain.sensing = (s.alc.domains.get i).map Domain.sensing := by
  refine h.keeps (R := fun s t => (t.alc.domains.get i).map Domain.sensing = (s.alc.domains.get i).map Domain.sensing)
    (fun _ => rfl) (fun h k => k.trans h) fun {s t} step => ?_
  cases step with
  | grantNotice reason j s => rw [postGrant_alc]
  | @regrant j d e s slot base granted =>
    simp only [State.setDomain_alc, get_set]
    split
    · next eq =>
      subst eq
      rw [slot, Option.map_some, Option.map_some]
      exact congrArg some (show e.base.sensing = d.base.sensing by rw [base])
    · rfl
  | @ceiling j d c s hC slot =>
    simp only [State.setDomain_alc, get_set]
    split
    · next eq =>
      subst eq
      rw [slot]
      rfl
    · rfl
  | _ => rfl

theorem checked_sensing (d : Domain) (timeMs tolerance : Nat) : (d.checked timeMs tolerance).sensing = d.sensing := by
  unfold Domain.checked
  split
  · rfl
  · split <;> rfl

theorem DomainsChecked.sensing {timeMs : Nat} (h : DomainsChecked timeMs six s t) (i : Fin 6) :
    (t.alc.domains.get i).map Domain.sensing = (s.alc.domains.get i).map Domain.sensing := by
  rw [h.domains, if_pos (mem_six i), Option.map_map]
  exact congrArg (fun f => (s.alc.domains.get i).map f) (funext fun d => checked_sensing d ..)

theorem measureDomains_measured (c : Completion) (s : State) : (measureDomains c s).alc.measuredBy c := by
  intro i d slot
  rw [measureDomains_get, Option.map_eq_some_iff] at slot
  obtain ⟨e, -, rfl⟩ := slot
  rfl

theorem updateBurst_sensing (c : Completion) (dtMs : Nat) (s : State) (i : Fin 6) :
    ((updateBurst c dtMs s).alc.domains.get i).map Domain.sensing = (s.alc.domains.get i).map Domain.sensing := by
  obtain ⟨f, -, allocs⟩ := updateBurst_grants c dtMs s
  exact allocs.sensing i

theorem allocatorCompletion_measured (c : Completion) (dtMs : Nat) (s : State) :
    (allocatorCompletion c dtMs s).alc.measuredBy c := by
  obtain ⟨u, v, checked, -, closed, e⟩ := allocatorCompletion_stages c dtMs s
  refine measuredBy_of_sensing (fun i => ?_) (measureDomains_measured c s)
  rw [e, updateBurst_sensing, closed.sensing i, checked.sensing i]

theorem updateSeverity_alc (s : State) : (updateSeverity s).alc = s.alc := by
  unfold updateSeverity
  dsimp only
  split
  · rfl
  · split
    · have lines := linesOnly_addCauseTo six .source (s.withSrm fun r => { r with severity := s.srm.severe s.managed })
      rw [State.linesOnly] at lines
      rw [lines]
      rfl
    · have lines := linesOnly_withdrawCauseFrom six .source (s.withSrm fun r => { r with severity := s.srm.severe s.managed })
      rw [State.linesOnly] at lines
      rw [lines]
      rfl

theorem handSource_sensing (s : State) (i : Fin 6) :
    ((handSource s).alc.domains.get i).map Domain.sensing = (s.alc.domains.get i).map Domain.sensing := by
  rcases handSource_grants s with same | ⟨-, allocs⟩
  · rw [same]
  · exact allocs.sensing i

theorem sourceCompletion_sensing (c : Completion) (s : State) (i : Fin 6) :
    ((sourceCompletion c s).alc.domains.get i).map Domain.sensing = (s.alc.domains.get i).map Domain.sensing := by
  unfold sourceCompletion sourceChanged
  dsimp only
  split
  · rfl
  · rw [handSource_sensing, show (postSource (updateSeverity _)).alc = _ from updateSeverity_alc _]
    rfl

/-- After the consumers every domain has its measured power. -/
theorem consume_measured {c : Completion} {dtMs : Nat} (managed : s.managed = true) : (consume c dtMs s).alc.measuredBy c := by
  rw [consume_managed managed]
  refine inFreeOrder_makes (n := 8) (k := 7) (P := fun _ => True) (Q := fun t => t.alc.measuredBy c) (by omega) trivial
    (fun _ _ _ _ => trivial) (fun t _ => allocatorCompletion_measured c dtMs t) fun n t _ _ h => ?_
  rcases completionConsumer_cases c dtMs n t with ⟨y, -, e⟩ | ⟨-, e⟩ | ⟨-, e⟩ | ⟨-, e⟩ <;> rw [e]
  · exact measuredBy_of_sensing (fun i => sensing_of_bases ((evaluateZone_handed y t).bases i)) h
  · exact measuredBy_of_sensing (sourceCompletion_sensing c t) h
  · exact allocatorCompletion_measured c dtMs t
  · exact h

end Sys2Proof.Machine

/-! PROOFS. The end of a channel's conversion (R21, R23, R29, R30, R32). -/

namespace Sys2Proof.Machine

variable {s t u : State}

/-! ## The raw count acts -/

/-- A channel after a conversion on it. -/
def ChannelConversion.gives (v : ChannelConversion) (raw : Nat) (old : Channel) : Channel :=
  if v.discard then old else old.convert raw v.gain v.offset

/-- The state in which a measurement scan goes on after a conversion: the raw has acted, and a passage into FAULT is
detected. -/
def State.converted (raw : Nat) (v : ChannelConversion) (s : State) : State :=
  let old := s.msu.channels.get v.channel
  let new := v.gives raw old
  let channels : State := { s.reach v.doneAt with msu := { s.msu with channels := s.msu.channels.set v.channel new } }
  if v.discard = false ∧ old.state = .valid ∧ new.state = .fault then detect .channel v.channel channels else channels

theorem endChannelConversion_converted (raw : Nat) (v : ChannelConversion) (s : State) :
    endChannelConversion raw v (s.reach v.doneAt) = finishScan (advanceScan (s.converted raw v)) := by
  have acted : (if v.discard then s.reach v.doneAt else convertChannel v.channel raw v.gain v.offset (s.reach v.doneAt)) =
      s.converted raw v := by
    unfold State.converted ChannelConversion.gives
    cases discard : v.discard with
    | true => simp [set_get_self, State.reach]
    | false =>
      simp only [Bool.false_eq_true, if_false, true_and]
      rfl
  rw [endChannelConversion, acted]

theorem exec_channelConversionEnd {raw : BitVec 12} {m : MeasScan} {v : ChannelConversion} (scan : s.msu.scan = some m)
    (current : m.current = some v) :
    exec (.channelConversionEnd raw) s = .next (finishScan (advanceScan (s.converted raw.toNat v))) := by
  have converting : s.converting = some v := by rw [State.converting, scan]; exact current
  have row : exec (.channelConversionEnd raw) s = .next (endChannelConversion raw.toNat v (s.reach v.doneAt)) := by
    show execChannelConversionEnd raw s = _
    rw [execChannelConversionEnd, converting]
  rw [row, endChannelConversion_converted]

/-- The raw reaches the channel, the fault records and the notices. -/
structure Converted (raw : Nat) (v : ChannelConversion) (s t : State) : Prop where
  rest : t = { s with
    now := max s.now v.doneAt, msu := { s.msu with channels := t.msu.channels }, slk := t.slk
    mdc := { s.mdc with faults := t.mdc.faults } }
  channels : t.msu.channels = s.msu.channels.set v.channel (v.gives raw (s.msu.channels.get v.channel))
  detected : v.discard = false → (s.msu.channels.get v.channel).state = .valid →
    (v.gives raw (s.msu.channels.get v.channel)).state = .fault →
    t.mdc.faults.get 0 = { s.mdc.faults.get 0 with detected := true, subject := some v.channel.val }

theorem converted_facts (raw : Nat) (v : ChannelConversion) (s : State) : Converted raw v s (s.converted raw v) := by
  unfold State.converted
  dsimp only
  split
  · obtain ⟨notices, faults⟩ := detect_only .channel v.channel { s.reach v.doneAt with msu := { s.msu with
      channels := s.msu.channels.set v.channel (v.gives raw (s.msu.channels.get v.channel)) } }
    rw [State.noticesOnly] at notices
    refine ⟨?_, ?_, fun _ _ _ => ?_⟩
    · rw [notices]
      rfl
    · rw [notices]
    · rw [faults]
      exact (get_set ..).trans (if_pos rfl)
  · next quiet => exact ⟨rfl, rfl, fun used valid fault => absurd ⟨used, valid, fault⟩ quiet⟩

/-! ## The scan goes on or completes -/

theorem advanceScan_next {m : MeasScan} {skipped l : List (Fin 16)} {c : Fin 16} (scan : s.msu.scan = some m)
    (todo : m.todo = skipped ++ c :: l) (off : ∀ x ∈ skipped, (s.msu.channels.get x).enabled = false)
    (on : (s.msu.channels.get c).enabled = true) :
    advanceScan s = { s with msu := { s.msu with scan := (s.msu.measures s.now c l).scan } } := by
  have next := nextConversion_passes_over s.msu.channels s.now skipped (c :: l) off
  cases kind : (s.msu.channels.get c).kind <;>
    simp [advanceScan, State.withMsu, scan, todo, next, nextConversion, on, Msu.measures, kind, conversionTime, ms]

/-- The state in which the consumers find a completion. -/
def State.ready (c : Completion) (s : State) : State :=
  deriveZones c { s with msu := { s.msu with scan := none, last := c } }

theorem finishScan_spent {m : MeasScan} (scan : s.msu.scan = some m) (measuring : s.msu.frontEnd = .measuring)
    (off : ∀ x ∈ m.todo, (s.msu.channels.get x).enabled = false) :
    finishScan (advanceScan s) = handOnFrontEnd (consume s.completionNow (s.completionNow.timeMs - s.msu.last.timeMs)
      (s.ready s.completionNow)) := by
  have advanced : advanceScan s = { s with msu := { s.msu with scan := some { todo := [], current := none } } } := by
    simp [advanceScan, State.withMsu, scan, nextConversion_of_disabled _ s.now _ off]
  have spent : (advanceScan s).scanSpent = true := by
    rw [advanced, State.scanSpent, measuring]
    rfl
  rw [finishScan, if_pos spent, advanced]
  rfl

/-- What a completion leaves when the front end has been handed on. -/
structure HandedOn (c : Completion) (s t : State) : Prop where
  channels : t.msu.channels = s.msu.channels
  last : t.msu.last = c
  scan : t.msu.scan = none
  faults : t.mdc.faults = s.mdc.faults
  temperature : ∀ z, (t.znm.zones.get z).temperature = ((s.ready c).znm.zones.get z).temperature
  measured : s.managed = true → t.alc.measuredBy c
  unmanaged : s.managed = false → t.alc = s.alc ∧ t.srm = s.srm
  free : s.msu.claim = .unclaimed → t.msu.frontEnd = .free

theorem handOnFrontEnd_handed (c : Completion) (dtMs : Nat) (s : State) :
    HandedOn c s (handOnFrontEnd (consume c dtMs (s.ready c))) := by
  obtain ⟨u, hu⟩ : ∃ u, u = consume c dtMs (s.ready c) := ⟨_, rfl⟩
  have consuming : Consuming (s.ready c) u := hu ▸ consume_consuming c dtMs (s.ready c)
  have front := handOnFrontEnd_front u
  have msu : u.msu.channels = s.msu.channels ∧ u.msu.last = c ∧ u.msu.scan = none := by
    rcases consuming.units with ⟨-, msu, -⟩ | ⟨-, msu⟩
    · rw [msu]
      exact ⟨rfl, rfl, rfl⟩
    · rw [msu]
      unfold Msu.stopped Msu.freed
      dsimp only
      split
      · exact ⟨rfl, rfl, rfl⟩
      · split
        · split <;> exact ⟨rfl, rfl, rfl⟩
        · exact ⟨rfl, rfl, rfl⟩
  obtain ⟨channels, last, scan⟩ := msu
  rw [← hu]
  refine ⟨front.channels.trans channels, front.last.trans last, front.scan scan, ?_, fun z => ?_, fun managed => ?_, fun open_ => ?_,
    fun claim => ?_⟩
  · rw [front.rest]
    exact consuming.faults
  · rw [front.rest, hu]
    exact consume_temperature c dtMs z (s.ready c)
  · rw [front.rest, hu]
    exact consume_measured managed
  · rw [front.rest, hu]
    exact consume_unmanaged (s := s.ready c) open_
  · have unclaimed : u.msu.claim = .unclaimed := by
      rw [hu, consume_msu (s := s.ready c) claim]
      exact claim
    rw [handOnFrontEnd_unclaimed unclaimed]

/-- The front end handed on to a contact scan that has been paused or waits, unless the part has woken. -/
theorem handOnFrontEnd_contact {c : Completion} {dtMs i : Nat} {sc : ContactScan} {target : ContactTarget}
    (claim : s.msu.claim = .paused ∨ s.msu.claim = .waiting) (scan : s.csu.scan = some sc)
    (next : s.csu.nextTarget sc.grouped sc.next = some (i, target))
    (awake : (handOnFrontEnd (consume c dtMs (s.ready c))).mdc.mode = s.mdc.mode) :
    let t := handOnFrontEnd (consume c dtMs (s.ready c))
    t.msu.frontEnd = .sensing ∧ t.msu.claim = .running ∧ t.csu.scan = some { sc with
      next := i + 1
      current := some { target := target, doneAt := s.now + 250 * 2 ^ (s.csu.resolution - 9), discard := false } } := by
  obtain ⟨u, hu⟩ : ∃ u, u = consume c dtMs (s.ready c) := ⟨_, rfl⟩
  have consuming : Consuming (s.ready c) u := hu ▸ consume_consuming c dtMs (s.ready c)
  rw [← hu] at awake ⊢
  rw [(handOnFrontEnd_front u).rest] at awake
  obtain ⟨-, msu, csu⟩ := consuming.units.resolve_right fun moved => moved.1 awake
  have now : u.now = s.now := consuming.now
  have csu : u.csu = s.csu := csu
  have claim : u.msu.claim = .paused ∨ u.msu.claim = .waiting := by
    rw [msu]
    exact claim
  have handed : handOnFrontEnd u = continueContact ((u.withMsu fun m => { m with frontEnd := .free }).setClaim .running) :=
    if_pos claim
  have goes := continueContact_next (s := (u.withMsu fun m => { m with frontEnd := .free }).setClaim .running)
    (by rw [← scan, ← csu]; rfl) (by rw [← next, ← csu]; rfl)
  rw [handed, goes]
  refine ⟨rfl, rfl, ?_⟩
  show some _ = some _
  rw [← csu, ← now]
  rfl

/-- A contact scan of which nothing is left completes as the front end comes to it. -/
theorem handOnFrontEnd_ends {sc : ContactScan} (scan : u.csu.scan = some sc) (claim : u.msu.claim = .paused ∨ u.msu.claim = .waiting)
    (still : u.msu.pendingMeas = false) (left : u.csu.nextTarget sc.grouped sc.next = none) :
    handOnFrontEnd u = { ({ u with csu := { u.csu with scan := none } } : State).contactCompleted sc.grouped sc.measured with
      msu := { u.msu with frontEnd := .free, claim := .unclaimed } } := by
  have handed : handOnFrontEnd u = continueContact { u with msu := { u.msu with frontEnd := .free, claim := .running } } :=
    if_pos claim
  rw [handed, continueContact_ends (s := { u with msu := { u.msu with frontEnd := .free, claim := .running } }) scan left,
    endContact_frees (s := { u with msu := { u.msu with frontEnd := .free, claim := .running } }) sc.grouped sc.measured still]
  have same := contactCompleted_msu sc.grouped sc.measured { u with csu := { u.csu with scan := none } }
    { u.msu with frontEnd := .free, claim := .running }
  rw [show State.contactCompleted sc.grouped sc.measured _ = _ from same]

end Sys2Proof.Machine

/-! PROOFS. The statement on the end of a channel's conversion (R21 to R34, R109, R145, R148, R182). -/

namespace Sys2Proof.Machine

/-- A list of channels either holds no enabled one, or has a first. -/
theorem first_enabled (on : Fin 16 → Bool) (l : List (Fin 16)) : (∀ x ∈ l, on x = false) ∨
    ∃ skipped c rest, l = skipped ++ c :: rest ∧ (∀ x ∈ skipped, on x = false) ∧ on c = true := by
  induction l with
  | nil => exact .inl (by simp)
  | cons a l ih =>
    cases h : on a with
    | true => exact .inr ⟨[], a, l, rfl, by simp, h⟩
    | false =>
      rcases ih with off | ⟨skipped, c, rest, e, off, hc⟩
      · exact .inl (by simpa [h] using off)
      · exact .inr ⟨a :: skipped, c, rest, by rw [e]; rfl, by simpa [h] using off, hc⟩

section
variable {s t : State} {raw : Nat} {m : MeasScan} {v : ChannelConversion} (scan : s.msu.scan = some m)
  (measuring : s.msu.frontEnd = .measuring) (conv : Converted raw v s t)
include scan conv

theorem Converted.goesOn {skipped l : List (Fin 16)} {c : Fin 16} (todo : m.todo = skipped ++ c :: l)
    (off : ∀ x ∈ skipped, (t.msu.channels.get x).enabled = false) (on : (t.msu.channels.get c).enabled = true) :
    finishScan (advanceScan t) = { t with msu := { t.msu with scan := (t.msu.measures t.now c l).scan } } := by
  have scan' : t.msu.scan = some m := by rw [conv.rest]; exact scan
  rw [advanceScan_next scan' todo off on]
  exact finishScan_of_converting rfl rfl

include measuring

theorem Converted.spends (off : ∀ x ∈ m.todo, (t.msu.channels.get x).enabled = false) :
    finishScan (advanceScan t) = handOnFrontEnd (consume t.completionNow (t.completionNow.timeMs - s.msu.last.timeMs)
      (t.ready t.completionNow)) := by
  have scan' : t.msu.scan = some m := by rw [conv.rest]; exact scan
  have measuring' : t.msu.frontEnd = .measuring := by rw [conv.rest]; exact measuring
  have last : t.msu.last = s.msu.last := by rw [conv.rest]
  rw [finishScan_spent scan' measuring' off, last]

/-- Whether the scan goes on or completes, channels and faults stay as the conversion left them. -/
theorem Converted.kept : (finishScan (advanceScan t)).msu.channels = t.msu.channels ∧
    (finishScan (advanceScan t)).mdc.faults = t.mdc.faults := by
  rcases first_enabled (fun x => (t.msu.channels.get x).enabled) m.todo with off | ⟨skipped, c, l, todo, off, on⟩
  · rw [conv.spends scan measuring off]
    have handed := handOnFrontEnd_handed t.completionNow (t.completionNow.timeMs - s.msu.last.timeMs) t
    exact ⟨handed.channels, handed.faults⟩
  · rw [conv.goesOn scan todo off on]
    exact ⟨rfl, rfl⟩

end

/-- The temperatures that a completion's consumers find, in the words of the statement. -/
theorem ready_temperature (c : Completion) (s : State) (z : Fin 6) : ((s.ready c).znm.zones.get z).temperature =
    if (s.znm.zones.get z).enabled = true ∧ (s.znm.zones.get z).source = .channels then
      ((s.znm.zones.get z).channels.filterMap fun n => if c.states.get n = .valid then c.values.get n else none).max?
    else (s.znm.zones.get z).temperature := by
  simp only [State.ready, deriveZones, State.mapZones, State.withZnm, get_tabulate, Zone.derive, Zone.readings, highest_eq_max?]
  split <;> rfl

/-- The guard after a completion in LOCKED has been handed on. -/
theorem handOnFrontEnd_guard {c : Completion} {dtMs : Nat} {s : State} {l : ChassisLimits} (locked : s.mdc.mode = .locked)
    (limits : s.lst.chassis = some l) :
    let t := handOnFrontEnd (consume c dtMs (s.ready c))
    let hot := fun (bound : Int) => ∃ n x, (s.msu.channels.get n).enabled = true ∧ (s.msu.channels.get n).kind = .temp ∧
      c.values.get n = some x ∧ bound ≤ x
    (t.mdc.guardClaim = true ↔ if s.mdc.guardClaim then hot (l.guardTemp - 50) else hot l.guardTemp) ∧
      (t.mdc.guardClaim = s.mdc.guardClaim → t.clu = s.clu) ∧
      (t.mdc.guardClaim ≠ s.mdc.guardClaim →
        ∀ n, ClampCause.guard ∈ (t.clu.get n).causes ↔ t.mdc.guardClaim = true) := by
  intro t hot
  have judged : consume c dtMs (s.ready c) = judgeGuard c (s.ready c) := by
    unfold consume
    rw [show (s.ready c).mdc.mode = .locked from locked]
  have front := (handOnFrontEnd_front (consume c dtMs (s.ready c))).rest
  obtain ⟨claim, still, moved⟩ := judgeGuard_facts (c := c) (s := s.ready c) limits
  have same : t.mdc = (judgeGuard c (s.ready c)).mdc ∧ t.clu = (judgeGuard c (s.ready c)).clu := by
    rw [← judged, show t = _ from front]
    exact ⟨rfl, rfl⟩
  rw [same.1, same.2]
  refine ⟨claim.trans ?_, still, moved⟩
  have found : ∀ bound : Int, (∃ x ∈ guardValues c (s.ready c), bound ≤ x) ↔ hot bound := fun bound => by
    simp only [mem_guardValues]
    constructor
    · rintro ⟨x, ⟨n, enabled, kind, value⟩, le⟩
      exact ⟨n, x, enabled, kind, value, le⟩
    · rintro ⟨n, x, enabled, kind, value, le⟩
      exact ⟨x, ⟨n, enabled, kind, value⟩, le⟩
  rw [found, show (s.ready c).mdc.guardClaim = s.mdc.guardClaim from rfl]
  cases s.mdc.guardClaim <;> exact Iff.rfl

/-- The order in which the consumers act holds each of them once. -/
theorem orderOf_perm (n : Nat) (choice : List Nat) : (orderOf n choice).Perm (List.range n) :=
  (List.perm_ext_iff_of_nodup (nodup_orderOf ..) List.nodup_range).mpr fun k => by simp

/-- The consumers of a completion by their numbers. -/
theorem consume_order (c : Completion) (dtMs : Nat) {s : State} (managed : s.managed = true) :
    consume c dtMs s = (orderOf 8 (s.choices.headD [])).foldl (fun u n => if n = 6 then sourceCompletion c u
      else if n = 7 then allocatorCompletion c dtMs u else evaluateZone (Fin.ofNat 6 n) u) { s with choices := s.choices.tail } := by
  rw [consume_managed managed, inFreeOrder, State.takeChoice]
  refine List.foldl_ext _ _ _ fun u n hn => ?_
  rw [mem_orderOf] at hn
  rcases completionConsumer_cases c dtMs n u with ⟨z, number, e⟩ | ⟨number, e⟩ | ⟨number, e⟩ | ⟨beyond, -⟩
  · have zone : Fin.ofNat 6 n = z := by
      rw [number]
      exact Fin.ext (Nat.mod_eq_of_lt z.isLt)
    rw [e, if_neg (by omega), if_neg (by omega), zone]
  · rw [e, if_pos number]
  · rw [e, if_neg (by omega), if_pos number]
  · omega

/-- A domain's compliance check in the words of the statement: `p` is its measured power. -/
theorem checked_cases {d : Domain} {p : Option Nat} (timeMs tolerance : Nat) :
    let e : Domain := { d with measured := p }
    let compliant : Prop := ∃ x, p = some x ∧ x ≤ d.grant.getD 0 + tolerance
    let held : Prop := d.state = .clamped ∨ d.state = .overdue
    (d.state = .revoking → compliant → e.settlesAt timeMs tolerance = true) ∧
    (d.state = .revoking → ¬compliant → e.checked timeMs tolerance = e) ∧
    (held → ¬compliant → e.checked timeMs tolerance = { e with holdStart := none }) ∧
    (held → compliant → d.holdStart = none → e.checked timeMs tolerance = { e with holdStart := some timeMs }) ∧
    (∀ h, held → compliant → d.holdStart = some h → (timeMs < h + 200 → e.checked timeMs tolerance = e) ∧
      (h + 200 ≤ timeMs → e.settlesAt timeMs tolerance = true)) ∧
    (d.state = .unmanaged ∨ d.state = .settled → e.checked timeMs tolerance = e) := by
  intro e compliant held
  have complies : e.compliant tolerance = true ↔ compliant := compliant_iff
  have state : e.state = d.state := rfl
  have hold : e.holdStart = d.holdStart := rfl
  have fails : ¬compliant → e.settlesAt timeMs tolerance = false := fun h => by
    rw [Domain.settlesAt, Bool.eq_false_iff.mpr (mt complies.mp h)]
    rfl
  refine ⟨fun revoking h => ?_, fun revoking h => checked_still (fails h) (by rw [state, revoking]; decide), fun back h => ?_,
    fun back h start => ?_, fun x back h start => ⟨fun early => ?_, fun late => ?_⟩, fun free => ?_⟩
  · simp [Domain.settlesAt, complies.mpr h, state, revoking]
  · rw [checked_held (fails h) back, Bool.eq_false_iff.mpr (mt complies.mp h)]
    rfl
  · have still : e.settlesAt timeMs tolerance = false := by
      rcases back with b | b <;> simp [Domain.settlesAt, state, b, hold, start]
    rw [checked_held still back, complies.mpr h, hold, start]
    rfl
  · have still : e.settlesAt timeMs tolerance = false := by
      rcases back with b | b <;> simp [Domain.settlesAt, state, b, hold, start, early]
    rw [checked_held still back, complies.mpr h, hold, start]
    show ({ e with holdStart := some x } : Domain) = e
    rw [← start]
  · rcases back with b | b <;> simp [Domain.settlesAt, complies.mpr h, state, b, hold, start, late]
  · have still : e.settlesAt timeMs tolerance = false := by
      rcases free with b | b <;> simp [Domain.settlesAt, state, b]
    exact checked_still still (by rcases free with b | b <;> rw [state, b] <;> decide)

end Sys2Proof.Machine

/-! PROOFS. The statement on the end of a channel's conversion, assembled (R21 to R34, R109, R145, R148, R182). -/

namespace Sys2Proof.Machine

/-- The compliance checks at a completion, in the words of the statement. -/
theorem allocatorCompletion_checks (c : Completion) (s : State) :
    ∃ u, u = six.foldl (fun t i => checkDomain c.timeMs i t) (measureDomains c s) ∧ s.grantsOnly u ∧ u.alc.round = s.alc.round ∧
    ∀ i d, s.alc.domains.get i = some d →
      u.alc.domains.get i = some (({ d with measured := d.measuredIn c } : Domain).checked c.timeMs s.active.tolerance) ∧
      (({ d with measured := d.measuredIn c } : Domain).settlesAt c.timeMs s.active.tolerance = true →
        u.alc.domains.get i = some ({ d with measured := d.measuredIn c } : Domain).settledNow ∧
        ∀ n, d.line = some n → ClampCause.overdue ∉ (u.clu.get n).causes) := by
  obtain ⟨u, hu⟩ : ∃ u, u = six.foldl (fun t i => checkDomain c.timeMs i t) (measureDomains c s) := ⟨_, rfl⟩
  have checked : DomainsChecked c.timeMs six (measureDomains c s) u := hu ▸ checkDomains_checked c.timeMs six (by decide) _
  have measured : s.grantsOnly (measureDomains c s) := rfl
  refine ⟨u, hu, grantsOnly_trans measured checked.only, ?_, fun i d slot => ?_⟩
  · rw [checked.alc]
    rfl
  · have before : (measureDomains c s).alc.domains.get i = some { d with measured := d.measuredIn c } := by
      rw [measureDomains_get, slot]
      rfl
    have after : u.alc.domains.get i =
        some (({ d with measured := d.measuredIn c } : Domain).checked c.timeMs s.active.tolerance) := by
      rw [checked.domains, if_pos (mem_six i), before]
      rfl
    refine ⟨after, fun settles => ⟨?_, fun n line => checked.released i (mem_six i) _ before settles n line⟩⟩
    rw [after, checked_settles settles]

/-- The state in which the consumers act, written out from the channels' records after the step. -/
theorem ready_of_channels {s t : State} {raw : Nat} {v : ChannelConversion} {c : Completion}
    (h : t.msu.channels = s.msu.channels.set v.channel (v.gives raw (s.msu.channels.get v.channel))) :
    (let channels : State := { s.reach v.doneAt with msu := { s.msu with channels := t.msu.channels } }
    let told := if v.discard = false ∧ (s.msu.channels.get v.channel).state = .valid ∧
        (v.gives raw (s.msu.channels.get v.channel)).state = .fault then detect .channel v.channel channels
      else channels
    deriveZones c { told with msu := { told.msu with scan := none, last := c } }) = (s.converted raw v).ready c := by
  rw [h]
  rfl

/-- Settles O24: the raw acts, the scan goes on or completes; what its consumers and the front end then do. -/
theorem conversionEndActsAndGoesOn : Obligations.ConversionEndActsAndGoesOn := by
  unfold Obligations.ConversionEndActsAndGoesOn
  intro power
  have power_eq : ∀ c d, power c d = Domain.measuredIn d c := fun c d => (measuredIn_eq c d).symm
  refine ⟨fun raw m v s scan current measuring => ?_, fun sc u scan claim still single multi => ?_, fun c dtMs s => ?_,
    fun c dtMs s => ?_⟩
  · intro old new now
    obtain ⟨t0, ht0⟩ : ∃ t0, t0 = s.converted raw.toNat v := ⟨_, rfl⟩
    have conv : Converted raw.toNat v s t0 := ht0 ▸ converted_facts raw.toNat v s
    have ran := exec_channelConversionEnd (raw := raw) scan current
    rw [← ht0] at ran
    have channels : t0.msu.channels = s.msu.channels.set v.channel new := conv.channels
    obtain ⟨kept, faults⟩ := conv.kept scan measuring
    refine ⟨_, ran, kept.trans channels, fun used valid fault => ?_, fun skipped c l todo off on => ?_, fun off => ?_⟩
    · rw [faults]
      exact conv.detected used valid fault
    · rw [← channels] at off on
      rw [conv.goesOn scan todo off on]
      have msu : t0.msu = { s.msu with channels := t0.msu.channels } := by rw [conv.rest]
      refine ⟨by rw [conv.rest], by rw [msu]; exact measuring, by rw [msu], by rw [conv.rest], by rw [conv.rest], ?_⟩
      have time : t0.now = now := by rw [conv.rest]
      rw [← channels, ← time]
      exact ⟨_, rfl, rfl, rfl, rfl, rfl, rfl⟩
    · rw [← channels] at off
      obtain ⟨t, ht⟩ : ∃ t, t = finishScan (advanceScan t0) := ⟨_, rfl⟩
      rw [← ht] at kept ⊢
      have spends := ht.trans (conv.spends scan measuring off)
      obtain ⟨c, hc⟩ : ∃ c, c = t0.completionNow := ⟨_, rfl⟩
      rw [← hc] at spends
      obtain ⟨dtMs, hdt⟩ : ∃ dtMs, dtMs = c.timeMs - s.msu.last.timeMs := ⟨_, rfl⟩
      rw [← hdt] at spends
      have handed : HandedOn c t0 t := spends ▸ handOnFrontEnd_handed c dtMs t0
      have time : t0.now = now := by rw [conv.rest]
      have before : t0.msu.last = s.msu.last := by rw [conv.rest]
      have mode : t0.mdc.mode = s.mdc.mode := by rw [conv.rest]
      have managed : t0.managed = s.managed := by rw [State.managed, mode]; rfl
      intro last
      have last_eq : last = c := handed.last
      rw [last_eq]
      refine ⟨handed.scan, ?_, ?_, fun n => ?_, fun claim => handed.free (by rw [conv.rest]; exact claim), fun z => ?_, fun l locked limits => ?_,
        ?_, fun on i d slot => ?_, fun sc claim scan' awake => ?_, fun off => ?_⟩
      · rw [hc, State.completionNow, before]
      · rw [hc, State.completionNow, State.nowMs, time]
      · rw [handed.channels, hc]
        exact ⟨get_tabulate .., get_tabulate ..⟩
      · intro y
        have znm : t0.znm = s.znm := by rw [conv.rest]
        rw [handed.temperature, ready_temperature, znm]
      · have guard := handOnFrontEnd_guard (c := c) (dtMs := dtMs) (s := t0) (mode.trans locked) (by rw [conv.rest]; exact limits)
        rw [← spends] at guard
        have clu : t0.clu = s.clu := by rw [conv.rest]
        have claim : t0.mdc.guardClaim = s.mdc.guardClaim := by rw [conv.rest]
        rw [claim, clu, ← handed.channels] at guard
        exact guard
      · intro channels' told ready
        rw [← hdt]
        refine spends.trans (congrArg (fun x => handOnFrontEnd (consume c dtMs x)) ?_)
        rw [ht0]
        exact (ready_of_channels (handed.channels.trans channels)).symm
      · rw [power_eq]
        exact handed.measured (managed.trans on) i d slot
      · intro goesOn
        have csu : t0.csu = s.csu := by rw [conv.rest]
        have goes : ∀ {i target}, s.csu.nextTarget sc.grouped sc.next = some (i, target) → goesOn (i + 1) target :=
          fun {i target} next => by
            have on := handOnFrontEnd_contact (c := c) (dtMs := dtMs) (s := t0) (by rw [conv.rest]; exact claim) (csu ▸ scan')
              (csu ▸ next) (by rw [← spends, mode]; exact awake)
            rw [← spends, time, csu] at on
            exact on
        refine ⟨fun j single le on least => goes ?_, fun g multi le held least => goes ?_⟩
        · rw [single]
          exact nextTarget_electrode le on least
        · rw [multi]
          exact nextTarget_group le held least
      · obtain ⟨alc, srm⟩ := handed.unmanaged (managed.trans off)
        rw [alc, srm, conv.rest]
        exact ⟨rfl, rfl⟩
  · have left : u.csu.nextTarget sc.grouped sc.next = none := by
      rw [← Option.not_isSome_iff_eq_none]
      cases kind : sc.grouped with
      | false =>
        rw [nextTarget_electrode_isSome]
        rintro ⟨k, le, on⟩
        exact absurd ((single kind k le).symm.trans on) (by decide)
      | true =>
        rw [nextTarget_group_isSome]
        rintro ⟨k, le, held⟩
        exact held (multi kind k le)
    exact handOnFrontEnd_ends scan claim still left
  · intro act order
    refine ⟨orderOf_perm .., fun prepare => ?_, fun managed => consume_order c dtMs managed⟩
    unfold consume
    rw [prepare]
  · intro judged
    obtain ⟨u, hu, only, round, checks⟩ := allocatorCompletion_checks c s
    have same : judged = u := hu.symm
    have stages : allocatorCompletion c dtMs s = updateBurst c dtMs (closeIfDone judged) := by
      rw [same, hu, allocatorCompletion]
    rw [← same] at only round checks
    clear_value judged
    refine ⟨stages, only, round, ?_⟩
    intro i d slot p compliant becomes settles held
    obtain ⟨checked, releases⟩ := checks i d slot
    obtain ⟨revokes, refused, fails, starts, holds, free⟩ := checked_cases (d := d) (p := d.measuredIn c) c.timeMs s.active.tolerance
    have measured : p = d.measuredIn c := power_eq c d
    have complies : compliant ↔ ∃ x, d.measuredIn c = some x ∧ x ≤ d.grant.getD 0 + s.active.tolerance := by
      rw [← measured]
    have settled_of : ({ d with measured := d.measuredIn c } : Domain).settlesAt c.timeMs s.active.tolerance = true → settles :=
      fun h => by
        obtain ⟨slot, line⟩ := releases h
        refine ⟨slot.trans ?_, line⟩
        rw [measured]
        rfl
    have told : ∀ {f : Domain}, ({ d with measured := d.measuredIn c } : Domain).checked c.timeMs s.active.tolerance =
        { f with measured := d.measuredIn c } → becomes f := fun {f} h => by
      show judged.alc.domains.get i = some ({ f with measured := p } : Domain)
      rw [measured]
      exact checked.trans (congrArg some h)
    refine ⟨fun h k => settled_of (revokes h (complies.mp k)), fun h k => told (refused h (mt complies.mpr k)),
      fun h k => told (fails h (mt complies.mpr k)), fun h k x => told (starts h (complies.mp k) x), fun x h k y => ?_,
      fun h => told (free h)⟩
    obtain ⟨early, late⟩ := holds x h (complies.mp k) y
    exact ⟨fun b => told (early b), fun b => settled_of (late b)⟩

end Sys2Proof.Machine

/-! PROOFS. The books of the grant table: what its domains, the round and the raise queue satisfy together, and the changes of
one domain that keep it (sections 7.3, 7.4 and 8.2; R113, R130, R139). -/

namespace Sys2Proof.Machine

/-! ## The table's invariants -/

/-- Every domain of a managed table is as declarations leave it and holds its floor (R120, R122). -/
structure Alc.Floored (a : Alc) : Prop where
  sound : a.allDomains Domain.sound = true
  holds : a.allDomains Domain.holdsFloor = true

/-- Grants and reservation stay within B (R113). -/
def Alc.Fits (a : Alc) : Prop := a.taken ≤ a.budget.effective.getD 0

/-- The round record agrees with the domains, but for a round that has nobody left to wait for (R139, R141, R149). -/
structure Alc.Rounded (a : Alc) : Prop where
  revokes : ∀ i, a.revoking i = true → a.round.opened = true
  lists : ∀ i, a.revoking i = true → a.round.lists i = true
  once : (a.round.affected.map (·.slot)).Nodup
  declared : ∀ e ∈ a.round.affected, (a.domains.get e.slot).isSome = true
  clear : a.round.opened = false → a.round = a.round.closed
  owned : a.round.reservation ≠ 0 → a.round.beneficiary ≠ none
  held : ∀ i, a.round.beneficiary = some i → a.entry i ∧ a.round.reservation ≤ (a.domains.get i).elim 0 Domain.shortfall

/-- An open round waits for a domain (R149). -/
def Alc.Pends (a : Alc) : Prop := a.round.opened = true → ∃ i, a.revoking i = true

/-- The queue is in step with every domain. -/
abbrev Alc.InStep (a : Alc) : Prop := a.Queued fun _ => False

/-- Round and queue of a managed table agree with its domains. -/
structure Alc.Booked (a : Alc) : Prop where
  rounded : a.Rounded
  pends : a.Pends
  inStep : a.InStep

theorem roundOk_iff {a : Alc} : RoundOk a ↔ a.Rounded ∧ a.Pends := by
  constructor
  · rintro ⟨open_, lists, once, declared, clear, owned, held⟩
    exact ⟨⟨fun i h => open_.mpr ⟨i, h⟩, lists, once, declared, clear, owned, held⟩, open_.mp⟩
  · rintro ⟨⟨revokes, lists, once, declared, clear, owned, held⟩, pends⟩
    exact ⟨⟨pends, fun ⟨i, h⟩ => revokes i h⟩, lists, once, declared, clear, owned, held⟩

theorem Alc.Queued.mono {a : Alc} {p q : Fin 6 → Prop} (h : a.Queued p) (le : ∀ i, p i → q i) : a.Queued q :=
  ⟨h.order, h.once, h.fits, fun i hi => h.waits i fun b => hi (le i b)⟩

namespace Alc.Floored

variable {a b : Alc} {i : Fin 6} {d e : Domain}

theorem domain (h : a.Floored) (slot : a.domains.get i = some d) : d.sound = true ∧ d.holdsFloor = true :=
  ⟨allDomains_iff.mp h.sound i d slot, allDomains_iff.mp h.holds i d slot⟩

theorem ofDomains (h : ∀ i d, a.domains.get i = some d → d.sound = true ∧ d.holdsFloor = true) : a.Floored :=
  ⟨allDomains_iff.mpr fun i d slot => (h i d slot).1, allDomains_iff.mpr fun i d slot => (h i d slot).2⟩

theorem same (h : a.Floored) (domains : b.domains = a.domains) : b.Floored :=
  ofDomains fun i d slot => h.domain (i := i) (by rw [← domains]; exact slot)

/-- One domain replaced by another that holds its floor. -/
theorem replace (h : a.Floored) (domains : b.domains = a.domains.set i (some e)) (sound : e.sound = true)
    (holds : e.holdsFloor = true) : b.Floored := by
  refine ofDomains fun j x slot => ?_
  rw [domains, get_set] at slot
  split at slot
  · cases slot
    exact ⟨sound, holds⟩
  · exact h.domain slot

theorem floors_le_grants (h : a.Floored) : a.floorSum ≤ a.grantSum := by
  rw [grantSum_eq, floorSum_eq]
  exact sumSix_le fun i => (floor_le_trimmed h.holds i).trans trimmed_le

end Alc.Floored

/-! ## One domain replaced -/

theorem revoking_eq (a : Alc) (i : Fin 6) : a.revoking i = (a.domains.get i).any (·.state == .revoking) := by
  unfold Alc.revoking
  cases a.domains.get i <;> rfl

theorem floorOf_map (a : Alc) (i : Fin 6) : a.floorOf i = (a.domains.get i).elim 0 Domain.floor := by
  unfold Alc.floorOf
  cases a.domains.get i <;> rfl

section
variable {a b : Alc} {i : Fin 6} {d e : Domain} (slot : a.domains.get i = some d)
  (domains : b.domains = a.domains.set i (some e))
include slot domains

omit slot in
theorem get_replace (j : Fin 6) : b.domains.get j = if i = j then some e else a.domains.get j := by rw [domains, get_set]

theorem isSome_replace (j : Fin 6) : (b.domains.get j).isSome = (a.domains.get j).isSome := by
  rw [get_replace domains]
  split
  · next own => rw [← own, slot]; rfl
  · rfl

omit slot in
theorem revoking_replace (j : Fin 6) : b.revoking j = if i = j then e.state == .revoking else a.revoking j := by
  rw [revoking_eq, revoking_eq, get_replace domains]
  split <;> rfl

theorem floorSum_replace (floor : e.floor = d.floor) : b.floorSum = a.floorSum := by
  rw [floorSum_eq, floorSum_eq]
  refine congrArg sumSix (funext fun j => ?_)
  rw [floorOf_map, floorOf_map, get_replace domains]
  split
  · next own => rw [← own, slot]; exact floor
  · rfl

/-- A replaced domain keeps the round when it does not begin to revoke and its shortfall still takes the reservation. -/
theorem Alc.Rounded.replace (h : a.Rounded) (round : b.round = a.round) (queue : b.queue = a.queue)
    (state : e.state = .revoking → d.state = .revoking)
    (kept : a.round.beneficiary = some i → d.shortfall ≤ e.shortfall) : b.Rounded := by
  have revoked : ∀ j, b.revoking j = true → a.revoking j = true := fun j hj => by
    rw [revoking_replace domains] at hj
    split at hj
    · next own => exact revoking_iff.mpr ⟨d, own ▸ slot, state (by simpa using hj)⟩
    · exact hj
  refine ⟨fun j hj => by rw [round]; exact h.revokes j (revoked j hj), fun j hj => by rw [round]; exact h.lists j (revoked j hj),
    by rw [round]; exact h.once, fun x hx => ?_, by rw [round]; exact h.clear, by rw [round]; exact h.owned, fun j hj => ?_⟩
  · rw [isSome_replace slot domains]
    rw [round] at hx
    exact h.declared x hx
  · rw [round] at hj
    obtain ⟨entry, fits⟩ := h.held j hj
    refine ⟨by rw [Alc.entry, queue]; exact entry, ?_⟩
    rw [round, get_replace domains]
    split
    · next own =>
      subst own
      rw [slot] at fits
      exact fits.trans (kept hj)
    · exact fits

/-- A queue that was in step with the other domains is so again once the replaced one is brought into step. -/
theorem inStep_of_resync {u : State} (h : a.Queued fun j => j = i) (alc : u.alc.domains = b.domains) (queue : u.alc.queue = a.queue)
    (priority : e.priority = d.priority) : (syncQueue i u).alc.InStep := by
  have other : ∀ j, j ≠ i → u.alc.domains.get j = a.domains.get j := fun j hj => by
    rw [alc, get_replace domains, if_neg (Ne.symm hj)]
  refine (Alc.Queued.syncQueue (but := fun _ => False) (by rw [queue]; exact h.order) (by rw [queue]; exact h.once) (fun x hx _ => ?_)
    fun j _ hj => ?_).mono fun _ h => h.1
  · rw [queue] at hx
    have fits := h.fits x hx
    rw [alc, get_replace domains]
    split
    · next own =>
      rw [← own, slot] at fits
      rw [← fits]
      exact congrArg some priority
    · exact fits
  · have entries : u.alc.entry j ↔ a.entry j := by rw [Alc.entry, queue]; rfl
    rw [entries, h.waits j hj, Alc.waits, Alc.waits, other j hj]

/-- A domain replaced by one that waits as it did keeps the queue in step. -/
theorem Alc.Queued.replace {but : Fin 6 → Prop} (h : a.Queued but) (queue : b.queue = a.queue) (priority : e.priority = d.priority)
    (waits : e.waits = d.waits) : b.Queued but := by
  refine ⟨by rw [queue]; exact h.order, by rw [queue]; exact h.once, fun x hx => ?_, fun j hj => ?_⟩
  · rw [queue] at hx
    have fits := h.fits x hx
    rw [get_replace domains]
    split
    · next own =>
      rw [← own, slot] at fits
      rw [← fits]
      exact congrArg some priority
    · exact fits
  · have entries : b.entry j ↔ a.entry j := by rw [Alc.entry, queue]; rfl
    rw [entries, h.waits j hj, Alc.waits, Alc.waits, get_replace domains]
    split
    · next own =>
      rw [← own, slot]
      simp [waits]
    · rfl

end

/-- A table with the same domains, round and queue. -/
theorem Alc.Booked.same {a b : Alc} (h : a.Booked) (domains : b.domains = a.domains) (round : b.round = a.round)
    (queue : b.queue = a.queue) : b.Booked := by
  obtain ⟨budget, domains', queue', round'⟩ := b
  dsimp only at domains round queue
  subst domains round queue
  exact ⟨⟨h.rounded.revokes, h.rounded.lists, h.rounded.once, h.rounded.declared, h.rounded.clear, h.rounded.owned,
    h.rounded.held⟩, h.pends, ⟨h.inStep.order, h.inStep.once, h.inStep.fits, h.inStep.waits⟩⟩

/-- A head of the queue is a domain that lacks something. -/
theorem Alc.InStep.domain {a : Alc} {i : Fin 6} (h : a.InStep) (entry : a.entry i) :
    ∃ d, a.domains.get i = some d ∧ d.permit = .on ∧ d.held < d.wanted := by
  have waits := (h.waits i not_false).mp entry
  rw [Alc.waits] at waits
  cases slot : a.domains.get i with
  | none => simp [slot] at waits
  | some d => exact ⟨d, rfl, waits_iff.mp (by simpa [slot] using waits)⟩

theorem shortfall_pos {d : Domain} : 0 < d.shortfall ↔ d.held < d.wanted := Nat.sub_pos_iff_lt

/-! ## Operations that keep the books -/

/-- An operation of the Allocator on a managed table keeps floors, books and bound. -/
structure Steady (s t : State) : Prop where
  floored : s.alc.Floored → t.alc.Floored
  booked : s.alc.Floored → s.alc.Booked → t.alc.Booked
  fits : s.alc.Floored → s.alc.Fits → t.alc.Fits

namespace Steady

theorem refl (s : State) : Steady s s := ⟨id, fun _ => id, fun _ => id⟩

theorem trans {s t u : State} (h : Steady s t) (k : Steady t u) : Steady s u :=
  ⟨k.floored ∘ h.floored, fun f => k.booked (h.floored f) ∘ h.booked f, fun f => k.fits (h.floored f) ∘ h.fits f⟩

theorem ofAlc {s t : State} (h : t.alc = s.alc) : Steady s t := by
  constructor <;> rw [h]
  exacts [id, fun _ => id, fun _ => id]

end Steady

/-! ## A grant raised (R132) -/

section
variable {i : Fin 6} {d : Domain} {s : State} {amount : Nat}

theorem raiseGrant_domains (slot : s.alc.domains.get i = some d) : (raiseGrant amount i s).alc.domains =
    s.alc.domains.set i (some { d with grant := some (d.held + amount) }) := by
  rw [raiseGrant_eq slot, syncQueue_domains]
  rfl

theorem raiseGrant_taken (slot : s.alc.domains.get i = some d) : (raiseGrant amount i s).alc.taken = s.alc.taken + amount := by
  have sum := grantSum_setDomain (e := { d with grant := some (d.held + amount) }) (s := s) slot rfl
  have same : (raiseGrant amount i s).alc.grantSum =
      (s.setDomain i (some { d with grant := some (d.held + amount) })).alc.grantSum := by
    unfold Alc.grantSum Alc.sumDomains
    rw [raiseGrant_domains slot]
    rfl
  rw [Alc.taken, Alc.taken, raiseGrant_round, same, sum]
  omega

theorem raiseGrant_floored (slot : s.alc.domains.get i = some d) (h : s.alc.Floored) : (raiseGrant amount i s).alc.Floored := by
  obtain ⟨sound, holds⟩ := h.domain slot
  refine h.replace (raiseGrant_domains slot) sound ?_
  obtain ⟨g, c, grant, low, formed, fits⟩ := holdsFloor_iff.mp holds
  refine holdsFloor_iff.mpr ⟨_, c, rfl, ?_, formed, fits⟩
  have held : d.held = g := by rw [Domain.held, grant]; rfl
  show d.floor ≤ d.held + amount
  omega

theorem raiseGrant_inStep (slot : s.alc.domains.get i = some d) (h : s.alc.InStep) : (raiseGrant amount i s).alc.InStep := by
  rw [raiseGrant_eq slot]
  exact inStep_of_resync (a := s.alc) (b := (s.raised i d (d.held + amount)).alc) (d := d)
    (e := { d with grant := some (d.held + amount) }) slot rfl (h.mono fun _ => False.elim) rfl rfl rfl

theorem raiseGrant_revoking (slot : s.alc.domains.get i = some d) (j : Fin 6) :
    (raiseGrant amount i s).alc.revoking j = s.alc.revoking j := by
  rw [revoking_replace (raiseGrant_domains slot)]
  split
  · next own => rw [← own, Alc.revoking, slot]
  · rfl

/-- With nothing reserved a raise keeps the round. -/
theorem raiseGrant_rounded (slot : s.alc.domains.get i = some d) (nobody : s.alc.round.beneficiary = none)
    (h : s.alc.Rounded) : (raiseGrant amount i s).alc.Rounded := by
  have round := raiseGrant_round amount i s
  refine ⟨fun j hj => ?_, fun j hj => ?_, by rw [round]; exact h.once, fun x hx => ?_, by rw [round]; exact h.clear,
    by rw [round]; exact h.owned, fun j hj => ?_⟩
  · rw [raiseGrant_revoking slot] at hj
    rw [round]
    exact h.revokes j hj
  · rw [raiseGrant_revoking slot] at hj
    rw [round]
    exact h.lists j hj
  · rw [round] at hx
    rw [isSome_replace slot (raiseGrant_domains slot)]
    exact h.declared x hx
  · rw [round, nobody] at hj
    cases hj

theorem raiseGrant_pends (slot : s.alc.domains.get i = some d) (h : s.alc.Pends) : (raiseGrant amount i s).alc.Pends := by
  intro opened
  rw [raiseGrant_round] at opened
  obtain ⟨j, hj⟩ := h opened
  exact ⟨j, by rw [raiseGrant_revoking slot]; exact hj⟩

/-- A raise by no more than the spare, with nothing reserved. -/
theorem raiseGrant_steady (slot : s.alc.domains.get i = some d) (closed : s.alc.round.opened = false)
    (few : amount ≤ s.alc.spare) : Steady s (raiseGrant amount i s) where
  floored := raiseGrant_floored slot
  booked := fun _ h => by
    have nobody : s.alc.round.beneficiary = none := by rw [h.rounded.clear closed]; rfl
    exact ⟨raiseGrant_rounded slot nobody h.rounded, raiseGrant_pends slot h.pends, raiseGrant_inStep slot h.inStep⟩
  fits := fun _ h => by
    have fits : s.alc.taken ≤ s.alc.budget.effective.getD 0 := h
    rw [Alc.Fits, raiseGrant_taken slot, raiseGrant_budget]
    rw [Alc.spare] at few
    omega

end

end Sys2Proof.Machine

/-! PROOFS. Reductions and preemptions keep the books of the grant table (R113, R133, R140 to R143). -/

namespace Sys2Proof.Machine

/-! ## A plan carried out -/

section
variable {c : RoundCause} {targets : Vector Nat 6} {l : List (Fin 6)} {s u : State}

/-- The slots of a plan are REVOKING after it (R141). -/
theorem lowerEach_revoking (nodup : l.Nodup) (j : Fin 6) : (lowerEach c targets l u).alc.revoking j = true ↔
    (j ∈ l ∧ (u.alc.domains.get j).isSome = true) ∨ u.alc.revoking j = true := by
  rw [revoking_eq, revoking_eq, lowerEach_get nodup]
  by_cases mem : j ∈ l
  · cases slot : u.alc.domains.get j <;> simp [mem, Domain.lowered]
  · simp [mem]

theorem lowerEach_isSome (nodup : l.Nodup) (j : Fin 6) :
    ((lowerEach c targets l u).alc.domains.get j).isSome = (u.alc.domains.get j).isSome := by
  rw [lowerEach_get nodup]
  split
  · rw [Option.isSome_map]
  · rfl

/-- A plan that takes no domain below its floor. -/
theorem lowerEach_floored (nodup : l.Nodup) (h : u.alc.Floored)
    (plan : ∀ i d, u.alc.domains.get i = some d → d.floor ≤ targets.get i) : (lowerEach c targets l u).alc.Floored := by
  refine Alc.Floored.ofDomains fun j x slot => ?_
  rw [lowerEach_get nodup] at slot
  split at slot
  · obtain ⟨d, old, rfl⟩ := Option.map_eq_some_iff.mp slot
    obtain ⟨sound, holds⟩ := h.domain old
    obtain ⟨g, k, grant, low, formed, fits⟩ := holdsFloor_iff.mp holds
    exact ⟨sound, holdsFloor_iff.mpr ⟨_, k, rfl, plan j d old, formed, fits⟩⟩
  · exact h.domain slot

/-- A plan within an open round whose beneficiary it does not lower keeps the round. -/
theorem lowerEach_rounded (nodup : l.Nodup) (opened : u.alc.round.opened = true) (h : u.alc.Rounded)
    (spared : ∀ i, u.alc.round.beneficiary = some i → i ∉ l) : (lowerEach c targets l u).alc.Rounded := by
  obtain ⟨extra, round, once, mem⟩ := lowerEach_round (c := c) (targets := targets) nodup u
  refine ⟨fun j _ => by rw [round]; exact opened, fun j hj => ?_, ?_, fun x hx => ?_, fun closed => ?_, ?_, fun i hi => ?_⟩
  · rw [round, Round.lists, List.any_append, Bool.or_eq_true]
    by_cases known : u.alc.round.lists j = true
    · exact .inl known
    · rcases (lowerEach_revoking nodup j).mp hj with ⟨lowered, declared⟩ | old
      · obtain ⟨d, slot⟩ := Option.isSome_iff_exists.mp declared
        refine .inr (List.any_eq_true.mpr ⟨{ slot := j, oldGrant := d.held },
          (mem _).mpr ⟨lowered, by simpa using known, d, slot, rfl⟩, ?_⟩)
        exact beq_self_eq_true j
      · exact absurd (h.lists j old) known
  · rw [round, List.map_append]
    refine List.Nodup.append h.once once fun j old new => ?_
    obtain ⟨x, hx, rfl⟩ := List.mem_map.mp old
    obtain ⟨y, hy, same⟩ := List.mem_map.mp new
    have unlisted := ((mem y).mp hy).2.1
    rw [same] at unlisted
    have listed : u.alc.round.lists x.slot = true := List.any_eq_true.mpr ⟨x, hx, beq_self_eq_true _⟩
    rw [listed] at unlisted
    cases unlisted
  · rw [round] at hx
    rw [lowerEach_isSome nodup]
    rcases List.mem_append.mp hx with old | new
    · exact h.declared x old
    · obtain ⟨-, -, d, slot, -⟩ := (mem x).mp new
      rw [slot]
      rfl
  · rw [round, opened] at closed
    cases closed
  · rw [round]
    exact h.owned
  · rw [round] at hi
    obtain ⟨entry, fits⟩ := h.held i hi
    refine ⟨(entry_lowerEach_other (spared i hi)).mpr entry, ?_⟩
    rw [round, lowerEach_get nodup, if_neg (spared i hi)]
    exact fits

/-- With a declared domain among its slots, or a REVOKING one before it, a plan leaves one REVOKING. -/
theorem lowerEach_pends (nodup : l.Nodup) {j : Fin 6}
    (h : (j ∈ l ∧ (u.alc.domains.get j).isSome = true) ∨ u.alc.revoking j = true) : (lowerEach c targets l u).alc.Pends :=
  fun _ => ⟨j, (lowerEach_revoking nodup j).mpr h⟩

end

/-! ## The reduction (R140, R143) -/

section
variable {c : RoundCause} {s : State}

theorem floor_le_reduced {b : Nat} (h : s.alc.Floored) {i : Fin 6} {d : Domain} (slot : s.alc.domains.get i = some d) :
    d.floor ≤ (s.alc.reducedGrants b).get i := by
  rw [← floorOf_some slot]
  exact takeFrom_floor _ _ _ _ _ (floor_le_trimmed h.holds i)

theorem reduce_floored (h : s.alc.Floored) : (reduce c s).alc.Floored := by
  have domains := joinRound_domains c (s.alc.reductionOrder (s.alc.reducedGrants (s.alc.budget.effective.getD 0))).isEmpty
    (s.reserve 0 none)
  rw [reduce_eq]
  refine lowerEach_floored (nodup_reductionOrder _) (h.same domains) fun i d slot => ?_
  rw [domains] at slot
  exact floor_le_reduced h slot

/-- A reduction brings grants and reservation within B. -/
theorem reduce_fits (h : s.alc.Floored) (floors : s.alc.floorSum ≤ s.alc.budget.effective.getD 0) : (reduce c s).alc.Fits := by
  have reserved : (reduce c s).alc.round.reservation = 0 := by
    obtain ⟨affected, round⟩ := reduce_round c s
    rw [round]
    (repeat' split) <;> rfl
  have total := sum_reducedGrants h.sound h.holds floors
  have sum : (reduce c s).alc.grantSum = sumGrants (s.alc.reducedGrants (s.alc.budget.effective.getD 0)) := by
    rw [grantSum_eq]
    exact congrArg sumSix (funext fun i => reduce_grants c s i)
  rw [Alc.Fits, Alc.taken, reserved, sum, total, reduce_budget, Nat.add_zero]
  exact min_le_right _ _

/-- The reservation let go. -/
theorem Alc.Rounded.unreserved (h : s.alc.Rounded) : (s.reserve 0 none).alc.Rounded :=
  ⟨h.revokes, h.lists, h.once, h.declared, fun closed => by
    rw [State.reserve_alc]
    rw [h.clear closed]
    rfl, fun e => absurd rfl e, nofun⟩

theorem reduce_booked (h : s.alc.Booked) : (reduce c s).alc.Booked := by
  have free := h.rounded.unreserved
  rw [reduce_eq]
  generalize plan : s.alc.reducedGrants (s.alc.budget.effective.getD 0) = targets
  have nodup := nodup_reductionOrder (a := s.alc) targets
  have declared : ∀ i ∈ s.alc.reductionOrder targets, (s.alc.domains.get i).isSome = true := fun i mem =>
    Option.isSome_iff_ne_none.mpr (reductionOrder_declared mem)
  generalize s.alc.reductionOrder targets = order at nodup declared
  cases opened : s.alc.round.opened with
  | true =>
    rw [joinRound_open (s := s.reserve 0 none) opened]
    obtain ⟨j, hj⟩ := h.pends opened
    exact ⟨lowerEach_rounded nodup opened ⟨free.revokes, free.lists, free.once, free.declared,
        fun closed => absurd (opened.symm.trans closed) (by decide), free.owned, free.held⟩ nofun,
      lowerEach_pends nodup (.inr hj), Alc.Queued.lowerEach ⟨h.inStep.order, h.inStep.once, h.inStep.fits, h.inStep.waits⟩⟩
  | false =>
    have still : ∀ i, s.alc.revoking i = false := fun i => by
      by_contra revoking
      have := h.rounded.revokes i (by simpa using revoking)
      rw [opened] at this
      cases this
    cases order with
    | nil =>
      have same : joinRound c true (s.reserve 0 none) = s.reserve 0 none := by simp [joinRound, State.reserve, opened]
      show (joinRound c true (s.reserve 0 none)).alc.Booked
      rw [same]
      exact ⟨free, fun e => absurd (opened.symm.trans e) (by decide),
        ⟨h.inStep.order, h.inStep.once, h.inStep.fits, h.inStep.waits⟩⟩
    | cons i l =>
      rw [List.isEmpty_cons, joinRound_opens (s := s.reserve 0 none) opened]
      refine ⟨lowerEach_rounded nodup rfl ⟨fun _ _ => rfl, fun j hj => ?_, List.nodup_nil, fun _ e => (List.not_mem_nil e).elim,
          nofun, fun e => absurd rfl e, nofun⟩ nofun,
        lowerEach_pends nodup (.inl ⟨List.mem_cons_self, declared i List.mem_cons_self⟩),
        Alc.Queued.lowerEach ⟨h.inStep.order, h.inStep.once, h.inStep.fits, h.inStep.waits⟩⟩
      exact absurd ((still j).symm.trans hj) (by decide)

theorem reduce_steady (c : RoundCause) (s : State) : Steady s (reduce c s) where
  floored := reduce_floored
  booked := fun _ => reduce_booked
  fits := fun h fits => reduce_fits h <| h.floors_le_grants.trans <| (Nat.le_add_right _ _).trans fits

end

/-! ## The preemption (R133) -/

section
variable {i : Fin 6} {d : Domain} {s : State}

/-- A preemption reserves what spare and takeable power give of the shortfall, and takes what the spare does not. -/
theorem preemptFor_plan (closed : s.alc.round.opened = false) (short : 0 < d.shortfall)
    (takes : 0 < s.alc.takeable d.priority) :
    let reservation := min d.shortfall (s.alc.spare + s.alc.takeable d.priority)
    let targets := s.alc.preempted d.priority (reservation - s.alc.spare)
    preemptFor i d s = lowerEach .preempt targets
      ((s.alc.takeOrder (d.priority + 1)).filter fun j => targets.get j < s.alc.grants.get j) (s.preempting i reservation) := by
  intro reservation targets
  unfold preemptFor
  dsimp only
  rw [if_neg (by omega), lowerAll_eq, joinRound_opens closed]
  have joined : ∀ b : Bool, joinRound .preempt b (s.preempting i reservation) = s.preempting i reservation := fun b => by
    rw [joinRound_open (by rfl)]
    rfl
  exact congrArg (lowerEach .preempt targets _) (joined _)

theorem preemptFor_still (h : d.shortfall = 0 ∨ s.alc.takeable d.priority = 0) : preemptFor i d s = s := if_pos h

theorem preempted_nodup (a : Alc) (p : Nat) (targets : Vector Nat 6) :
    ((a.takeOrder (p + 1)).filter fun j => targets.get j < a.grants.get j).Nodup := (nodup_takeOrder _ _).filter _

theorem floor_le_preempted {p need : Nat} (h : s.alc.Floored) {j : Fin 6} {x : Domain} (slot : s.alc.domains.get j = some x) :
    x.floor ≤ (s.alc.preempted p need).get j := by
  rw [← floorOf_some slot]
  exact takeFrom_floor _ _ _ _ _ ((floor_le_trimmed h.holds j).trans trimmed_le)

theorem preemptFor_floored (closed : s.alc.round.opened = false) (h : s.alc.Floored) : (preemptFor i d s).alc.Floored := by
  by_cases idle : d.shortfall = 0 ∨ s.alc.takeable d.priority = 0
  · rw [preemptFor_still idle]
    exact h
  · rw [preemptFor_plan closed (by omega) (by omega)]
    exact lowerEach_floored (preempted_nodup ..) (h.same rfl) fun j x slot => floor_le_preempted h slot

theorem preemptFor_fits (closed : s.alc.round.opened = false) (h : s.alc.Floored) (fits : s.alc.Fits) :
    (preemptFor i d s).alc.Fits := by
  by_cases idle : d.shortfall = 0 ∨ s.alc.takeable d.priority = 0
  · rw [preemptFor_still idle]
    exact fits
  · rw [preemptFor_plan closed (by omega) (by omega)]
    generalize hr : min d.shortfall (s.alc.spare + s.alc.takeable d.priority) = reservation
    obtain ⟨-, -, -, sum, extra, round⟩ := lowerEach_preempted (i := i) (p := d.priority) (need := reservation - s.alc.spare)
      (reservation := reservation) h.sound h.holds (by omega)
    have fits : s.alc.taken ≤ s.alc.budget.effective.getD 0 := fits
    rw [Alc.spare] at sum
    rw [Alc.Fits, Alc.taken, round, lowerEach_budget]
    rw [Alc.taken] at sum fits
    show _ + reservation ≤ s.alc.budget.effective.getD 0
    rw [Alc.spare, Alc.taken]
    omega

/-- With nothing spare a preemption for a waiting head keeps the books. -/
theorem preemptFor_booked (closed : s.alc.round.opened = false) (spent : s.alc.spare = 0) (slot : s.alc.domains.get i = some d)
    (entry : s.alc.entry i) (f : s.alc.Floored) (h : s.alc.Booked) : (preemptFor i d s).alc.Booked := by
  by_cases idle : d.shortfall = 0 ∨ s.alc.takeable d.priority = 0
  · rw [preemptFor_still idle]
    exact h
  · rw [preemptFor_plan closed (by omega) (by omega)]
    have still : ∀ j, s.alc.revoking j = false := fun j => by
      by_contra revoking
      have := h.rounded.revokes j (by simpa using revoking)
      rw [closed] at this
      cases this
    generalize hr : min d.shortfall (s.alc.spare + s.alc.takeable d.priority) = reservation
    obtain ⟨-, -, -, sum, -⟩ := lowerEach_preempted (i := i) (p := d.priority) (need := reservation - s.alc.spare)
      (reservation := reservation) f.sound f.holds (by omega)
    have nodup := preempted_nodup s.alc d.priority (s.alc.preempted d.priority (reservation - s.alc.spare))
    have mem : ∀ j ∈ (s.alc.takeOrder (d.priority + 1)).filter fun j =>
        (s.alc.preempted d.priority (reservation - s.alc.spare)).get j < s.alc.grants.get j,
        ∃ x, s.alc.domains.get j = some x ∧ d.priority < x.priority := fun j hj => by
      obtain ⟨x, own, above, -⟩ := mem_takeOrder.mp (List.mem_filter.mp hj).1
      exact ⟨x, own, above⟩
    generalize ((s.alc.takeOrder (d.priority + 1)).filter fun j =>
      (s.alc.preempted d.priority (reservation - s.alc.spare)).get j < s.alc.grants.get j) = order at sum nodup mem
    refine ⟨lowerEach_rounded nodup rfl ⟨fun _ _ => rfl, fun j hj => absurd ((still j).symm.trans hj) (by decide),
        List.nodup_nil, fun _ e => (List.not_mem_nil e).elim, nofun, nofun, fun j hj => ?_⟩
        (fun j hj low => ?_), ?_, Alc.Queued.lowerEach ⟨h.inStep.order, h.inStep.once, h.inStep.fits, h.inStep.waits⟩⟩
    · cases hj
      refine ⟨entry, ?_⟩
      show reservation ≤ (s.alc.domains.get i).elim 0 Domain.shortfall
      rw [slot]
      exact hr ▸ min_le_left _ _
    · cases hj
      obtain ⟨x, own, above⟩ := mem i low
      rw [slot] at own
      cases own
      exact lt_irrefl _ above
    · cases order with
      | nil =>
        have same : (lowerEach .preempt (s.alc.preempted d.priority (reservation - s.alc.spare)) []
            (s.preempting i reservation)).alc.grantSum =
          s.alc.grantSum := rfl
        rw [same] at sum
        omega
      | cons j l =>
        obtain ⟨x, own, -⟩ := mem j List.mem_cons_self
        refine lowerEach_pends nodup (.inl ⟨List.mem_cons_self, ?_⟩)
        show (s.alc.domains.get j).isSome = true
        rw [own]
        rfl

end

end Sys2Proof.Machine

/-! PROOFS. Serving, the close of a round and the recomputation keep the books of the grant table (R113 to R115, R131, R132,
R149). -/

namespace Sys2Proof.Machine

/-! ## Serving (R131, R132) -/

section
variable {s : State}

/-- The head's shortfall, or what is spare of it, is granted; what the rest of the queue gets follows. -/
theorem serveHeads_steady (n : Nat) (s : State) (closed : s.alc.round.opened = false) :
    Steady s (serveHeads n s) ∧ (serveHeads n s).alc.round.opened = false := by
  induction n generalizing s with
  | zero => exact ⟨.refl s, closed⟩
  | succ n ih =>
    cases queue : s.alc.queue with
    | nil =>
      have same : serveHeads (n + 1) s = s := by simp [serveHeads, queue]
      rw [same]
      exact ⟨.refl s, closed⟩
    | cons e l =>
      cases slot : s.alc.domains.get e.slot with
      | none =>
        have same : serveHeads (n + 1) s = s := by simp [serveHeads, queue, slot]
        rw [same]
        exact ⟨.refl s, closed⟩
      | some d =>
        have raised : Steady s (if min s.alc.spare d.shortfall = 0 then s else raiseGrant (min s.alc.spare d.shortfall) e.slot s) ∧
            (if min s.alc.spare d.shortfall = 0 then s else raiseGrant (min s.alc.spare d.shortfall) e.slot s).alc.round.opened =
              false := by
          split
          · exact ⟨.refl s, closed⟩
          · exact ⟨raiseGrant_steady slot closed (min_le_left _ _), by rw [raiseGrant_round]; exact closed⟩
        rw [serveHeads_head queue slot]
        split
        · obtain ⟨rest, open_⟩ := ih _ raised.2
          exact ⟨raised.1.trans rest, open_⟩
        · exact raised

/-- Serving goes on until the queue is empty or nothing is spare. -/
theorem serveHeads_spends (n : Nat) (s : State) (closed : s.alc.round.opened = false) (f : s.alc.Floored) (h : s.alc.Booked)
    (long : s.alc.queue.length < n) : (serveHeads n s).alc.queue = [] ∨ (serveHeads n s).alc.spare = 0 := by
  induction n generalizing s with
  | zero => omega
  | succ n ih =>
    cases queue : s.alc.queue with
    | nil =>
      have same : serveHeads (n + 1) s = s := by simp [serveHeads, queue]
      rw [same]
      exact .inl queue
    | cons e l =>
      obtain ⟨d, slot, on, lacks⟩ := h.inStep.domain (i := e.slot) ⟨e, queue ▸ List.mem_cons_self, rfl⟩
      have short := shortfall_pos.mpr lacks
      by_cases enough : d.shortfall ≤ s.alc.spare
      · have steady := raiseGrant_steady slot closed enough
        have shorter : (raiseGrant d.shortfall e.slot s).alc.queue.length < n := by
          have meets : d.held + d.shortfall = d.wanted := Nat.add_sub_of_le lacks.le
          rw [raiseGrant_meets slot meets]
          have dropped : (dropEntry e.slot s.alc.queue).length ≤ l.length := by
            rw [queue]
            simp only [dropEntry, List.filter_cons, bne_self_eq_false, Bool.false_eq_true, if_false]
            exact List.length_filter_le _ _
          rw [queue, List.length_cons] at long
          show (dropEntry e.slot s.alc.queue).length < n
          omega
        rw [serveHeads_meets queue slot short n enough]
        exact ih _ (by rw [raiseGrant_round]; exact closed) (steady.floored f) (steady.booked f h) shorter
      · rw [serveHeads_head queue slot, if_neg (by omega)]
        split
        · exact .inr (by omega)
        · refine .inr ?_
          rw [Alc.spare, raiseGrant_taken slot, raiseGrant_budget]
          rw [Alc.spare] at enough ⊢
          omega

theorem serve_steady (s : State) : Steady s (serve s) := by
  cases opened : s.alc.round.opened with
  | true =>
    rw [serve_opened opened]
    exact .refl s
  | false =>
    obtain ⟨heads, closed⟩ := serveHeads_steady (s.alc.queue.length + 1) s opened
    have spends := fun f h => serveHeads_spends (s.alc.queue.length + 1) s opened f h (by omega)
    rw [serve_closed opened]
    refine Steady.mk (fun f => ?_) (fun f h => ?_) fun f fits => ?_
    all_goals
      have f' := heads.floored f
    · unfold weighPreemption
      split
      · exact f'
      · split
        · exact f'
        · exact preemptFor_floored closed f'
    · have h' := heads.booked f h
      rcases spends f h with empty | spent
      · simp only [weighPreemption, empty]
        exact h'
      · unfold weighPreemption
        split
        · exact h'
        · next e l queue =>
          split
          · exact h'
          · next d slot => exact preemptFor_booked closed spent slot ⟨e, queue ▸ List.mem_cons_self, rfl⟩ f' h'
    · have fits' := heads.fits f fits
      unfold weighPreemption
      split
      · exact fits'
      · split
        · exact fits'
        · exact preemptFor_fits closed f' fits'

end

/-! ## The close of a round (R149) -/

section
variable {s : State}

theorem raiseGrant_none {i : Fin 6} {amount : Nat} (empty : s.alc.domains.get i = none) : raiseGrant amount i s = s := by
  simp only [raiseGrant, empty]

/-- The reservation becomes the beneficiary's grant. -/
theorem grantReservation_parts (s : State) : (grantReservation s = s ∧ s.alc.round.beneficiary = none) ∨
    ∃ i, s.alc.round.beneficiary = some i ∧ grantReservation s = raiseGrant s.alc.round.reservation i (s.reserve 0 none) := by
  unfold grantReservation
  split
  · next nobody => exact .inl ⟨rfl, nobody⟩
  · next i owner => exact .inr ⟨i, owner, rfl⟩

theorem grantReservation_floored (h : s.alc.Floored) : (grantReservation s).alc.Floored := by
  rcases grantReservation_parts s with ⟨same, -⟩ | ⟨i, -, granted⟩
  · rw [same]
    exact h
  · rw [granted]
    have free : (s.reserve 0 none).alc.Floored := h.same rfl
    cases slot : (s.reserve 0 none).alc.domains.get i with
    | none => rw [raiseGrant_none slot]; exact free
    | some d => exact raiseGrant_floored slot free

theorem reserve_taken (s : State) : (s.reserve 0 none).alc.taken + s.alc.round.reservation = s.alc.taken := rfl

theorem grantReservation_fits (h : s.alc.Fits) : (grantReservation s).alc.Fits := by
  have free := reserve_taken s
  have fits : s.alc.taken ≤ s.alc.budget.effective.getD 0 := h
  rcases grantReservation_parts s with ⟨same, -⟩ | ⟨i, -, granted⟩
  · rw [same]
    exact h
  · rw [granted]
    cases slot : (s.reserve 0 none).alc.domains.get i with
    | none =>
      rw [raiseGrant_none slot]
      show (s.reserve 0 none).alc.taken ≤ s.alc.budget.effective.getD 0
      omega
    | some d =>
      rw [Alc.Fits, raiseGrant_taken slot, raiseGrant_budget, free]
      exact fits

theorem clearRound_fits (h : s.alc.Fits) : (clearRound s).alc.Fits := by
  have less : (clearRound s).alc.taken ≤ s.alc.taken := Nat.add_le_add_left (Nat.zero_le _) _
  exact less.trans h

/-- With nobody left to wait for, the close leaves a table whose round is clear. -/
theorem clearRound_booked (still : ∀ i, s.alc.revoking i = false) (h : s.alc.InStep) : (clearRound s).alc.Booked where
  rounded :=
    { revokes := fun i hi => absurd ((still i).symm.trans hi) (by decide)
      lists := fun i hi => absurd ((still i).symm.trans hi) (by decide)
      once := List.nodup_nil
      declared := fun _ e => (List.not_mem_nil e).elim
      clear := fun _ => rfl
      owned := fun e => absurd rfl e
      held := nofun }
  pends := nofun
  inStep := ⟨h.order, h.once, h.fits, h.waits⟩

theorem closeRound_floored (h : s.alc.Floored) : (closeRound s).alc.Floored :=
  (serve_steady _).floored ((grantReservation_floored h).same rfl)

theorem closeRound_fits (f : s.alc.Floored) (h : s.alc.Fits) : (closeRound s).alc.Fits :=
  (serve_steady _).fits ((grantReservation_floored f).same rfl) (clearRound_fits (s := postRound _) (grantReservation_fits h))

theorem closeRound_booked (f : s.alc.Floored) (still : ∀ i, s.alc.revoking i = false) (h : s.alc.InStep) :
    (closeRound s).alc.Booked := by
  refine (serve_steady _).booked ((grantReservation_floored f).same rfl) (clearRound_booked (s := postRound _) ?_ ?_)
  all_goals
    rcases grantReservation_parts s with ⟨same, -⟩ | ⟨i, -, granted⟩
  · rw [same]
    exact still
  · rw [granted]
    intro j
    cases slot : (s.reserve 0 none).alc.domains.get i with
    | none => rw [raiseGrant_none slot]; exact still j
    | some d => exact (raiseGrant_revoking slot j).trans (still j)
  · rw [same]
    exact h
  · rw [granted]
    have free : (s.reserve 0 none).alc.InStep := ⟨h.order, h.once, h.fits, h.waits⟩
    cases slot : (s.reserve 0 none).alc.domains.get i with
    | none => rw [raiseGrant_none slot]; exact free
    | some d => exact raiseGrant_inStep slot free

/-- The round is closed when it has nobody left to wait for. -/
theorem closeIfDone_cases (s : State) : (closeIfDone s = s ∧ s.alc.Pends) ∨
    (closeIfDone s = closeRound s ∧ ∀ i, s.alc.revoking i = false) := by
  cases opened : s.alc.round.opened with
  | false => exact .inl ⟨closeIfDone_waits (.inl opened), fun e => absurd (opened.symm.trans e) (by decide)⟩
  | true =>
    by_cases waits : ∃ i, s.alc.revoking i = true
    · exact .inl ⟨closeIfDone_waits (.inr waits), fun _ => waits⟩
    · have still : ∀ i, s.alc.revoking i = false := fun i => by
        by_contra revoking
        exact waits ⟨i, by simpa using revoking⟩
      exact .inr ⟨closeIfDone_closes opened still, still⟩

theorem closeIfDone_floored (h : s.alc.Floored) : (closeIfDone s).alc.Floored := by
  rcases closeIfDone_cases s with ⟨same, -⟩ | ⟨closes, -⟩
  · exact same.symm ▸ h
  · exact closes.symm ▸ closeRound_floored h

theorem closeIfDone_fits (f : s.alc.Floored) (h : s.alc.Fits) : (closeIfDone s).alc.Fits := by
  rcases closeIfDone_cases s with ⟨same, -⟩ | ⟨closes, -⟩
  · exact same.symm ▸ h
  · exact closes.symm ▸ closeRound_fits f h

/-- A round that may have lost its last REVOKING domain is put in order. -/
theorem closeIfDone_booked (f : s.alc.Floored) (rounded : s.alc.Rounded) (inStep : s.alc.InStep) : (closeIfDone s).alc.Booked := by
  rcases closeIfDone_cases s with ⟨same, pends⟩ | ⟨closes, still⟩
  · exact same.symm ▸ ⟨rounded, pends, inStep⟩
  · exact closes.symm ▸ closeRound_booked f still inStep

end

/-! ## The recomputation (R114, R115) -/

section
variable {c : RoundCause} {s : State}

theorem settleBudget_steady (c : RoundCause) (s : State) : Steady s (settleBudget c s) := by
  unfold settleBudget
  split
  · exact reduce_steady c s
  · split
    · exact serve_steady s
    · exact .refl s

/-- What follows from B brings grants and reservation within it. -/
theorem settleBudget_fits (h : s.alc.Floored) (floors : s.alc.floorSum ≤ s.alc.budget.effective.getD 0) :
    (settleBudget c s).alc.Fits := by
  unfold settleBudget
  split
  · exact reduce_fits h floors
  · next within =>
    have fits : s.alc.Fits := Nat.le_of_not_lt fun high => within (.inl high)
    split
    · exact (serve_steady s).fits h fits
    · exact fits

theorem recompute_floored (h : s.alc.Floored) : (recompute c s).alc.Floored := by
  unfold recompute
  split
  · exact (settleBudget_steady c _).floored (h.same rfl)
  · exact h

theorem recompute_booked (f : s.alc.Floored) (h : s.alc.Booked) : (recompute c s).alc.Booked := by
  unfold recompute
  split
  · exact (settleBudget_steady c _).booked (f.same rfl) (h.same rfl rfl rfl)
  · exact h

/-- A recomputation forms B and brings grants and reservation within it. -/
theorem recompute_bounds (managed : s.managed = true) (h : s.alc.Floored) : (recompute c s).alc.Fits := by
  rw [recompute_managed managed]
  exact settleBudget_fits (h.same rfl) (floorSum_le_formB h.sound)

end

end Sys2Proof.Machine

/-! PROOFS. One domain's setting changed, its reservation and its entry brought into line with it; the effective ceilings formed
anew (R120, R126, R128, R130, R134). -/

namespace Sys2Proof.Machine

/-! ## The reservation brought into line (R134) -/

section
variable {i : Fin 6} {e : Domain} {u : State}

/-- The reservation is let go, kept for another domain, or cut to what the beneficiary still lacks. -/
theorem adjustReservation_round (slot : u.alc.domains.get i = some e) : ∃ n b,
    (adjustReservation i u).alc = { u.alc with round := { u.alc.round with reservation := n, beneficiary := b } } ∧
      n ≤ u.alc.round.reservation ∧
      ((n = 0 ∧ b = none ∧ u.alc.round.beneficiary = some i) ∨
        (n = u.alc.round.reservation ∧ b = u.alc.round.beneficiary ∧ u.alc.round.beneficiary ≠ some i) ∨
        (n ≤ e.shortfall ∧ b = some i ∧ u.alc.round.beneficiary = some i ∧ 0 < e.shortfall)) := by
  rw [adjustReservation_eq slot]
  by_cases own : u.alc.round.beneficiary = some i
  · by_cases met : e.shortfall = 0
    · exact ⟨0, none, by simp [own, met], Nat.zero_le _, .inl ⟨rfl, rfl, own⟩⟩
    · exact ⟨min u.alc.round.reservation e.shortfall, some i, by simp [own, met], min_le_left _ _,
        .inr (.inr ⟨min_le_right _ _, rfl, own, by omega⟩)⟩
  · exact ⟨_, _, by simp only [own, if_false], le_refl _, .inr (.inl ⟨rfl, rfl, own⟩)⟩

end

/-! ## A setting changed (R126, R128, R134) -/

section
variable {i : Fin 6} {d e : Domain} {s u : State}

/-- The state after a domain is replaced, with reservation and entry brought into line. -/
def State.readjusted (i : Fin 6) (e : Domain) (s : State) : State :=
  syncQueue i (adjustReservation i (s.setDomain i (some e)))

theorem readjusted_slot (i : Fin 6) (e : Domain) (s : State) : (s.readjusted i e).alc.domains = s.alc.domains.set i (some e) := by
  rw [State.readjusted, syncQueue_domains, adjustReservation_domains]
  rfl

theorem readjusted_budget (i : Fin 6) (e : Domain) (s : State) : (s.readjusted i e).alc.budget = s.alc.budget := by
  rw [State.readjusted, syncQueue_budget, adjustReservation_budget]
  rfl

theorem readjusted_floored (h : s.alc.Floored) (sound : e.sound = true) (holds : e.holdsFloor = true) :
    (s.readjusted i e).alc.Floored := h.replace (readjusted_slot ..) sound holds

variable (slot : s.alc.domains.get i = some d)
include slot

theorem grantSum_replace {b : Alc} (domains : b.domains = s.alc.domains.set i (some e)) (held : e.held = d.held) :
    b.grantSum = s.alc.grantSum := by
  have same : b.grantSum = (s.setDomain i (some e)).alc.grantSum := by
    unfold Alc.grantSum Alc.sumDomains
    rw [domains]
    rfl
  exact same.trans (grantSum_setDomain (amount := 0) slot held)

theorem readjusted_fits (held : e.held = d.held) (h : s.alc.Fits) : (s.readjusted i e).alc.Fits := by
  obtain ⟨n, b, adjusted, less, -⟩ := adjustReservation_round (u := s.setDomain i (some e)) (i := i) (e := e) (by simp)
  have round : (s.readjusted i e).alc.round.reservation = n := by
    rw [State.readjusted, syncQueue_round, adjusted]
  have h : s.alc.taken ≤ s.alc.budget.effective.getD 0 := h
  have less : n ≤ s.alc.round.reservation := less
  rw [Alc.taken] at h
  rw [Alc.Fits, Alc.taken, round, readjusted_budget, grantSum_replace slot (readjusted_slot ..) held]
  omega

/-- A change that takes the permit of no domain that lacks something keeps the round. -/
theorem readjusted_rounded (state : e.state = d.state) (permit : d.permit = .on → e.permit = .on ∨ e.shortfall = 0)
    (inStep : s.alc.InStep) (h : s.alc.Rounded) : (s.readjusted i e).alc.Rounded := by
  have own : (s.setDomain i (some e)).alc.domains.get i = some e := by simp
  obtain ⟨n, b, adjusted, -, ways⟩ := adjustReservation_round own
  have domains := readjusted_slot i e s
  have round : (s.readjusted i e).alc.round = { s.alc.round with reservation := n, beneficiary := b } := by
    rw [State.readjusted, syncQueue_round, adjusted]
    rfl
  have ways : (n = 0 ∧ b = none ∧ s.alc.round.beneficiary = some i) ∨
      (n = s.alc.round.reservation ∧ b = s.alc.round.beneficiary ∧ s.alc.round.beneficiary ≠ some i) ∨
      (n ≤ e.shortfall ∧ b = some i ∧ s.alc.round.beneficiary = some i ∧ 0 < e.shortfall) := ways
  have revoking : ∀ j, (s.readjusted i e).alc.revoking j = s.alc.revoking j := fun j => by
    rw [revoking_replace domains]
    split
    · next same => rw [← same, revoking_eq, slot, state]; rfl
    · rfl
  have entries : ∀ j, j ≠ i → ((s.readjusted i e).alc.entry j ↔ s.alc.entry j) := fun j hj => by
    rw [State.readjusted, entry_syncQueue_other hj, adjusted]
    rfl
  refine ⟨fun j hj => ?_, fun j hj => ?_, by rw [round]; exact h.once, fun x hx => ?_, fun closed => ?_, fun reserved => ?_,
    fun j hj => ?_⟩
  · rw [revoking] at hj
    rw [round]
    exact h.revokes j hj
  · rw [revoking] at hj
    rw [round]
    exact h.lists j hj
  · rw [round] at hx
    rw [isSome_replace slot domains]
    exact h.declared x hx
  · rw [round] at closed ⊢
    have clear := h.clear closed
    have nobody : s.alc.round.beneficiary = none := by rw [clear]; rfl
    rcases ways with ⟨-, -, some_⟩ | ⟨hn, hb, -⟩ | ⟨-, -, some_, -⟩
    · rw [nobody] at some_
      cases some_
    · rw [hn, hb, clear]
      rfl
    · rw [nobody] at some_
      cases some_
  · rw [round] at reserved ⊢
    rcases ways with ⟨hn, -⟩ | ⟨hn, hb, -⟩ | ⟨-, hb, -⟩
    · exact absurd hn reserved
    · show b ≠ none
      rw [hb]
      exact h.owned (hn ▸ reserved)
    · show b ≠ none
      simp [hb]
  · rw [round] at hj
    have hj : b = some j := hj
    rw [round, get_replace domains]
    rcases ways with ⟨-, hb, -⟩ | ⟨hn, hb, other⟩ | ⟨fits, hb, owner, lacks⟩
    · rw [hb] at hj
      cases hj
    · rw [hb] at hj
      have ne : j ≠ i := fun e => other (e ▸ hj)
      rw [entries j ne, if_neg (Ne.symm ne)]
      rw [hn]
      exact h.held j hj
    · rw [hb] at hj
      cases hj
      rw [if_pos rfl]
      refine ⟨?_, fits⟩
      obtain ⟨d', slot', on, -⟩ := inStep.domain (h.held i owner).1
      rw [slot] at slot'
      cases slot'
      have permitted : e.permit = .on := (permit on).resolve_right (by omega)
      rw [Alc.entry, State.readjusted, syncQueue_waits, adjusted]
      exact ⟨e, own, permitted, shortfall_pos.mp lacks⟩

theorem readjusted_pends (state : e.state = d.state) (h : s.alc.Pends) : (s.readjusted i e).alc.Pends := by
  obtain ⟨n, b, adjusted, -⟩ := adjustReservation_round (u := s.setDomain i (some e)) (i := i) (e := e) (by simp)
  intro opened
  rw [State.readjusted, syncQueue_round, adjusted] at opened
  obtain ⟨j, hj⟩ := h opened
  refine ⟨j, ?_⟩
  rw [revoking_replace (readjusted_slot ..)]
  split
  · next same =>
    rw [← same, revoking_eq, slot] at hj
    rw [state]
    exact hj
  · exact hj

theorem readjusted_inStep (priority : e.priority = d.priority) (h : s.alc.InStep) : (s.readjusted i e).alc.InStep := by
  obtain ⟨n, b, adjusted, -⟩ := adjustReservation_round (u := s.setDomain i (some e)) (i := i) (e := e) (by simp)
  refine inStep_of_resync (a := s.alc) (b := (s.setDomain i (some e)).alc) (d := d) (e := e) slot rfl
    (h.mono fun _ => False.elim) ?_ ?_ priority
  · rw [adjusted]
  · rw [adjusted]
    rfl

/-- A domain's setting changed in RUNNING or DOZING. -/
theorem readjusted_steady (held : e.held = d.held) (state : e.state = d.state) (priority : e.priority = d.priority)
    (permit : d.holdsFloor = true → d.permit = .on → e.permit = .on ∨ e.shortfall = 0)
    (good : d.sound = true → d.holdsFloor = true → e.sound = true ∧ e.holdsFloor = true) :
    Steady s (s.readjusted i e) where
  floored := fun h => by
    obtain ⟨sound, holds⟩ := good (h.domain slot).1 (h.domain slot).2
    exact readjusted_floored h sound holds
  booked := fun f h => ⟨readjusted_rounded slot state (permit (f.domain slot).2) h.inStep h.rounded,
    readjusted_pends slot state h.pends,
    readjusted_inStep slot priority h.inStep⟩
  fits := fun _ => readjusted_fits slot held

end

/-! ## Effective ceilings (R120) -/

theorem sound_iff {d : Domain} : d.sound = true ↔
    d.priority ≤ 3 ∧ d.floor % 250 = 0 ∧ d.floor ≤ d.ceiling ∧ (d.kind = .charger → d.floor = 0) := by
  simp only [Domain.sound, Bool.and_eq_true, decide_eq_true_eq, isStep_iff, Bool.or_eq_true, bne_iff_ne, beq_iff_eq]
  tauto

/-- A domain as declarations leave it has an effective ceiling that is not below its floor. -/
theorem floor_le_ceilingOf {d : Domain} (sound : d.sound = true) (s : State) : d.floor ≤ s.ceilingOf d := by
  obtain ⟨-, -, fits, charger⟩ := sound_iff.mp sound
  unfold State.ceilingOf Domain.ceilingNow
  split
  · exact le_refl _
  · split
    · next kind =>
      rw [charger kind]
      exact Nat.zero_le _
    · exact fits

theorem reformCeiling_steady (i : Fin 6) (s : State) : Steady s (reformCeiling i s) := by
  cases slot : s.alc.domains.get i with
  | none =>
    have same : reformCeiling i s = s := by simp only [reformCeiling, slot]
    rw [same]
    exact .refl s
  | some d =>
    have steady : Steady s (s.readjusted i { d with effCeiling := some (s.ceilingOf d) }) :=
      readjusted_steady slot rfl rfl rfl (fun _ => .inl) fun sound holds => by
        obtain ⟨g, c, grant, low, -⟩ := holdsFloor_iff.mp holds
        exact ⟨sound, holdsFloor_iff.mpr ⟨g, _, grant, low, rfl, floor_le_ceilingOf sound s⟩⟩
    simp only [reformCeiling, slot]
    split
    · exact .refl s
    · split
      · exact steady.trans (.ofAlc (postGrant_alc ..))
      · exact steady

theorem Steady.foldl {β : Type} {f : State → β → State} (hf : ∀ s b, Steady s (f s b)) (l : List β) (s : State) :
    Steady s (l.foldl f s) := by
  induction l generalizing s with
  | nil => exact .refl s
  | cons b l ih => exact (hf s b).trans (ih _)

theorem reformCeilings_steady (s : State) : Steady s (reformCeilings s) :=
  .foldl (fun s i => reformCeiling_steady i s) six s

section
variable {c : RoundCause} {s : State}

theorem recomputeCeilings_cases (c : RoundCause) (s : State) : recomputeCeilings c s = recompute c (reformCeilings s) ∨
    recomputeCeilings c s = serve (recompute c (reformCeilings s)) := by
  unfold recomputeCeilings
  dsimp only
  split
  · exact .inr rfl
  · exact .inl rfl

theorem recomputeCeilings_floored (h : s.alc.Floored) : (recomputeCeilings c s).alc.Floored := by
  have first := recompute_floored (c := c) ((reformCeilings_steady s).floored h)
  rcases recomputeCeilings_cases c s with e | e <;> rw [e]
  exacts [first, (serve_steady _).floored first]

theorem recomputeCeilings_booked (f : s.alc.Floored) (h : s.alc.Booked) : (recomputeCeilings c s).alc.Booked := by
  have formed := (reformCeilings_steady s).floored f
  have first := recompute_booked (c := c) formed ((reformCeilings_steady s).booked f h)
  rcases recomputeCeilings_cases c s with e | e <;> rw [e]
  exacts [first, (serve_steady _).booked (recompute_floored formed) first]

theorem recomputeCeilings_bounds (managed : s.managed = true) (f : s.alc.Floored) : (recomputeCeilings c s).alc.Fits := by
  have formed := (reformCeilings_steady s).floored f
  have same : (reformCeilings s).managed = true := ((Grants.refl s).reformCeilings).managed.trans managed
  have first := recompute_bounds (c := c) same formed
  rcases recomputeCeilings_cases c s with e | e <;> rw [e]
  exacts [first, (serve_steady _).fits (recompute_floored formed) first]

end

end Sys2Proof.Machine

/-! PROOFS. Requests, permits, settlement and expiry keep the books of a managed table (R126, R128, R129, R145 to R148). -/

namespace Sys2Proof.Machine

/-! ## A domain replaced and its entry brought into line -/

section
variable {i : Fin 6} {d e : Domain} {s : State}

/-- Bringing an entry into line keeps the round when a beneficiary goes on waiting. -/
theorem syncQueue_rounded (h : s.alc.Rounded) (waiting : s.alc.round.beneficiary = some i → s.alc.waits i = true) :
    (syncQueue i s).alc.Rounded := by
  have domains := syncQueue_domains i s
  have round := syncQueue_round i s
  have revoking : ∀ j, (syncQueue i s).alc.revoking j = s.alc.revoking j := fun j => by rw [revoking_eq, revoking_eq, domains]
  refine ⟨fun j hj => ?_, fun j hj => ?_, by rw [round]; exact h.once, by rw [round, domains]; exact h.declared,
    by rw [round]; exact h.clear, by rw [round]; exact h.owned, fun j hj => ?_⟩
  · rw [revoking] at hj
    rw [round]
    exact h.revokes j hj
  · rw [revoking] at hj
    rw [round]
    exact h.lists j hj
  · rw [round] at hj
    rw [round, domains]
    refine ⟨?_, (h.held j hj).2⟩
    by_cases own : j = i
    · subst own
      have waits := waiting hj
      rw [Alc.entry, syncQueue_waits]
      rw [Alc.waits] at waits
      cases slot : s.alc.domains.get j with
      | none => simp [slot] at waits
      | some d => exact ⟨d, rfl, waits_iff.mp (by simpa [slot] using waits)⟩
    · exact (entry_syncQueue_other own).mpr (h.held j hj).1

variable (slot : s.alc.domains.get i = some d)
include slot

theorem pends_replace {b : Alc} (domains : b.domains = s.alc.domains.set i (some e)) (round : b.round = s.alc.round)
    (state : d.state = .revoking → e.state = .revoking) (h : s.alc.Pends) : b.Pends := by
  intro opened
  rw [round] at opened
  obtain ⟨j, hj⟩ := h opened
  refine ⟨j, ?_⟩
  rw [revoking_replace domains]
  split
  · next same =>
    rw [← same, revoking_eq, slot] at hj
    simpa using state (by simpa using hj)
  · exact hj

/-- A domain that no reservation is for may be given less and be brought into line with the queue. -/
theorem resynced_steady (less : e.held ≤ d.held) (state : e.state = d.state) (priority : e.priority = d.priority)
    (free : s.alc.Booked → s.alc.round.beneficiary ≠ some i)
    (good : d.sound = true → d.holdsFloor = true → e.sound = true ∧ e.holdsFloor = true) :
    Steady s (syncQueue i (s.setDomain i (some e))) where
  floored := fun h => by
    obtain ⟨sound, holds⟩ := good (h.domain slot).1 (h.domain slot).2
    exact h.replace (i := i) (e := e) (by rw [syncQueue_domains]; rfl) sound holds
  booked := fun _ h => by
    have other := free h
    refine ⟨syncQueue_rounded (h.rounded.replace slot rfl rfl rfl (fun r => state ▸ r) fun owner => absurd owner other)
      fun owner => absurd owner other, ?_,
      inStep_of_resync (a := s.alc) (b := (s.setDomain i (some e)).alc) slot rfl
        (h.inStep.mono fun _ => False.elim) rfl rfl priority⟩
    exact pends_replace slot (e := e) (by rw [syncQueue_domains]; rfl) (by rw [syncQueue_round]; rfl)
      (fun r => state.trans r) h.pends
  fits := fun _ h => by
    have h : s.alc.taken ≤ s.alc.budget.effective.getD 0 := h
    have back := grantSum_setDomain (s := s.setDomain i (some e)) (i := i) (d := e) (e := d) (amount := d.held - e.held)
      (by simp) (by omega)
    have again : ((s.setDomain i (some e)).setDomain i (some d)).alc.grantSum = s.alc.grantSum := by
      unfold Alc.grantSum Alc.sumDomains
      refine congrArg sumSix (funext fun j => ?_)
      simp only [State.setDomain_alc, get_set]
      by_cases own : i = j
      · subst own
        rw [if_pos rfl, slot]
      · rw [if_neg own, if_neg own]
    have sum : (syncQueue i (s.setDomain i (some e))).alc.grantSum = (s.setDomain i (some e)).alc.grantSum := by
      unfold Alc.grantSum Alc.sumDomains
      rw [syncQueue_domains]
    rw [Alc.taken] at h
    rw [Alc.Fits, Alc.taken, sum, syncQueue_round, syncQueue_budget]
    show (s.setDomain i (some e)).alc.grantSum + s.alc.round.reservation ≤ s.alc.budget.effective.getD 0
    omega

/-- A domain that waits for nothing is no beneficiary. -/
theorem not_beneficiary (still : d.waits = false) (h : s.alc.Booked) : s.alc.round.beneficiary ≠ some i := by
  intro owner
  obtain ⟨d', slot', waits⟩ := h.inStep.domain (h.rounded.held i owner).1
  rw [slot] at slot'
  cases slot'
  rw [waits_iff.mpr waits] at still
  cases still

end

/-! ## DOMAIN_REQUEST and DOMAIN_PERMIT (R126, R128, R129) -/

theorem floor_le_wanted {d : Domain} (holds : d.holdsFloor = true) : d.floor ≤ d.wanted := by
  obtain ⟨g, c, -, -, formed, -⟩ := holdsFloor_iff.mp holds
  rw [wanted_of_ceiling (by simp [formed])]
  exact le_max_left _ _

section
variable {i : Fin 6} {d : Domain} {s : State} (slot : s.alc.domains.get i = some d)
include slot

/-- A request acts on the grant within the books (R126). -/
theorem actOnRequest_steady (r : Option Nat) : Steady s
    (actOnRequest i d { d with request := r } (s.setDomain i (some { d with request := r }))) := by
  have stored : Steady s (s.readjusted i { d with request := r }) :=
    readjusted_steady slot rfl rfl rfl (fun _ => .inl) fun sound holds => ⟨sound, holds⟩
  have own : (s.readjusted i { d with request := r }).alc.domains.get i = some { d with request := r } := by
    rw [readjusted_slot, get_set, if_pos rfl]
  unfold actOnRequest
  dsimp only
  split
  · next below =>
    have still : Domain.waits { d with request := r } = false := by
      rw [← Bool.not_eq_true, waits_iff]
      exact fun h => lt_asymm below h.2
    have lowered : Steady (s.readjusted i { d with request := r })
        (syncQueue i ((s.readjusted i { d with request := r }).setDomain i
        (some { d with request := r, grant := some (Domain.wanted { d with request := r }) }))) :=
      resynced_steady own below.le rfl rfl (not_beneficiary own still) fun sound holds => by
        have low : d.floor ≤ Domain.wanted { d with request := r } := floor_le_wanted holds
        obtain ⟨g, c, -, -, formed, fits⟩ := holdsFloor_iff.mp holds
        exact ⟨sound, holdsFloor_iff.mpr ⟨_, c, rfl, low, formed, fits⟩⟩
    have told := (stored.trans lowered).trans (.ofAlc (postGrant_alc .lower i _))
    split
    · exact told.trans (serve_steady _)
    · exact told
  · split
    · split
      · exact stored
      · exact stored.trans (serve_steady _)
    · exact stored

/-- A permit turned OFF (R128). -/
theorem permitOffManaged_steady : Steady s (permitOffManaged i d s) := by
  have off : Steady s (s.readjusted i { d with permit := .off, effCeiling := some d.floor }) := by
    refine readjusted_steady slot rfl rfl rfl (fun holds _ => .inr ?_) fun sound holds => ?_
    · obtain ⟨g, c, grant, low, -⟩ := holdsFloor_iff.mp holds
      have wanted : Domain.wanted { d with permit := .off, effCeiling := some d.floor } = d.floor := by
        simp [Domain.wanted, Domain.wanted?, Domain.wantedIn]
      have held : Domain.held { d with permit := .off, effCeiling := some d.floor } = g := by simp [Domain.held, grant]
      rw [Domain.shortfall, wanted, held]
      omega
    · obtain ⟨g, c, grant, low, -⟩ := holdsFloor_iff.mp holds
      exact ⟨sound, holdsFloor_iff.mpr ⟨g, _, grant, low, rfl, le_refl _⟩⟩
  unfold permitOffManaged
  dsimp only
  split
  · exact off.trans (reduce_steady _ _)
  · exact off.trans (.ofAlc (postGrant_alc ..))

/-- A permit turned ON (R129). -/
theorem permitOnManaged_steady (off : d.permit = .off) : Steady s (permitOnManaged i d s) := by
  have still : d.waits = false := by simp [Domain.waits, off]
  have on : Steady s (syncQueue i (s.setDomain i
      (some { d with permit := .on, effCeiling := some (s.ceilingOf { d with permit := .on }) }))) := by
    refine resynced_steady slot (le_refl _) rfl rfl (not_beneficiary slot still) fun sound holds => ?_
    obtain ⟨g, c, grant, low, -⟩ := holdsFloor_iff.mp holds
    have sound' : Domain.sound { d with permit := .on } = true := sound
    exact ⟨sound, holdsFloor_iff.mpr ⟨g, _, grant, low, rfl, floor_le_ceilingOf sound' s⟩⟩
  have told := on.trans (.ofAlc (postGrant_alc .ceiling i _))
  unfold permitOnManaged
  dsimp only
  split
  · exact told.trans (serve_steady _)
  · exact told

end

/-! ## Domains that settle or expire (R145, R147, R148) -/

/-- A change of domains that may take the last REVOKING domain from an open round. -/
structure Loose (s t : State) : Prop where
  floored : s.alc.Floored → t.alc.Floored
  rounded : s.alc.Rounded → t.alc.Rounded
  inStep : s.alc.InStep → t.alc.InStep
  fits : s.alc.Fits → t.alc.Fits

namespace Loose

theorem refl (s : State) : Loose s s := ⟨id, id, id, id⟩

theorem trans {s t u : State} (h : Loose s t) (k : Loose t u) : Loose s u :=
  ⟨k.floored ∘ h.floored, k.rounded ∘ h.rounded, k.inStep ∘ h.inStep, k.fits ∘ h.fits⟩

theorem foldl {β : Type} {f : State → β → State} (hf : ∀ s b, Loose s (f s b)) (l : List β) (s : State) :
    Loose s (l.foldl f s) := by
  induction l generalizing s with
  | nil => exact .refl s
  | cons b l ih => exact (hf s b).trans (ih _)

/-- The round is put in order after such a change. -/
theorem closeIfDone {s t : State} (h : Loose s t) : Steady s (closeIfDone t) where
  floored := fun f => closeIfDone_floored (h.floored f)
  booked := fun f b => closeIfDone_booked (h.floored f) (h.rounded b.rounded) (h.inStep b.inStep)
  fits := fun f fits => closeIfDone_fits (h.floored f) (h.fits fits)

end Loose

/-- What a domain's part in the books rests on. -/
def Domain.terms (d : Domain) : Nat × Nat × Nat × DomainKind × Permit × Option Nat × Option Nat × Option Nat :=
  (d.priority, d.floor, d.ceiling, d.kind, d.permit, d.request, d.effCeiling, d.grant)

section
variable {i : Fin 6} {d e : Domain} {s t : State}

theorem terms_kept (h : e.terms = d.terms) : e.priority = d.priority ∧ e.held = d.held ∧ e.waits = d.waits ∧
    e.shortfall = d.shortfall ∧ e.sound = d.sound ∧ e.holdsFloor = d.holdsFloor := by
  obtain ⟨kind, label, priority, floor, ceiling, rail, sense, volt, line, permit, request, effCeiling, grant, state, deadline,
    holdStart, measured, revocations, clamps, overdueSince⟩ := d
  simp only [Domain.terms, Prod.mk.injEq] at h
  obtain ⟨rfl, rfl, rfl, rfl, rfl, rfl, rfl, rfl⟩ := h
  exact ⟨rfl, rfl, rfl, rfl, rfl, rfl⟩

/-- A domain replaced on the same terms, which does not begin to revoke. -/
theorem loose_replace (slot : s.alc.domains.get i = some d)
    (alc : t.alc = { s.alc with domains := s.alc.domains.set i (some e) }) (terms : e.terms = d.terms)
    (state : e.state = .revoking → d.state = .revoking) : Loose s t := by
  obtain ⟨priority, held, waits, shortfall, sound, holds⟩ := terms_kept terms
  have domains : t.alc.domains = s.alc.domains.set i (some e) := by rw [alc]
  have round : t.alc.round = s.alc.round := by rw [alc]
  have queue : t.alc.queue = s.alc.queue := by rw [alc]
  have budget : t.alc.budget = s.alc.budget := by rw [alc]
  refine ⟨fun h => h.replace domains (sound.trans (h.domain slot).1) (holds.trans (h.domain slot).2),
    fun h => h.replace slot domains round queue state fun _ => shortfall.ge,
    fun h => h.replace slot domains queue priority waits, fun h => ?_⟩
  rw [Alc.Fits, Alc.taken, grantSum_replace slot domains held, round, budget]
  exact h

/-- When a REVOKING domain stays so, such a change keeps the books. -/
theorem Loose.steady (h : Loose s t) (slot : s.alc.domains.get i = some d)
    (alc : t.alc = { s.alc with domains := s.alc.domains.set i (some e) }) (state : d.state = .revoking → e.state = .revoking) :
    Steady s t :=
  ⟨h.floored, fun _ b => ⟨h.rounded b.rounded, pends_replace slot (e := e) (by rw [alc]) (by rw [alc]) state b.pends,
    h.inStep b.inStep⟩, fun _ => h.fits⟩

theorem settleDomain_alc : (settleDomain i d s).alc = { s.alc with domains := s.alc.domains.set i (some d.settledNow) } :=
  settleDomain_parts.2.1

theorem settleDomain_loose (slot : s.alc.domains.get i = some d) : Loose s (settleDomain i d s) :=
  loose_replace slot settleDomain_alc rfl nofun

theorem settleDomain_steady (slot : s.alc.domains.get i = some d) (other : d.state ≠ .revoking) :
    Steady s (settleDomain i d s) :=
  (settleDomain_loose slot).steady slot settleDomain_alc fun r => absurd r other

theorem expireDeadline_steady (i : Fin 6) (s : State) : Steady s (expireDeadline i s) := by
  cases slot : s.alc.domains.get i with
  | none =>
    have same : expireDeadline i s = s := by simp only [expireDeadline, slot]
    rw [same]
    exact .refl s
  | some d =>
    rw [expireDeadline_eq slot]
    refine (loose_replace (e := d.expired s.now) slot ?_ rfl ?_).closeIfDone
    · have kept := (expiry_parts i d s).2.1
      rw [State.toldRound, State.post_alc, State.setDomain_alc, kept]
    · unfold Domain.expired
      dsimp only
      split <;> exact nofun

end

end Sys2Proof.Machine

/-! PROOFS. Declarations and retirements keep the books of a managed table (R113, R123, R124). -/

namespace Sys2Proof.Machine

/-- In RUNNING and DOZING B is formed from its inputs and holds grants and reservation (R113). -/
structure State.Bounded (s : State) : Prop where
  formed : s.alc.budget.effective = some s.formB
  fits : s.alc.taken ≤ s.formB

theorem State.Bounded.alcFits {s : State} (h : s.Bounded) : s.alc.Fits := by
  rw [Alc.Fits, h.formed]
  exact h.fits

theorem State.Bounded.ofFits {s : State} (formed : s.alc.budget.effective = some s.formB) (fits : s.alc.Fits) : s.Bounded := by
  refine ⟨formed, ?_⟩
  rw [Alc.Fits, formed] at fits
  exact fits

/-- A steady operation of the Allocator on an unchanged budget keeps the bound. -/
theorem Steady.bounded {s t : State} (h : Steady s t) (grants : Grants s t) (budget : t.alc.budget = s.alc.budget)
    (f : s.alc.Floored) (b : s.Bounded) : t.Bounded :=
  .ofFits (by rw [budget, b.formed, grants.formB_eq]) (h.fits f b.alcFits)

theorem recompute_bounded {c : RoundCause} {s : State} (managed : s.managed = true) (f : s.alc.Floored) :
    (recompute c s).Bounded := .ofFits (recompute_effective c managed) (recompute_bounds managed f)

theorem recomputeCeilings_bounded {c : RoundCause} {s : State} (managed : s.managed = true) (f : s.alc.Floored) :
    (recomputeCeilings c s).Bounded := .ofFits (recomputeCeilings_effective c managed) (recomputeCeilings_bounds managed f)

/-! ## DOMAIN_DECLARE (R123) -/

section
variable {a b : Alc} {i : Fin 6} {e : Domain} (empty : a.domains.get i = none) (domains : b.domains = a.domains.set i (some e))
include empty domains

theorem revoking_fill (settled : e.state ≠ .revoking) (j : Fin 6) : b.revoking j = a.revoking j := by
  rw [revoking_replace domains]
  split
  · next own => rw [← own, revoking_eq, empty]; simpa using settled
  · rfl

/-- A new domain that neither waits nor revokes is in nobody's books. -/
theorem Alc.Booked.fill (round : b.round = a.round) (queue : b.queue = a.queue) (settled : e.state ≠ .revoking)
    (still : e.waits = false) (h : a.Booked) : b.Booked := by
  have unqueued : ¬a.entry i := fun entry => by
    obtain ⟨d, slot, -⟩ := h.inStep.domain entry
    rw [empty] at slot
    cases slot
  have entries : ∀ j, b.entry j ↔ a.entry j := fun j => by rw [Alc.entry, queue]; rfl
  refine ⟨⟨fun j hj => ?_, fun j hj => ?_, by rw [round]; exact h.rounded.once,
    fun x hx => ?_, by rw [round]; exact h.rounded.clear,
    by rw [round]; exact h.rounded.owned, fun j hj => ?_⟩, fun opened => ?_, by rw [queue]; exact h.inStep.order,
    by rw [queue]; exact h.inStep.once, fun x hx => ?_, fun j _ => ?_⟩
  · rw [revoking_fill empty domains settled] at hj
    rw [round]
    exact h.rounded.revokes j hj
  · rw [revoking_fill empty domains settled] at hj
    rw [round]
    exact h.rounded.lists j hj
  · rw [round] at hx
    rw [get_replace domains]
    split
    · rfl
    · exact h.rounded.declared x hx
  · rw [round] at hj
    obtain ⟨entry, fits⟩ := h.rounded.held j hj
    have ne : i ≠ j := fun own => unqueued (own ▸ entry)
    rw [entries, round, get_replace domains, if_neg ne]
    exact ⟨entry, fits⟩
  · rw [round] at opened
    obtain ⟨j, hj⟩ := h.pends opened
    exact ⟨j, by rw [revoking_fill empty domains settled]; exact hj⟩
  · rw [queue] at hx
    have ne : i ≠ x.slot := fun own => unqueued ⟨x, hx, own.symm⟩
    rw [get_replace domains, if_neg ne]
    exact h.inStep.fits x hx
  · rw [entries, Alc.waits, get_replace domains]
    split
    · next own =>
      subst own
      simp [still, unqueued]
    · exact h.inStep.waits j not_false

end

section
variable {i : Fin 6} {d : Domain} {s : State} (empty : s.alc.domains.get i = none) (managed : s.managed = true)
  (sound : d.sound = true) (request : d.request = none) (grant : d.grant = some d.floor) (settled : d.state = .settled)
include empty managed sound request grant settled

/-- A declaration in RUNNING or DOZING. -/
theorem enterDomain_managed_books : (s.alc.Floored → (enterDomain i d s).alc.Floored ∧ (enterDomain i d s).Bounded) ∧
    (s.alc.Floored → s.alc.Booked → (enterDomain i d s).alc.Booked) := by
  have ceiling := floor_le_ceilingOf sound s
  set e : Domain := { d with effCeiling := some (s.ceilingOf d) } with he
  set u := State.post (s.grantNotice i e .raise []) (assignIfNamed d.line (some i) (s.setDomain i (some e))) with hu
  have entered : enterDomain i d s = recompute .ceiling u := enterDomain_managed managed
  have alc : u.alc = { s.alc with domains := s.alc.domains.set i (some e) } := by
    rw [hu, State.post_alc, assignIfNamed_alc]
    rfl
  have managed' : u.managed = true := by
    rw [hu, assignIfNamed_eq]
    exact managed
  have domains : u.alc.domains = s.alc.domains.set i (some e) := by rw [alc]
  have still : e.waits = false := by
    have wanted : e.wanted = d.floor := by
      rw [wanted_of_ceiling (by simp [he])]
      show max d.floor (min (d.request.getD d.floor) (s.ceilingOf d)) = d.floor
      rw [request]
      exact max_eq_left (min_le_left _ _)
    have held : e.held = d.floor := by
      show d.grant.getD 0 = d.floor
      rw [grant]
      rfl
    simp [Domain.waits, wanted, held]
  have floors : s.alc.Floored → u.alc.Floored := fun f =>
    f.replace domains sound (holdsFloor_iff.mpr ⟨d.floor, s.ceilingOf d, grant, le_refl _, rfl, ceiling⟩)
  have other : e.state ≠ .revoking := by
    show d.state ≠ .revoking
    rw [settled]
    decide
  rw [entered]
  exact ⟨fun f => ⟨recompute_floored (floors f), recompute_bounded managed' (floors f)⟩, fun f h =>
    recompute_booked (floors f) (h.fill empty domains (by rw [alc]) (by rw [alc]) other still)⟩

end

/-! ## DOMAIN_RETIRE (R124) -/

section
variable {i : Fin 6} {d : Domain} {s : State} (slot : s.alc.domains.get i = some d)

theorem emptySlot_get (i j : Fin 6) (d : Domain) (s : State) :
    (emptySlot i d s).alc.domains.get j = if i = j then none else s.alc.domains.get j := by
  rw [emptySlot_alc, get_set]

theorem emptySlot_floored (h : s.alc.Floored) : (emptySlot i d s).alc.Floored := by
  refine Alc.Floored.ofDomains fun j x own => ?_
  rw [emptySlot_get] at own
  split at own
  · cases own
  · exact h.domain own

theorem emptySlot_revoking {j : Fin 6} (h : (emptySlot i d s).alc.revoking j = true) : i ≠ j ∧ s.alc.revoking j = true := by
  rw [revoking_eq, emptySlot_get] at h
  split at h
  · cases h
  · next ne => exact ⟨ne, by rw [revoking_eq]; exact h⟩

theorem emptySlot_entry (j : Fin 6) : (emptySlot i d s).alc.entry j ↔ s.alc.entry j ∧ j ≠ i := by
  rw [Alc.entry, emptySlot_alc]
  constructor
  · rintro ⟨e, he, rfl⟩
    obtain ⟨mem, other⟩ := mem_dropEntry.mp he
    exact ⟨⟨e, mem, rfl⟩, other⟩
  · rintro ⟨⟨e, he, rfl⟩, other⟩
    exact ⟨e, mem_dropEntry.mpr ⟨he, other⟩, rfl⟩

theorem emptySlot_inStep (h : s.alc.InStep) : (emptySlot i d s).alc.InStep := by
  have queue : (emptySlot i d s).alc.queue = dropEntry i s.alc.queue := by rw [emptySlot_alc]
  refine ⟨?_, ?_, fun e he => ?_, fun j _ => ?_⟩
  · rw [queue]
    exact h.order.filter _
  · rw [queue]
    exact h.once.sublist (List.Sublist.map _ List.filter_sublist)
  · rw [queue] at he
    obtain ⟨mem, other⟩ := mem_dropEntry.mp he
    rw [emptySlot_get, if_neg (Ne.symm other)]
    exact h.fits e mem
  · rw [emptySlot_entry, Alc.waits, emptySlot_get]
    by_cases own : j = i
    · simp [own]
    · rw [if_neg (Ne.symm own)]
      exact (and_iff_left own).trans (h.waits j not_false)

theorem emptySlot_rounded (h : s.alc.Rounded) : (emptySlot i d s).alc.Rounded := by
  have round : (emptySlot i d s).alc.round = if s.alc.round.beneficiary = some i then
      { s.alc.round with affected := s.alc.round.affected.filter (·.slot != i), reservation := 0, beneficiary := none }
      else { s.alc.round with affected := s.alc.round.affected.filter (·.slot != i) } := by rw [emptySlot_alc]
  have opened : (emptySlot i d s).alc.round.opened = s.alc.round.opened := by rw [round]; split <;> rfl
  have affected : (emptySlot i d s).alc.round.affected = s.alc.round.affected.filter (·.slot != i) := by
    rw [round]
    split <;> rfl
  refine ⟨fun j hj => ?_, fun j hj => ?_, ?_, fun x hx => ?_, fun closed => ?_, fun reserved => ?_, fun j hj => ?_⟩
  · rw [opened]
    exact h.revokes j (emptySlot_revoking hj).2
  · obtain ⟨ne, hj⟩ := emptySlot_revoking hj
    obtain ⟨x, mem, own⟩ := List.any_eq_true.mp (h.lists j hj)
    have own : x.slot = j := by simpa using own
    rw [Round.lists, affected]
    exact List.any_eq_true.mpr ⟨x, List.mem_filter.mpr ⟨mem, by simpa [own] using Ne.symm ne⟩, by simpa using own⟩
  · rw [affected]
    exact h.once.sublist (List.Sublist.map _ List.filter_sublist)
  · rw [affected] at hx
    obtain ⟨mem, other⟩ := List.mem_filter.mp hx
    have other : x.slot ≠ i := by simpa using other
    rw [emptySlot_get, if_neg (Ne.symm other)]
    exact h.declared x mem
  · rw [opened] at closed
    have clear := h.clear closed
    have nobody : s.alc.round.beneficiary = none := by rw [clear]; rfl
    rw [round, nobody, if_neg nofun, clear]
    rfl
  · rw [round] at reserved ⊢
    split at reserved
    · exact absurd rfl reserved
    · next other =>
      rw [if_neg other]
      exact h.owned reserved
  · rw [round] at hj ⊢
    split at hj
    · cases hj
    · next other =>
      rw [if_neg other]
      have ne : j ≠ i := fun own => other (own ▸ hj)
      rw [emptySlot_entry, emptySlot_get, if_neg (Ne.symm ne)]
      exact ⟨⟨(h.held j hj).1, ne⟩, (h.held j hj).2⟩

theorem emptySlot_reservation : (emptySlot i d s).alc.round.reservation ≤ s.alc.round.reservation := by
  rw [emptySlot_alc]
  dsimp only
  split
  · exact Nat.zero_le _
  · exact le_refl _

include slot in
/-- What the slot's value gives to a sum. -/
theorem sumDomains_empty (f : Domain → Nat) : (emptySlot i d s).alc.sumDomains f + f d = s.alc.sumDomains f := by
  have parts : ∀ a : Alc, a.sumDomains f = ∑ j, (a.domains.get j).elim 0 f := fun a => by
    rw [Alc.sumDomains, sumSix_eq]
    refine Finset.sum_congr rfl fun j _ => ?_
    cases a.domains.get j <;> rfl
  rw [parts, parts, ← Finset.add_sum_erase _ _ (Finset.mem_univ i),
    ← Finset.add_sum_erase _ (f := fun j => (s.alc.domains.get j).elim 0 f) (Finset.mem_univ i)]
  have rest : ∑ j ∈ Finset.univ.erase i, ((emptySlot i d s).alc.domains.get j).elim 0 f =
      ∑ j ∈ Finset.univ.erase i, (s.alc.domains.get j).elim 0 f := by
    refine Finset.sum_congr rfl fun j hj => ?_
    rw [emptySlot_get, if_neg (Finset.ne_of_mem_erase hj).symm]
  rw [rest, emptySlot_get, if_pos rfl, slot]
  simp only [Option.elim]
  omega

theorem floorSum_steps {a : Alc} (h : a.Floored) : a.floorSum % 250 = 0 := by
  refine sumSix_steps (f := a.floorOf) fun j => ?_
  cases slot : a.domains.get j with
  | none => rw [floorOf_none slot]
  | some d =>
    rw [floorOf_some slot]
    exact (sound_iff.mp (h.domain slot).1).2.1

/-- The inputs of B but the floors are those of the state before. -/
theorem emptySlot_inputs : (emptySlot i d s).base = s.base ∧ (emptySlot i d s).derate = s.derate ∧
    (emptySlot i d s).alc.budget = s.alc.budget := by
  have only := emptySlot_only i d s
  have budget : (emptySlot i d s).alc.budget = s.alc.budget := by rw [emptySlot_alc]
  rw [State.grantsOnly] at only
  have lst : (emptySlot i d s).lst = s.lst := by rw [only]
  have plu : (emptySlot i d s).plu = s.plu := by rw [only]
  simp only [State.base, State.cap, State.active, State.activeId, State.derate, budget, lst, plu, and_self]

include slot in
/-- What a retired domain held covers what B loses with its floor. -/
theorem emptySlot_bound (f : s.alc.Floored) (fits : s.alc.taken ≤ s.formB) :
    (emptySlot i d s).alc.taken ≤ (emptySlot i d s).formB := by
  obtain ⟨base, derate, budget⟩ := emptySlot_inputs (i := i) (d := d) (s := s)
  have low := floor_le_held f.holds slot
  have grants : (emptySlot i d s).alc.grantSum + d.held = s.alc.grantSum := sumDomains_empty slot Domain.held
  have floors : (emptySlot i d s).alc.floorSum + d.floor = s.alc.floorSum := sumDomains_empty slot Domain.floor
  have steps := floorSum_steps (emptySlot_floored (i := i) (d := d) f)
  have reserved := emptySlot_reservation (i := i) (d := d) (s := s)
  rw [Alc.taken] at fits ⊢
  unfold State.formB stepDown at fits ⊢
  rw [base, derate, budget]
  generalize s.base - s.alc.budget.reduction - s.derate = inputs at fits ⊢
  split at fits
  · next held =>
    rw [if_pos held]
    omega
  · next free =>
    rw [if_neg free]
    rcases le_total s.alc.floorSum inputs with less | more
    · rw [max_eq_right less] at fits
      rw [max_eq_right (by omega)]
      omega
    · rw [max_eq_left more] at fits
      have bound := le_max_left (emptySlot i d s).alc.floorSum inputs
      omega

include slot in
/-- A retirement in RUNNING or DOZING. -/
theorem retireManaged_books : (s.alc.Floored → (retireManaged i d s).alc.Floored) ∧
    (s.alc.Floored → s.Bounded → (retireManaged i d s).Bounded) ∧
    (s.alc.Floored → s.alc.Booked → (retireManaged i d s).alc.Booked) := by
  set u := refreshB (emptySlot i d s) with hu
  have domains : u.alc.domains = (emptySlot i d s).alc.domains := rfl
  have round : u.alc.round = (emptySlot i d s).alc.round := rfl
  have formB : u.formB = (emptySlot i d s).formB := ((Grants.refl _).refreshB).formB_eq
  have floored : s.alc.Floored → u.alc.Floored := fun f => (emptySlot_floored f).same domains
  have bounded : s.alc.Floored → s.Bounded → u.Bounded := fun f b =>
    ⟨congrArg some formB.symm, by rw [formB]; exact emptySlot_bound slot f b.fits⟩
  have rounded : s.alc.Booked → u.alc.Rounded := fun h =>
    have r := emptySlot_rounded (i := i) (d := d) h.rounded
    ⟨r.revokes, r.lists, r.once, r.declared, r.clear, r.owned, r.held⟩
  have inStep : s.alc.Booked → u.alc.InStep := fun h =>
    have q := emptySlot_inStep (i := i) (d := d) h.inStep
    ⟨q.order, q.once, q.fits, q.waits⟩
  have retired : retireManaged i d s = if u.alc.round.opened then closeIfDone u else serve u := rfl
  rw [retired]
  cases opened : u.alc.round.opened with
  | true =>
    rw [if_pos rfl]
    exact ⟨fun f => closeIfDone_floored (floored f), fun f b => .ofFits
      (by rw [closeIfDone_budget, (bounded f b).formed, ((Grants.refl u).closeIfDone).formB_eq])
      (closeIfDone_fits (floored f) (bounded f b).alcFits),
      fun f h => closeIfDone_booked (floored f) (rounded h) (inStep h)⟩
  | false =>
    rw [if_neg Bool.false_ne_true]
    exact ⟨fun f => (serve_steady u).floored (floored f), fun f b =>
      (serve_steady u).bounded ((Grants.refl u).serve) (serve_budget u) (floored f) (bounded f b),
      fun f h => (serve_steady u).booked (floored f) ⟨rounded h, fun e => absurd (opened.symm.trans e) (by decide), inStep h⟩⟩

end

end Sys2Proof.Machine

/-! PROOFS. What an operation that leaves RUNNING and DOZING as they are does to the books: recomputations, hand-overs, the
Allocator's step at a completion (R109, R110, R114, R121, R145, R148). -/

namespace Sys2Proof.Machine

/-! ## Operations within a mode -/

/-- An operation that keeps the table of a managed part in order, and the table of any other part as it is. -/
structure Ledger (s t : State) : Prop where
  managed : t.managed = s.managed
  asleep : s.managed = false →
    t.alc.domains = s.alc.domains ∧ t.alc.round = s.alc.round ∧ t.alc.queue = s.alc.queue
  floored : s.managed = true → s.alc.Floored → t.alc.Floored
  booked : s.managed = true → s.alc.Floored → s.alc.Booked → t.alc.Booked
  bounded : s.managed = true → s.alc.Floored → s.Bounded → t.Bounded

namespace Ledger

variable {s t u : State}

theorem refl (s : State) : Ledger s s := ⟨rfl, fun _ => ⟨rfl, rfl, rfl⟩, fun _ => id, fun _ _ => id, fun _ _ => id⟩

theorem trans (h : Ledger s t) (k : Ledger t u) : Ledger s u where
  managed := k.managed.trans h.managed
  asleep := fun m => by
    obtain ⟨domains, round, queue⟩ := h.asleep m
    obtain ⟨domains', round', queue'⟩ := k.asleep (h.managed.trans m)
    exact ⟨domains'.trans domains, round'.trans round, queue'.trans queue⟩
  floored := fun m f => k.floored (h.managed.trans m) (h.floored m f)
  booked := fun m f b => k.booked (h.managed.trans m) (h.floored m f) (h.booked m f b)
  bounded := fun m f b => k.bounded (h.managed.trans m) (h.floored m f) (h.bounded m f b)

theorem foldl {β : Type} {f : State → β → State} (hf : ∀ s b, Ledger s (f s b)) (l : List β) (s : State) :
    Ledger s (l.foldl f s) := by
  induction l generalizing s with
  | nil => exact .refl s
  | cons b l ih => exact (hf s b).trans (ih _)

/-- The table stays, and so does what B is formed to be. -/
theorem ofFormB (alc : t.alc = s.alc) (managed : t.managed = s.managed) (formB : t.formB = s.formB) : Ledger s t := by
  refine ⟨managed, fun _ => ?_, fun _ => ?_, fun _ _ => ?_, fun _ _ b => ⟨?_, ?_⟩⟩
  · rw [alc]
    exact ⟨rfl, rfl, rfl⟩
  · rw [alc]
    exact id
  · rw [alc]
    exact id
  · rw [alc, formB]
    exact b.formed
  · rw [alc, formB]
    exact b.fits

/-- The table and what B is formed from stay. -/
theorem ofSame (alc : t.alc = s.alc) (managed : t.managed = s.managed) (lst : t.lst = s.lst)
    (placement : t.plu.placement = s.plu.placement) : Ledger s t :=
  ofFormB alc managed (formB_congr alc lst placement)

theorem ofNotices (h : s.noticesOnly t) : Ledger s t :=
  .ofSame (congrArg State.alc h :) (congrArg State.managed h :) (congrArg State.lst h :) (congrArg (·.plu.placement) h :)

theorem ofLines (h : s.linesOnly t) : Ledger s t :=
  .ofSame (congrArg State.alc h :) (congrArg State.managed h :) (congrArg State.lst h :) (congrArg (·.plu.placement) h :)

/-- A steady operation in RUNNING or DOZING on an unchanged budget. -/
theorem ofSteady (managed : s.managed = true) (h : Steady s t) (grants : Grants s t) (budget : t.alc.budget = s.alc.budget) :
    Ledger s t where
  managed := grants.managed
  asleep := fun m => absurd (managed.symm.trans m) (by decide)
  floored := fun _ => h.floored
  booked := fun _ => h.booked
  bounded := fun _ => h.bounded grants budget

/-- An input of B changed, and B formed anew where the part is managed. -/
theorem recomputed (c : RoundCause) (f : Budget → Budget) (s : State) : Ledger s (recompute c (s.withBudget f)) := by
  have grants := (Grants.refl (s.withBudget f)).recompute c
  refine ⟨grants.managed, fun m => ?_, fun _ h => recompute_floored (h.same rfl),
    fun _ h b => recompute_booked (h.same rfl) (b.same rfl rfl rfl),
    fun m h _ => recompute_bounded m (h.same rfl)⟩
  have still : recompute c (s.withBudget f) = s.withBudget f := if_neg (by simp [State.managed] at m ⊢; simp [m])
  rw [still]
  exact ⟨rfl, rfl, rfl⟩

/-- The same with the effective ceilings formed anew. -/
theorem recomputedCeilings (managed : s.managed = true) (c : RoundCause) (f : Budget → Budget) :
    Ledger s (recomputeCeilings c (s.withBudget f)) where
  managed := ((Grants.refl (s.withBudget f)).recomputeCeilings c).managed
  asleep := fun m => absurd (managed.symm.trans m) (by decide)
  floored := fun _ h => recomputeCeilings_floored (h.same rfl)
  booked := fun _ h b => recomputeCeilings_booked (h.same rfl) (b.same rfl rfl rfl)
  bounded := fun _ h _ => recomputeCeilings_bounded managed (h.same rfl)

end Ledger

/-! ## Inputs of B (R91, R106, R108, R165) -/

theorem handReduction_ledger (z : Fin 6) (r : Nat) (s : State) : Ledger s (handReduction z r s) := .recomputed ..

theorem handSeverity_ledger (z : Fin 6) (v : Bool) (s : State) : Ledger s (handSeverity z v s) := .recomputed ..

theorem handDerate_ledger (n : Fin 2) (v : Bool) (s : State) : Ledger s (handDerate n v s) := .recomputed ..

theorem storeCap_ledger (cap : Option Nat) (s : State) : Ledger s (storeCap cap s) := by
  unfold storeCap
  dsimp only
  split
  · next same =>
    refine .ofSame ?_ rfl rfl rfl
    rw [State.withBudget_alc, ← same]
  · exact .recomputed ..

theorem handSource_ledger (s : State) : Ledger s (handSource s) := by
  rcases handSource_cases s with ⟨same, -⟩ | ⟨managed, c, e | e⟩
  · rw [same]
    exact .refl s
  · rw [e]
    exact .recomputed ..
  · rw [e]
    exact .recomputedCeilings managed ..

theorem takeNewSet_ledger {s : State} (managed : s.managed = true) (c : RoundCause) : Ledger s (takeNewSet c s) := by
  unfold takeNewSet
  exact .recomputedCeilings managed ..

theorem setFan_ledger (n : Fin 2) (g : Fan) (s : State) : Ledger s (setFan n g s) := by
  have stored : Ledger s (s.stored n g) := .ofSame rfl rfl rfl rfl
  by_cases claim : (s.fnc.fans.get n).state.claim = g.state.claim
  · cases same : (s.fnc.fans.get n).state.same g.state with
    | true =>
      rw [setFan_stored same claim]
      exact stored
    | false =>
      rw [setFan_told same claim]
      exact stored.trans (.ofSame rfl rfl rfl rfl)
  · obtain ⟨t, handed, told⟩ := setFan_claims claim
    rw [handed]
    exact (stored.trans (.ofNotices told)).trans (handDerate_ledger ..)

/-! ## Hand-overs of zones and fans -/

theorem HandStep.ledger {W : Fin 6 → Prop} {s t : State} (h : HandStep W s t) : Ledger s t := by
  cases h with
  | severity z v => exact handSeverity_ledger z v s
  | derate n v => exact handDerate_ledger n v s
  | fan n t => exact .ofSame rfl rfl rfl rfl
  | fanNotice n f => exact .ofSame rfl rfl rfl rfl
  | zoneNotice z _ => exact .ofSame rfl rfl rfl rfl
  | demand z d => exact .ofSame rfl rfl rfl rfl
  | demands f => exact .ofSame rfl rfl rfl rfl
  | judged z x w _ => exact .ofSame rfl rfl rfl rfl
  | claim v => exact .ofSame rfl rfl rfl rfl
  | clamp => exact .ofLines (linesOnly_addCauseTo ..)
  | unclamp => exact .ofLines (linesOnly_withdrawCauseFrom ..)
  | wake _ dozing =>
    rw [State.awake_eq]
    refine .ofSame rfl ?_ rfl rfl
    simp [State.managed, dozing, Mode.managed]

theorem Hands.ledger {W : Fin 6 → Prop} {s t : State} (h : Hands W s t) : Ledger s t :=
  h.keeps .refl .trans HandStep.ledger

theorem evaluateZone_ledger (z : Fin 6) (s : State) : Ledger s (evaluateZone z s) :=
  Hands.ledger (W := fun y => y = z) ((Hands.refl s).evaluateZone rfl)

theorem applyTarget_ledger (n : Fin 2) (s : State) : Ledger s (applyTarget n s) :=
  ((Hands.refl (W := fun _ => False) s).applyTarget n).ledger

theorem applyTargets_ledger (s : State) : Ledger s (applyTargets s) :=
  ((Hands.refl (W := fun _ => False) s).applyTargets).ledger

theorem reformDemands_ledger (s : State) : Ledger s (reformDemands s) :=
  ((Hands.refl (W := fun _ => False) s).reformDemands).ledger

/-! ## The Allocator's step at a completion (R109, R110, R121, R145, R148) -/

/-- Every domain on the same terms, and none that begins to revoke. -/
theorem loose_pointwise {s t : State}
    (terms : ∀ i, (t.alc.domains.get i).map Domain.terms = (s.alc.domains.get i).map Domain.terms)
    (state : ∀ i, t.alc.revoking i = true → s.alc.revoking i = true) (alc : t.alc = { s.alc with domains := t.alc.domains }) :
    Loose s t := by
  have round : t.alc.round = s.alc.round := by rw [alc]
  have queue : t.alc.queue = s.alc.queue := by rw [alc]
  have budget : t.alc.budget = s.alc.budget := by rw [alc]
  have both : ∀ i, (t.alc.domains.get i = none ∧ s.alc.domains.get i = none) ∨
      ∃ e d, t.alc.domains.get i = some e ∧ s.alc.domains.get i = some d ∧ e.terms = d.terms := fun i => by
    have same := terms i
    cases new : t.alc.domains.get i with
    | none =>
      rw [new] at same
      exact .inl ⟨rfl, Option.map_eq_none_iff.mp same.symm⟩
    | some e =>
      rw [new] at same
      obtain ⟨d, old, like⟩ := Option.map_eq_some_iff.mp same.symm
      exact .inr ⟨e, d, rfl, old, like.symm⟩
  have waits : ∀ i, t.alc.waits i = s.alc.waits i := fun i => by
    rcases both i with ⟨new, old⟩ | ⟨e, d, new, old, like⟩
    · rw [Alc.waits, Alc.waits, new, old]
    · rw [waits_of_slot (s := t) new, waits_of_slot (s := s) old, (terms_kept like).2.2.1]
  have entries : ∀ i, t.alc.entry i ↔ s.alc.entry i := fun i => by rw [Alc.entry, queue]; rfl
  refine ⟨fun h => .ofDomains fun i e slot => ?_,
    fun h => ⟨fun i hi => ?_, fun i hi => ?_, by rw [round]; exact h.once, fun x hx => ?_,
    by rw [round]; exact h.clear, by rw [round]; exact h.owned, fun i hi => ?_⟩, fun h => ⟨by rw [queue]; exact h.order,
    by rw [queue]; exact h.once, fun x hx => ?_, fun i hi => ?_⟩, fun h => ?_⟩
  · rcases both i with ⟨new, -⟩ | ⟨e', d, new, old, like⟩
    · rw [slot] at new
      cases new
    · rw [slot] at new
      cases new
      obtain ⟨-, -, -, -, sound, holds⟩ := terms_kept like
      exact ⟨sound.trans (h.domain old).1, holds.trans (h.domain old).2⟩
  · rw [round]
    exact h.revokes i (state i hi)
  · rw [round]
    exact h.lists i (state i hi)
  · rw [round] at hx
    have declared := h.declared x hx
    rw [← Option.isSome_map (f := Domain.terms)] at declared ⊢
    rw [terms]
    exact declared
  · rw [round] at hi
    obtain ⟨entry, fits⟩ := h.held i hi
    refine ⟨(entries i).mpr entry, ?_⟩
    rw [round]
    rcases both i with ⟨new, old⟩ | ⟨e, d, new, old, like⟩
    · rw [old] at fits
      rw [new]
      exact fits
    · rw [old] at fits
      rw [new]
      exact fits.trans (terms_kept like).2.2.2.1.ge
  · rw [queue] at hx
    have fits := h.fits x hx
    rcases both x.slot with ⟨new, old⟩ | ⟨e, d, new, old, like⟩
    · rw [old] at fits
      cases fits
    · rw [old] at fits
      rw [new, ← fits]
      exact congrArg some (terms_kept like).1
  · rw [entries, waits]
    exact h.waits i hi
  · have sum : t.alc.grantSum = s.alc.grantSum := by
      rw [grantSum_eq, grantSum_eq]
      refine congrArg sumSix (funext fun i => ?_)
      rcases both i with ⟨new, old⟩ | ⟨e, d, new, old, like⟩
      · rw [grants_none new, grants_none old]
      · rw [grants_some new, grants_some old, (terms_kept like).2.1]
    rw [Alc.Fits, Alc.taken, sum, round, budget]
    exact h

theorem checked_terms (d : Domain) (timeMs tolerance : Nat) : (d.checked timeMs tolerance).terms = d.terms := by
  unfold Domain.checked
  (repeat' split) <;> rfl

theorem checked_revoking {d : Domain} {timeMs tolerance : Nat} (h : (d.checked timeMs tolerance).state = .revoking) :
    d.state = .revoking := by
  unfold Domain.checked at h
  split at h
  · cases h
  · split at h <;> exact h

/-- Measured powers and the compliance checks leave every domain on its terms. -/
theorem completion_loose (c : Completion) (s : State) :
    Loose s (six.foldl (fun t i => checkDomain c.timeMs i t) (measureDomains c s)) := by
  have checked := checkDomains_checked c.timeMs six (by decide) (measureDomains c s)
  have get : ∀ i, (six.foldl (fun t i => checkDomain c.timeMs i t) (measureDomains c s)).alc.domains.get i =
      (s.alc.domains.get i).map fun d => ({ d with measured := d.measuredIn c }).checked c.timeMs s.active.tolerance := fun i => by
    rw [checked.domains i, if_pos (mem_six i), measureDomains_get, Option.map_map]
    rfl
  refine loose_pointwise (fun i => ?_) (fun i hi => ?_) checked.alc
  · rw [get, Option.map_map]
    exact congrArg (fun f => (s.alc.domains.get i).map f) (funext fun d => checked_terms _ _ _)
  · rw [revoking_iff] at hi ⊢
    obtain ⟨e, slot, state⟩ := hi
    rw [get] at slot
    obtain ⟨d, old, rfl⟩ := Option.map_eq_some_iff.mp slot
    exact ⟨d, old, checked_revoking (d := { d with measured := d.measuredIn c }) state⟩

theorem updateBurst_ledger (c : Completion) (dtMs : Nat) (s : State) : Ledger s (updateBurst c dtMs s) := by
  unfold updateBurst
  dsimp only
  split
  · next same =>
    rw [same]
    have formB : (s.withBudget fun b => { b with
        credit := creditAfter s.active s.alc.budget.credit (platformPower s c) dtMs, armed := s.alc.budget.armed }).formB =
      s.formB := rfl
    exact ⟨rfl, fun _ => ⟨rfl, rfl, rfl⟩, fun _ h => h.same rfl, fun _ _ b => b.same rfl rfl rfl,
      fun _ _ b => ⟨by rw [formB]; exact b.formed, by rw [formB]; exact b.fits⟩⟩
  · exact .recomputed ..

/-- B is formed from the budget record, the floors, the limits and the placement. -/
theorem formB_of_inputs {s t : State} (budget : t.alc.budget = s.alc.budget) (floors : t.alc.floorSum = s.alc.floorSum)
    (lst : t.lst = s.lst) (placement : t.plu.placement = s.plu.placement) : t.formB = s.formB := by
  simp only [State.formB, State.base, State.cap, State.active, State.activeId, State.derate, budget, floors, lst, placement]

theorem allocatorCompletion_ledger {s : State} (managed : s.managed = true) (c : Completion) (dtMs : Nat) :
    Ledger s (allocatorCompletion c dtMs s) := by
  have checked := checkDomains_checked c.timeMs six (by decide) (measureDomains c s)
  set u := six.foldl (fun t i => checkDomain c.timeMs i t) (measureDomains c s) with hu
  have steady : Steady s (closeIfDone u) := (completion_loose c s).closeIfDone
  have alc := checked.alc
  have mode : u.mdc = s.mdc := (congrArg State.mdc checked.only :)
  have close := (Grants.refl u).closeIfDone
  have formB : (closeIfDone u).formB = s.formB := by
    have floors : u.alc.floorSum = s.alc.floorSum := floorSum_congr fun i => by
      have cores := (Grants.foldl (fun _ i h => h.checkDomain c.timeMs i) six (Grants.refl (measureDomains c s))).cores i
      refine cores.trans ?_
      rw [Alc.coreOf, Alc.coreOf, measureDomains_get, Option.map_map]
      rfl
    rw [close.formB_eq]
    exact formB_of_inputs (by rw [alc]; rfl) floors (congrArg State.lst checked.only :) (congrArg (·.plu.placement) checked.only :)
  have budget : (closeIfDone u).alc.budget = s.alc.budget := by
    rw [closeIfDone_budget, alc]
    rfl
  have first : Ledger s (closeIfDone u) :=
    { managed := close.managed.trans (by rw [State.managed, mode]; rfl)
      asleep := fun m => absurd (managed.symm.trans m) (by decide)
      floored := fun _ => steady.floored
      booked := fun _ => steady.booked
      bounded := fun _ f b => .ofFits (by rw [budget, b.formed, formB]) (steady.fits f b.alcFits) }
  exact first.trans (updateBurst_ledger c dtMs _)

end Sys2Proof.Machine

/-! PROOFS. A new active set and the RUN entry put the table in order (R12, R13, R111, R117, R137). -/

namespace Sys2Proof.Machine

/-! ## A new active set (R12, R111) -/

theorem setConsumer_ledger {s : State} (managed : s.managed = true) (cause : RoundCause) (n : Nat) :
    Ledger s (setConsumer cause n s) := by
  cases n with
  | zero => exact takeNewSet_ledger managed cause
  | succ n =>
    rcases setConsumer_succ cause n s with ⟨z, -, e⟩ | e <;> rw [e]
    · exact evaluateZone_ledger z s
    · exact applyTargets_ledger s

theorem handSet_ledger (cause : RoundCause) (s : State) : Ledger s (handSet cause s) := by
  cases managed : s.managed with
  | false =>
    have same : handSet cause s = s := if_neg (by simp [managed])
    rw [same]
    exact .refl s
  | true =>
    rw [handSet_managed cause managed]
    have start : Ledger s s.takeChoice := .ofSame rfl rfl rfl rfl
    exact inFreeOrder_keeps (P := Ledger s) start fun n t _ h => h.trans (setConsumer_ledger (h.managed.trans managed) cause n)

theorem takeNewSet_bounds {s : State} (managed : s.managed = true) (cause : RoundCause) (f : s.alc.Floored) :
    (takeNewSet cause s).Bounded := by
  unfold takeNewSet
  exact recomputeCeilings_bounded managed (f.same rfl)

/-- Whatever B was formed from before, the hand-over of the active set brings the table within B. -/
theorem handSet_bounds {s : State} (managed : s.managed = true) (cause : RoundCause) (f : s.alc.Floored) :
    (handSet cause s).Bounded := by
  rw [handSet_managed cause managed]
  refine (inFreeOrder_once (P := fun t => t.managed = true ∧ t.alc.Floored)
    (Q := fun t => t.managed = true ∧ t.alc.Floored ∧ t.Bounded) (n := 8) (k := 0) (by decide) ⟨managed, f.same rfl⟩
    (fun n t _ ⟨m, h⟩ => ?_) (fun t ⟨m, h⟩ => ?_) fun n t _ ⟨m, h, b⟩ => ?_).2.2
  · have ledger := setConsumer_ledger m cause n
    exact ⟨ledger.managed.trans m, ledger.floored m h⟩
  · have ledger := takeNewSet_ledger m cause
    exact ⟨ledger.managed.trans m, ledger.floored m h, takeNewSet_bounds m cause h⟩
  · have ledger := setConsumer_ledger m cause n
    exact ⟨ledger.managed.trans m, ledger.floored m h, ledger.bounded m h b⟩

/-! ## The RUN entry (R117, R137) -/

/-- A managed domain at its floor. -/
def Domain.atFloor (d : Domain) : Prop := d.holdsFloor = true ∧ d.grant = some d.floor ∧ d.state = .settled

/-- The domains of some slots are at their floors. -/
def Alc.AtFloor (a : Alc) (i : Fin 6) : Prop := ∀ d, a.domains.get i = some d → d.atFloor

theorem manageDomain_get (i j : Fin 6) (s : State) : (manageDomain i s).alc.domains.get j = if i = j then
    (s.alc.domains.get j).map fun d => { d with effCeiling := some (s.ceilingOf d), grant := some d.floor, state := .settled
                                                measured := d.measuredIn s.msu.last } else s.alc.domains.get j := by
  unfold manageDomain
  split
  · next empty =>
    split
    · next own => rw [← own, empty]; rfl
    · rfl
  · next d slot =>
    rw [postGrant_alc, State.setDomain_alc, get_set]
    split
    · next own => rw [← own, slot]; rfl
    · rfl

theorem manageDomain_rest (i : Fin 6) (s : State) : (manageDomain i s).alc.round = s.alc.round ∧
    (manageDomain i s).alc.queue = s.alc.queue := by
  unfold manageDomain
  split
  · exact ⟨rfl, rfl⟩
  · rw [postGrant_alc]
    exact ⟨rfl, rfl⟩

theorem manageAll_floors (l : List (Fin 6)) (s : State) (sound : s.alc.allDomains Domain.sound = true) :
    let t := l.foldl (fun t i => manageDomain i t) s
    t.alc.allDomains Domain.sound = true ∧ (∀ j, j ∈ l ∨ s.alc.AtFloor j → t.alc.AtFloor j) ∧
      t.alc.round = s.alc.round ∧ t.alc.queue = s.alc.queue := by
  induction l generalizing s with
  | nil => exact ⟨sound, fun j h => h.resolve_left List.not_mem_nil, rfl, rfl⟩
  | cons i l ih =>
    have kept : (manageDomain i s).alc.allDomains Domain.sound = true := allDomains_iff.mpr fun j e slot => by
      rw [manageDomain_get] at slot
      split at slot
      · obtain ⟨d, old, rfl⟩ := Option.map_eq_some_iff.mp slot
        exact allDomains_iff.mp sound j d old
      · exact allDomains_iff.mp sound j e slot
    obtain ⟨sound', floors, round, queue⟩ := ih (manageDomain i s) kept
    refine ⟨sound', fun j h => floors j ?_, round.trans (manageDomain_rest i s).1, queue.trans (manageDomain_rest i s).2⟩
    rw [List.mem_cons, or_assoc] at h
    by_cases own : i = j
    · refine .inr fun e slot => ?_
      rw [manageDomain_get, if_pos own] at slot
      obtain ⟨d, old, rfl⟩ := Option.map_eq_some_iff.mp slot
      exact ⟨holdsFloor_iff.mpr ⟨d.floor, s.ceilingOf d, rfl, le_refl _, rfl,
          floor_le_ceilingOf (allDomains_iff.mp sound j d old) s⟩,
        rfl, rfl⟩
    · rcases h with e | h | h
      · exact absurd e.symm own
      · exact .inl h
      · refine .inr fun e slot => ?_
        rw [manageDomain_get, if_neg own] at slot
        exact h e slot

/-- Every entry brought into line one after the other. -/
theorem syncAll_inStep (l : List (Fin 6)) (s : State) {but : Fin 6 → Prop} (h : s.alc.Queued but) :
    let t := l.foldl (fun t i => syncQueue i t) s
    t.alc.Queued (fun j => but j ∧ j ∉ l) ∧ t.alc.domains = s.alc.domains ∧ t.alc.round = s.alc.round := by
  induction l generalizing s but with
  | nil => exact ⟨h.mono fun j hj => ⟨hj, List.not_mem_nil⟩, rfl, rfl⟩
  | cons i l ih =>
    have one : (syncQueue i s).alc.Queued fun j => but j ∧ j ≠ i :=
      Alc.Queued.syncQueue h.order h.once (fun e he _ => h.fits e he) fun j hb _ => h.waits j hb
    obtain ⟨queued, domains, round⟩ := ih (syncQueue i s) one
    refine ⟨queued.mono fun j hj => ⟨hj.1.1, fun mem => ?_⟩,
      domains.trans (syncQueue_domains i s), round.trans (syncQueue_round i s)⟩
    rcases List.mem_cons.mp mem with e | mem
    · exact hj.1.2 e
    · exact hj.2 mem

theorem Alc.Booked.ofClosed {a : Alc} (still : ∀ i, a.revoking i = false)
    (closed : a.round = a.round.closed) (inStep : a.InStep) :
    a.Booked where
  rounded :=
    { revokes := fun i hi => absurd ((still i).symm.trans hi) (by decide)
      lists := fun i hi => absurd ((still i).symm.trans hi) (by decide)
      once := by rw [closed]; exact List.nodup_nil
      declared := fun _ e => by
        rw [closed] at e
        exact (List.not_mem_nil e).elim
      clear := fun _ => closed
      owned := fun e => absurd (by rw [closed]; rfl) e
      held := fun i e => by
        rw [closed] at e
        cases e }
  pends := fun e => by
    rw [closed] at e
    cases e
  inStep := inStep

/-- The Allocator with the inputs of RUN and B formed from them (R117). -/
def State.runInputs (s : State) : State :=
  refreshB (s.withBudget fun b =>
    { b.takeSource s.srm with credit := 0, armed := false, reductions := Vector.replicate 6 0
                              severities := Vector.replicate 6 false })

theorem allocatorRun_eq (s : State) :
    allocatorRun s = serve (six.foldl (fun t i => syncQueue i t) (six.foldl (fun t i => manageDomain i t) s.runInputs)) := rfl

theorem runInputs_effective (s : State) : s.runInputs.alc.budget.effective = some s.runInputs.formB := by
  rw [State.runInputs, ((Grants.refl _).refreshB).formB_eq]
  rfl

section
variable {u v w : State} (managed : v = six.foldl (fun t i => manageDomain i t) u)
  (synced : w = six.foldl (fun t i => syncQueue i t) v)
  (sound : u.alc.allDomains Domain.sound = true)
include managed sound

theorem runFloors_facts : Grants u v ∧ v.alc.budget = u.alc.budget ∧ v.alc.allDomains Domain.sound = true ∧
    (∀ j, v.alc.AtFloor j) ∧ v.alc.round = u.alc.round ∧ v.alc.queue = u.alc.queue := by
  subst managed
  obtain ⟨grants, -, budget, -⟩ := manageAll_facts six u
  obtain ⟨sound', floor, round, queue⟩ := manageAll_floors six u sound
  exact ⟨grants, budget, sound', fun j => floor j (.inl (mem_six j)), round, queue⟩

include synced

/-- Every domain at its floor, before the queue is served. -/
theorem runFloors_books (free : u.alc.round.reservation = 0) (effective : u.alc.budget.effective = some u.formB) :
    w.alc.Floored ∧ w.alc.Fits ∧ (u.alc.round = u.alc.round.closed → u.alc.queue = [] → w.alc.Booked) := by
  obtain ⟨grants, budget, sound', floor, round, queue⟩ := runFloors_facts managed sound
  have sbudget : w.alc.budget = v.alc.budget := synced ▸ syncAll_budget six v
  have start : u.alc.queue = [] → v.alc.Queued fun _ => True := fun empty => by
    have none : v.alc.queue = [] := queue.trans empty
    exact ⟨by rw [none]; exact List.Pairwise.nil, by rw [none]; exact List.nodup_nil,
      by rw [none]; exact fun _ e => (List.not_mem_nil e).elim,
      fun _ h => absurd trivial h⟩
  have syncs : w.alc.domains = v.alc.domains ∧ w.alc.round = v.alc.round := by
    rw [synced]
    refine List.foldlRecOn six (fun t i => syncQueue i t)
      (motive := fun t => t.alc.domains = v.alc.domains ∧ t.alc.round = v.alc.round) ⟨rfl, rfl⟩ fun t h i _ => ?_
    exact ⟨(syncQueue_domains i t).trans h.1, (syncQueue_round i t).trans h.2⟩
  have inStep : u.alc.queue = [] → w.alc.InStep := fun empty => by
    rw [synced]
    exact (syncAll_inStep six v (start empty)).1.mono (q := fun _ => False) fun j h => h.2 (mem_six j)
  clear synced managed
  refine ⟨Alc.Floored.ofDomains fun i d slot => ?_, ?_, fun closed empty => .ofClosed (fun i => ?_) ?_ (inStep empty)⟩
  · rw [syncs.1] at slot
    exact ⟨allDomains_iff.mp sound' i d slot, (floor i d slot).1⟩
  · have sums : w.alc.grantSum = u.alc.floorSum := by
      rw [← floorSum_congr grants.cores, grantSum_eq, floorSum_eq]
      refine congrArg sumSix (funext fun i => ?_)
      cases slot : v.alc.domains.get i with
      | none => rw [floorOf_none slot, grants_none (by rw [syncs.1]; exact slot)]
      | some d =>
        rw [floorOf_some slot, grants_some (d := d) (by rw [syncs.1]; exact slot), Domain.held, (floor i d slot).2.1]
        rfl
    rw [Alc.Fits, Alc.taken, syncs.2, round, free, sbudget, budget, effective, sums]
    exact floorSum_le_formB sound
  · rw [revoking_eq, syncs.1]
    cases slot : v.alc.domains.get i with
    | none => rfl
    | some d => simp [(floor i d slot).2.2]
  · rw [syncs.2, round]
    exact closed

end

/-- The Allocator's RUN entry, from a table that is not managed: every domain at its floor, and what the queue is then given. -/
theorem allocatorRun_books {s : State} (sound : s.alc.allDomains Domain.sound = true) (free : s.alc.round.reservation = 0) :
    (allocatorRun s).alc.Floored ∧ (allocatorRun s).Bounded ∧
      (s.alc.round = s.alc.round.closed → s.alc.queue = [] → (allocatorRun s).alc.Booked) := by
  have effective : (allocatorRun s).alc.budget.effective = some (allocatorRun s).formB := (allocatorRun_facts s).2.2.2.2.2.1
  have books := runFloors_books (u := s.runInputs) rfl rfl sound free (runInputs_effective s)
  rw [allocatorRun_eq] at effective ⊢
  generalize six.foldl (fun t i => syncQueue i t) (six.foldl (fun t i => manageDomain i t) s.runInputs) = w at effective books ⊢
  obtain ⟨floored, fits, booked⟩ := books
  have steady := serve_steady w
  exact ⟨steady.floored floored, .ofFits effective (steady.fits floored fits), fun closed empty =>
    steady.booked floored (booked closed empty)⟩

end Sys2Proof.Machine

/-! PROOFS. What leaves the books and the zones alone: the units that hand nothing to the Allocator (chapters 2, 3, 4 and 10). -/

namespace Sys2Proof.Machine

/-- What table, B and zones are judged by. -/
def State.view (s : State) : Alc × Mode × Lst × Placement × Znm := (s.alc, s.mdc.mode, s.lst, s.plu.placement, s.znm)

/-! ## Records that are not in view -/

@[simp] theorem withMsu_view (f : Msu → Msu) (s : State) : (s.withMsu f).view = s.view := rfl
@[simp] theorem withCsu_view (f : Csu → Csu) (s : State) : (s.withCsu f).view = s.view := rfl
@[simp] theorem withSlk_view (f : Slk → Slk) (s : State) : (s.withSlk f).view = s.view := rfl
@[simp] theorem withSrm_view (f : Srm → Srm) (s : State) : (s.withSrm f).view = s.view := rfl
@[simp] theorem withFans_view (f : Vector Fan 2 → Vector Fan 2) (s : State) : (s.withFans f).view = s.view := rfl
@[simp] theorem setChannel_view (c : Fin 16) (r : Channel) (s : State) : (s.setChannel c r).view = s.view := rfl
@[simp] theorem setElectrode_view (i : Fin 8) (e : Electrode) (s : State) : (s.setElectrode i e).view = s.view := rfl
@[simp] theorem setClaim_view (k : Claim) (s : State) : (s.setClaim k).view = s.view := rfl
@[simp] theorem setGuard_view (v : Bool) (s : State) : (s.setGuard v).view = s.view := rfl
@[simp] theorem post_view (n : Notice) (s : State) : (s.post n).view = s.view := rfl
@[simp] theorem reach_view (time : Nat) (s : State) : (s.reach time).view = s.view := rfl
@[simp] theorem elapse_view (dt : Nat) (s : State) : (s.elapse dt).view = s.view := rfl
@[simp] theorem occupy_view (r : RequestSlot) (s : State) : (s.occupy r).view = s.view := rfl
@[simp] theorem takeChoice_view (s : State) : s.takeChoice.view = s.view := rfl
@[simp] theorem withPending_view (q : List Instr) (s : State) : (s.withPending q).view = s.view := rfl

@[simp] theorem detect_view (k : FaultKind) (subject : Nat) (s : State) : (detect k subject s).view = s.view := by
  unfold detect
  dsimp only
  split <;> rfl

theorem view_of_lines {s t : State} (h : s.linesOnly t) : t.view = s.view := by
  rw [h]
  rfl

theorem view_of_notices {s t : State} (h : s.noticesOnly t) : t.view = s.view := by
  rw [h]
  rfl

/-! ## The evidence record (R61 to R68) -/

@[simp] theorem newCandidate_view (p : SetId) (s : State) : (newCandidate p s).view = s.view := rfl

@[simp] theorem evaluateCandidate_view (s : State) : (evaluateCandidate s).view = s.view := by
  unfold evaluateCandidate
  split
  · rfl
  · split <;> simp

@[simp] theorem updateEvidence_view (f : Evidence → Evidence) (s : State) : (updateEvidence f s).view = s.view :=
  evaluateCandidate_view _

@[simp] theorem takeReport_view (report : Vector TouchClass 8) (s : State) : (takeReport report s).view = s.view :=
  updateEvidence_view ..

theorem changeLid_view (s : State) : (changeLid s).view = s.view := updateEvidence_view ..

theorem changeMotion_view (s : State) : (changeMotion s).view = s.view := by
  unfold changeMotion
  dsimp only
  split <;> exact updateEvidence_view ..

theorem becomeStill_view (s : State) : (becomeStill s).view = s.view := updateEvidence_view ..

/-! ## The measurement unit (R23, R26, R29, R32) -/

@[simp] theorem convertChannel_view (c : Fin 16) (raw gain : Nat) (offset : Int) (s : State) :
    (convertChannel c raw gain offset s).view = s.view := by
  unfold convertChannel
  dsimp only
  split <;> simp

@[simp] theorem advanceScan_view (s : State) : (advanceScan s).view = s.view := rfl

@[simp] theorem beginMeasurement_view (s : State) : (beginMeasurement s).view = s.view := rfl

@[simp] theorem freeFrontEnd_view (s : State) : (freeFrontEnd s).view = s.view := by
  unfold freeFrontEnd
  split <;> rfl

@[simp] theorem dropLeft_view (s : State) : (dropLeft s).view = s.view := rfl

/-! ## The contact unit (R43 to R58) -/

@[simp] theorem convertElectrode_view (i : Fin 8) (raw : Nat) (s : State) : (convertElectrode i raw s).view = s.view := by
  unfold convertElectrode
  dsimp only
  split <;> simp

@[simp] theorem endRebase_view (st : Status) (s : State) : (endRebase st s).view = s.view := rfl

@[simp] theorem learnGroups_view (s : State) : (learnGroups s).view = s.view := by
  unfold learnGroups
  dsimp only
  split <;> rfl

@[simp] theorem startGroups_view (s : State) : (startGroups s).view = s.view := learnGroups_view _

@[simp] theorem leaveElectrodes_view (s : State) : (leaveElectrodes s).view = s.view := by
  unfold leaveElectrodes
  split <;> simp

@[simp] theorem learnCompletion_view (origin : LearnOrigin) (count : Nat) (measured : List (Fin 3)) (s : State) :
    (learnCompletion origin count measured s).view = s.view := by
  unfold learnCompletion
  dsimp only
  split
  · split <;> rfl
  · rfl

@[simp] theorem reportScan_view (grouped : Bool) (measured : List (Fin 3)) (s : State) :
    (reportScan grouped measured s).view = s.view := by
  unfold reportScan
  split
  · split <;> simp
  · simp

@[simp] theorem completeContact_view (grouped : Bool) (measured : List (Fin 3)) (s : State) :
    (completeContact grouped measured s).view = s.view := (leaveElectrodes_view _).trans (reportScan_view ..)

@[simp] theorem endContact_view (grouped : Bool) (measured : List (Fin 3)) (s : State) :
    (endContact grouped measured s).view = s.view := (freeFrontEnd_view _).trans (completeContact_view ..)

@[simp] theorem continueContact_view (s : State) : (continueContact s).view = s.view := by
  unfold continueContact
  split
  · rfl
  · split <;> simp

@[simp] theorem afterContactConversion_view (s : State) : (afterContactConversion s).view = s.view := by
  unfold afterContactConversion
  split
  · rfl
  · split <;> simp

@[simp] theorem stopContact_view (s : State) : (stopContact s).view = s.view := by
  rw [stopContact_eq]
  rfl

@[simp] theorem handOnFrontEnd_view (s : State) : (handOnFrontEnd s).view = s.view := by
  unfold handOnFrontEnd
  dsimp only
  split <;> simp

theorem contactTrigger_view (s : State) : (contactTrigger s).view = s.view := by
  unfold contactTrigger
  dsimp only
  (repeat' split) <;> simp

@[simp] theorem resumeRebase_view (s : State) : (resumeRebase s).view = s.view := by
  unfold resumeRebase
  (repeat' split) <;> simp

theorem setupElectrode_view (i : Fin 8) (enabled : Bool) (f : ElectrodeFields) (s : State) :
    (setupElectrode i enabled f s).view = s.view := by
  unfold setupElectrode
  dsimp only
  split <;> simp

theorem changeResolution_view (resolution : Nat) (s : State) : (changeResolution resolution s).view = s.view := by
  unfold changeResolution
  simp

@[simp] theorem noteMeasured_view (g : Option (Fin 3)) (s : State) : (noteMeasured g s).view = s.view := rfl

theorem dozeContact_view (s : State) : (dozeContact s).view = s.view := by
  obtain ⟨c, k, e, -⟩ := dozeContact_eq s
  rw [e]
  rfl

theorem wakeContact_view (s : State) : (wakeContact s).view = s.view := rfl

theorem restartContact_view (wasDozing : Bool) (s : State) : (restartContact wasDozing s).view = s.view := by
  obtain ⟨c, e, -⟩ := restartContact_eq wasDozing s
  rw [e]
  rfl

/-! ## The clamp lines and the source (R105, R182) -/

theorem updateSeverity_view (s : State) : (updateSeverity s).view = s.view := by
  unfold updateSeverity
  dsimp only
  (repeat' split)
  · rfl
  · exact (view_of_lines (linesOnly_addCauseTo ..)).trans (withSrm_view ..)
  · exact (view_of_lines (linesOnly_withdrawCauseFrom ..)).trans (withSrm_view ..)

theorem judgeGuard_view (c : Completion) (s : State) : (judgeGuard c s).view = s.view := by
  obtain ⟨v, lines⟩ := judgeGuard_lines c s
  exact (view_of_lines lines).trans (setGuard_view v s)

theorem dropGuard_view (s : State) : (dropGuard s).view = s.view :=
  (view_of_lines (linesOnly_withdrawCauseFrom ..)).trans (setGuard_view false s)

theorem sourceRun_view (s : State) : (sourceRun s).view = s.view := by
  obtain ⟨r, -, lines, -⟩ := sourceRun_facts s
  exact (view_of_lines lines).trans (withSrm_view (fun _ => r) s)

theorem restartSource_view (s : State) : (restartSource s).view = s.view := rfl

/-! ## The link (chapter 10) -/

theorem setReceiver_view (r : Receiver) (gap : Option Nat) (s : State) : (setReceiver r gap s).view = s.view := rfl
theorem endByte_view (s : State) : (endByte s).view = s.view := rfl
theorem takeBreak_view (s : State) : (takeBreak s).view = s.view := rfl

theorem frameError_view (s : State) : (frameError s).view = s.view := by
  rcases frameError_eq s with e | e
  · rw [e]
  · rw [e, detect_view, setReceiver_view]

end Sys2Proof.Machine

/-! PROOFS. The invariants of table, round, queue and zones as one relation between a state and the next (sections 5.5, 7.2 to
7.4 and 8.2). -/

namespace Sys2Proof.Machine

/-! ## What the invariants say by the mode -/

/-- A managed part has its chassis limits (R3, R181). -/
def State.Lawful (s : State) : Prop := s.managed = true → s.lst.chassis ≠ none

/-- Round and queue agree with the table. -/
abbrev State.Books (s : State) : Prop := RoundOk s.alc ∧ QueueOk s

/-- The table outside RUNNING and DOZING. -/
structure Alc.Idle (a : Alc) : Prop where
  sound : a.allDomains Domain.sound = true
  unmanaged : a.allDomains (fun d => d.grant.isNone && d.state == .unmanaged) = true
  free : a.round.reservation = 0

/-- Round and queue outside RUNNING and DOZING. -/
structure Alc.Resting (a : Alc) : Prop where
  closed : a.round = a.round.closed
  empty : a.queue = []

section
variable {s : State}

theorem grantsOk_managed (managed : s.managed = true) : GrantsOk s ↔ s.alc.Floored ∧ s.Bounded := by
  constructor
  · rintro ⟨sound, awake, -⟩
    obtain ⟨formed, holds, fits⟩ := awake managed
    exact ⟨⟨sound, holds⟩, formed, fits⟩
  · rintro ⟨⟨sound, holds⟩, formed, fits⟩
    exact ⟨sound, fun _ => ⟨formed, holds, fits⟩, fun m => absurd (managed.symm.trans m) (by decide)⟩

theorem grantsOk_asleep (asleep : s.managed = false) : GrantsOk s ↔ s.alc.Idle := by
  constructor
  · rintro ⟨sound, -, idle⟩
    exact ⟨sound, (idle asleep).1, (idle asleep).2⟩
  · rintro ⟨sound, idle, free⟩
    exact ⟨sound, fun m => absurd (asleep.symm.trans m) (by decide), fun _ => ⟨idle, free⟩⟩

theorem books_managed (managed : s.managed = true) : s.Books ↔ s.alc.Booked := by
  constructor
  · rintro ⟨round, order, once, fits, waits, -⟩
    obtain ⟨rounded, pends⟩ := roundOk_iff.mp round
    exact ⟨rounded, pends, order, once, fits, fun i _ => waits managed i⟩
  · rintro ⟨rounded, pends, order, once, fits, waits⟩
    exact ⟨roundOk_iff.mpr ⟨rounded, pends⟩, order, once, fits, fun _ i => waits i id,
      fun m => absurd (managed.symm.trans m) (by decide)⟩

theorem Alc.Idle.still {a : Alc} (idle : a.Idle) (i : Fin 6) : a.revoking i = false := by
  rw [revoking_eq]
  cases slot : a.domains.get i with
  | none => rfl
  | some d =>
    have free := allDomains_iff.mp idle.unmanaged i d slot
    simp only [Bool.and_eq_true, beq_iff_eq] at free
    simp [free.2]

/-- Outside RUNNING and DOZING nothing revokes and nothing waits. -/
theorem books_asleep (asleep : s.managed = false) (idle : s.alc.Idle) : s.Books ↔ s.alc.Resting := by
  constructor
  · rintro ⟨⟨opened, -, -, -, clear, -, -⟩, -, -, -, -, empty⟩
    refine ⟨clear (Bool.eq_false_iff.mpr fun o => ?_), empty asleep⟩
    obtain ⟨i, revokes⟩ := opened.mp o
    exact absurd ((idle.still i).symm.trans revokes) (by decide)
  · rintro ⟨closed, empty⟩
    refine ⟨roundOk_iff.mpr ⟨⟨fun i h => absurd ((idle.still i).symm.trans h) (by decide),
      fun i h => absurd ((idle.still i).symm.trans h) (by decide), by rw [closed]; exact List.nodup_nil, fun e he => ?_,
      fun _ => closed, fun r => absurd idle.free r, fun i hi => ?_⟩, fun o => ?_⟩, ?_⟩
    · rw [closed] at he
      exact (List.not_mem_nil he).elim
    · rw [closed] at hi
      cases hi
    · rw [closed] at o
      cases o
    · refine ⟨by rw [empty]; exact List.Pairwise.nil, by rw [empty]; exact List.nodup_nil,
        by rw [empty]; exact fun _ e => (List.not_mem_nil e).elim, fun m => absurd (asleep.symm.trans m) (by decide), fun _ => empty⟩

theorem zonesOk_iff : ZonesOk s ↔ s.znm.thermalClaim = s.anyCritical ∧
    (s.managed = false → ∀ z, (s.znm.zones.get z).state = .off) := by
  refine and_congr_left fun _ => ?_
  rw [← anyCritical_iff]
  exact Bool.eq_iff_iff.symm

end

/-! ## The relation -/

/-- The invariants hold in `t` where they hold in `s`. -/
structure Tidy (s t : State) : Prop where
  grants : GrantsOk s → GrantsOk t
  books : GrantsOk s → s.Books → t.Books
  zones : ZonesOk s → ZonesOk t

namespace Tidy

variable {s t u : State}

theorem refl (s : State) : Tidy s s := ⟨id, fun _ => id, id⟩

theorem trans (h : Tidy s t) (k : Tidy t u) : Tidy s u where
  grants := k.grants ∘ h.grants
  books := fun g b => k.books (h.grants g) (h.books g b)
  zones := k.zones ∘ h.zones

theorem foldl {β : Type} {f : State → β → State} (hf : ∀ s b, Tidy s (f s b)) (l : List β) (s : State) :
    Tidy s (l.foldl f s) := by
  induction l generalizing s with
  | nil => exact .refl s
  | cons b l ih => exact (hf s b).trans (ih _)

/-- A change of the table outside RUNNING and DOZING. -/
theorem ofAsleep (before : s.managed = false) (after : t.managed = false) (idle : s.alc.Idle → t.alc.Idle)
    (rests : s.alc.Idle → s.alc.Resting → t.alc.Resting) (zones : ZonesOk s → ZonesOk t) : Tidy s t where
  grants := fun g => (grantsOk_asleep after).mpr (idle ((grantsOk_asleep before).mp g))
  books := fun g b => by
    have old := (grantsOk_asleep before).mp g
    exact (books_asleep after (idle old)).mpr (rests old ((books_asleep before old).mp b))
  zones := zones

/-- An operation within a mode. -/
theorem ofLedger (h : Ledger s t) (zones : ZonesOk s → ZonesOk t) : Tidy s t := by
  cases m : s.managed with
  | true =>
    have m' := h.managed.trans m
    refine ⟨fun g => ?_, fun g b => ?_, zones⟩
    · obtain ⟨floored, bounded⟩ := (grantsOk_managed m).mp g
      exact (grantsOk_managed m').mpr ⟨h.floored m floored, h.bounded m floored bounded⟩
    · exact (books_managed m').mpr (h.booked m ((grantsOk_managed m).mp g).1 ((books_managed m).mp b))
  | false =>
    obtain ⟨domains, round, queue⟩ := h.asleep m
    refine .ofAsleep m (h.managed.trans m) (fun ⟨sound, unmanaged, free⟩ => ?_) (fun _ ⟨closed, empty⟩ => ?_) zones
    · exact ⟨by rw [Alc.allDomains, domains]; exact sound, by rw [Alc.allDomains, domains]; exact unmanaged,
        by rw [round]; exact free⟩
    · exact ⟨by rw [round]; exact closed, by rw [queue]; exact empty⟩

theorem zonesOk_same (znm : t.znm = s.znm) (managed : t.managed = s.managed) : ZonesOk s → ZonesOk t := by
  unfold ZonesOk
  rw [znm, managed]
  exact id

/-- An operation within a mode that leaves the zones. -/
theorem ofZones (h : Ledger s t) (znm : t.znm = s.znm) : Tidy s t := .ofLedger h (zonesOk_same znm h.managed)

theorem ofView (h : t.view = s.view) : Tidy s t := by
  simp only [State.view, Prod.mk.injEq] at h
  obtain ⟨alc, mode, lst, placement, znm⟩ := h
  exact .ofZones (.ofSame alc (congrArg Mode.managed mode) lst placement) znm

/-- A change of the table alone outside RUNNING and DOZING. -/
theorem ofUnmanaged (asleep : s.managed = false) (only : s.grantsOnly t) (idle : s.alc.Idle → t.alc.Idle)
    (rests : s.alc.Idle → s.alc.Resting → t.alc.Resting) : Tidy s t :=
  have same : t.managed = s.managed := (congrArg State.managed only :)
  .ofAsleep asleep (same.trans asleep) idle rests (zonesOk_same (congrArg State.znm only :) same)

/-- A change of the table alone in RUNNING and DOZING. -/
theorem ofManaged (managed : s.managed = true) (only : s.grantsOnly t) (floored : s.alc.Floored → t.alc.Floored)
    (bounded : s.alc.Floored → s.Bounded → t.Bounded) (booked : s.alc.Floored → s.alc.Booked → t.alc.Booked) : Tidy s t :=
  .ofZones ⟨(congrArg State.managed only :), fun m => absurd (managed.symm.trans m) (by decide), fun _ => floored,
    fun _ => booked, fun _ => bounded⟩ (congrArg State.znm only :)

/-- A steady change of the table that leaves what B is formed from. -/
theorem ofSteady (managed : s.managed = true) (h : Steady s t) (only : s.grantsOnly t) (budget : t.alc.budget = s.alc.budget)
    (floors : t.alc.floorSum = s.alc.floorSum) : Tidy s t := by
  have formB : t.formB = s.formB :=
    formB_of_inputs budget floors (congrArg State.lst only :) (congrArg (·.plu.placement) only :)
  exact .ofManaged managed only h.floored (fun f b => .ofFits (by rw [budget, b.formed, formB]) (h.fits f b.alcFits)) h.booked

theorem atExpiry {timer : Option Nat} {effect : State → State} {s : State} (h : ∀ t, Tidy t (effect t)) :
    Tidy s (Machine.atExpiry timer effect s) := by
  cases timer with
  | none => exact refl s
  | some e => exact (ofView (reach_view e s)).trans (h _)

/-- The arrival of a frame whose owner is tidy (R172 to R174). -/
theorem acceptRequest {kind tag : Byte} {owner : State → State × Answer} (tidy : Tidy s (owner s).1) :
    Tidy s (Machine.acceptRequest kind tag owner s) := by
  unfold Machine.acceptRequest
  split_ifs
  · exact refl s
  · exact ofView (detect_view ..)
  · exact ofView (occupy_view ..)
  · exact tidy.trans (ofView (occupy_view ..))

end Tidy

end Sys2Proof.Machine

/-! PROOFS. Hand-overs, completions and new active sets are tidy (R12, R30, R87, R92, R106, R182). -/

namespace Sys2Proof.Machine

theorem managed_of_view {s t : State} (h : t.view = s.view) : t.managed = s.managed := congrArg (fun v => v.2.1.managed) h

namespace Tidy

variable {s t u : State}

/-! ## Zones -/

/-- Thermal claim and zone states stay. -/
theorem ofStates (h : Ledger s t) (states : ∀ z, (t.znm.zones.get z).state = (s.znm.zones.get z).state)
    (claim : t.znm.thermalClaim = s.znm.thermalClaim) : Tidy s t :=
  .ofLedger h fun ⟨critical, off⟩ => ⟨by simpa only [claim, states] using critical, fun m z =>
    (states z).trans (off (h.managed.symm.trans m) z)⟩

theorem ofFans (h : Ledger s t) (fans : OnlyFans s t) : Tidy s t :=
  .ofStates h (fun z => congrArg Zone.state (fans.zones z) :) (congrArg (·.znm.thermalClaim) fans.rest :)

theorem setFan (n : Fin 2) (g : Fan) (s : State) : Tidy s (Machine.setFan n g s) := ofFans (setFan_ledger n g s) (.setFan n g s)

theorem applyTarget (n : Fin 2) (s : State) : Tidy s (Machine.applyTarget n s) :=
  ofFans (applyTarget_ledger n s) (.applyTarget n s)

theorem applyTargets (s : State) : Tidy s (Machine.applyTargets s) := ofFans (applyTargets_ledger s) (.applyTargets s)

theorem reformDemands (s : State) : Tidy s (Machine.reformDemands s) := ofFans (reformDemands_ledger s) (.reformDemands s)

/-- Zones whose records change in no state. -/
theorem setZone (z : Fin 6) {r : Zone} (state : r.state = (s.znm.zones.get z).state) : Tidy s (s.setZone z r) := by
  refine .ofStates (.ofSame rfl rfl rfl rfl) (fun y => ?_) rfl
  rw [State.setZone, State.withZnm, get_set]
  split
  · next own => rw [← own]; exact state
  · rfl

theorem mapZones {f : Fin 6 → Zone → Zone} (state : ∀ z r, (f z r).state = r.state) : Tidy s (s.mapZones f) := by
  refine .ofStates (.ofSame rfl rfl rfl rfl) (fun y => ?_) rfl
  rw [State.mapZones, State.withZnm, get_tabulate]
  exact state ..

theorem evaluateZone (z : Fin 6) (s : State) : Tidy s (Machine.evaluateZone z s) := by
  by_cases off : s.managed = false ∨ (s.znm.zones.get z).enabled = false
  · rw [evaluateZone_off off]
    exact refl s
  · simp only [not_or, Bool.not_eq_false] at off
    obtain ⟨managed, enabled⟩ := off
    have ledger := evaluateZone_ledger z s
    refine .ofLedger ledger fun ok => ?_
    rw [zonesOk_iff] at ok ⊢
    exact ⟨(evaluateZone_evaluated managed enabled).claim ok.1, fun m =>
      absurd ((ledger.managed.trans managed).symm.trans m) (by decide)⟩

theorem stepZone (z : Fin 6) (s : State) : Tidy s (Machine.stepZone z s) := by
  have stepped : Tidy s (s.setZone z (s.steppedZone z)) := setZone z (by rw [State.steppedZone])
  by_cases same : (s.znm.zones.get z).stepped s.active.thermalStep = (s.znm.zones.get z).r
  · rw [stepZone_of_same same]
    exact stepped
  · rw [stepZone_of_changed same]
    exact stepped.trans (.ofZones (handReduction_ledger ..) (handReduction_znm ..))

/-! ## The source (R101 to R106) -/

theorem handSource (s : State) : Tidy s (Machine.handSource s) :=
  .ofZones (handSource_ledger s) (grantsOnly_znm (handSource_only s))

theorem updateSeverity (s : State) : Tidy s (Machine.updateSeverity s) := .ofView (updateSeverity_view s)

theorem sourceChanged (s : State) : Tidy s (Machine.sourceChanged s) :=
  (((ofView (withSrm_view _ s)).trans (updateSeverity _)).trans (ofView (post_view _ _))).trans (handSource _)

theorem deliverAdapter (here : Bool) (s : State) : Tidy s (Machine.deliverAdapter here s) := by
  unfold Machine.deliverAdapter
  split
  · exact refl s
  · exact (ofView (withSrm_view ..)).trans (sourceChanged _)

theorem changeAdp (s : State) : Tidy s (Machine.changeAdp s) :=
  Tidy.trans (t := s.withPlu fun r => { r with adp := r.adp.accept }) (.ofView rfl) (deliverAdapter ..)

theorem storeSource (v : SourceSetup) (s : State) : Tidy s (Machine.storeSource v s) :=
  ((ofView (withSrm_view _ s)).trans (ofView (withSrm_view ..))).trans (handSource _)

theorem sourceCompletion (c : Completion) (s : State) : Tidy s (Machine.sourceCompletion c s) := by
  unfold Machine.sourceCompletion
  dsimp only
  split
  · exact refl s
  · exact (ofView (withSrm_view ..)).trans (sourceChanged _)

theorem sourceCompletion_managed (c : Completion) (s : State) : (Machine.sourceCompletion c s).managed = s.managed := by
  unfold Machine.sourceCompletion
  dsimp only
  split
  · rfl
  · exact (handSource_ledger _).managed.trans (managed_of_view (updateSeverity_view _))

/-! ## Completions (R30) -/

theorem allocatorCompletion (managed : s.managed = true) (c : Completion) (dtMs : Nat) :
    Tidy s (Machine.allocatorCompletion c dtMs s) :=
  .ofZones (allocatorCompletion_ledger managed c dtMs) (allocatorCompletion_znm c dtMs s)

/-- A consumer in RUNNING or DOZING leaves the part in one of them. -/
theorem completionConsumer (managed : s.managed = true) (c : Completion) (dtMs n : Nat) :
    (Machine.completionConsumer c dtMs n s).managed = true ∧ Tidy s (Machine.completionConsumer c dtMs n s) := by
  rcases completionConsumer_cases c dtMs n s with ⟨z, -, e⟩ | ⟨-, e⟩ | ⟨-, e⟩ | ⟨-, e⟩ <;> rw [e]
  · exact ⟨(evaluateZone_ledger z s).managed.trans managed, evaluateZone z s⟩
  · exact ⟨(sourceCompletion_managed c s).trans managed, sourceCompletion c s⟩
  · exact ⟨(allocatorCompletion_ledger managed c dtMs).managed.trans managed, allocatorCompletion managed c dtMs⟩
  · exact ⟨managed, refl s⟩

theorem consume (c : Completion) (dtMs : Nat) (s : State) : Tidy s (Machine.consume c dtMs s) := by
  cases managed : s.managed with
  | true =>
    rw [consume_managed managed]
    refine (inFreeOrder_keeps (P := fun t => t.managed = true ∧ Tidy s t) ⟨managed, .ofView (takeChoice_view s)⟩
      fun n t _ ⟨m, h⟩ => ?_).2
    obtain ⟨m', k⟩ := completionConsumer m c dtMs n
    exact ⟨m', h.trans k⟩
  | false =>
    unfold Machine.consume
    split
    · exact refl s
    · exact .ofView (judgeGuard_view c s)
    · next prepare locked =>
      cases mode : s.mdc.mode <;> simp_all [State.managed, Mode.managed]

theorem completeMeasurement (s : State) : Tidy s (Machine.completeMeasurement s) := by
  unfold Machine.completeMeasurement
  refine ((ofView (withMsu_view ..)).trans (mapZones fun _ r => ?_)).trans (consume _ _ _)
  unfold Zone.derive
  split <;> rfl

theorem finishScan (s : State) : Tidy s (Machine.finishScan s) := by
  unfold Machine.finishScan
  split
  · exact (completeMeasurement s).trans (.ofView (handOnFrontEnd_view _))
  · exact refl s

theorem finishNew (h : Tidy s t) (r : State) : Tidy s (Machine.finishNew r t) := by
  unfold Machine.finishNew
  split
  · exact h
  · exact h.trans (finishScan t)

/-- A scan that an owner's changes have left with nothing to measure completes too. -/
theorem finishing {owner : State → State × Answer} (h : Tidy s (owner s).1) : Tidy s (Machine.finishing owner s).1 :=
  h.finishNew s

theorem takeTrigger (s : State) : Tidy s (Machine.takeTrigger s) := by
  unfold Machine.takeTrigger
  dsimp only
  split
  · exact (ofView (dropLeft_view s)).trans (completeMeasurement _)
  · split
    · exact (ofView (s := s) (by simp)).trans (finishScan _)
    · exact .ofView (by simp)

/-! ## A new active set (R12, R13) -/

theorem setConsumer (managed : s.managed = true) (cause : RoundCause) (n : Nat) : Tidy s (Machine.setConsumer cause n s) := by
  cases n with
  | zero =>
    obtain ⟨-, -, znm⟩ := (setConsumer_zero cause s).parts
    exact .ofZones (setConsumer_ledger managed cause 0) znm
  | succ n =>
    rcases setConsumer_succ cause n s with ⟨z, -, e⟩ | e <;> rw [e]
    · exact evaluateZone z s
    · exact applyTargets s

/-- Whatever stood in the place of the active set before, the hand-over leaves the invariants as they were before the change. -/
theorem handSet (managed : s.managed = true) (cause : RoundCause) (alc : u.alc = s.alc) (mode : u.mdc.mode = s.mdc.mode)
    (znm : u.znm = s.znm) : Tidy s (Machine.handSet cause u) := by
  have managed' : u.managed = true := (congrArg Mode.managed mode).trans managed
  have tidy : Tidy u (Machine.handSet cause u) := by
    rw [handSet_managed cause managed']
    refine (inFreeOrder_keeps (P := fun t => t.managed = true ∧ Tidy u t) ⟨managed', .ofView (takeChoice_view u)⟩
      fun n t _ ⟨m, h⟩ => ⟨?_, h.trans (setConsumer m cause n)⟩).2
    exact (setConsumer_ledger m cause n).managed.trans m
  have ledger := handSet_ledger cause u
  have after := ledger.managed.trans managed'
  refine ⟨fun g => ?_, fun g b => ?_, fun ok => tidy.zones (zonesOk_same znm (congrArg Mode.managed mode) ok)⟩
  · have floored := ((grantsOk_managed managed).mp g).1.same (congrArg Alc.domains alc)
    exact (grantsOk_managed after).mpr ⟨ledger.floored managed' floored, handSet_bounds managed' cause floored⟩
  · have floored := ((grantsOk_managed managed).mp g).1.same (congrArg Alc.domains alc)
    refine (books_managed after).mpr (ledger.booked managed' floored ?_)
    rw [alc]
    exact (books_managed managed).mp b

end Tidy

end Sys2Proof.Machine

/-! PROOFS. The Allocator's own requests and deadlines are tidy (R108, R122 to R129, R145 to R147). -/

namespace Sys2Proof.Machine

/-! ## The table outside RUNNING and DOZING -/

theorem Alc.Idle.domain {a : Alc} {i : Fin 6} {d : Domain} (h : a.Idle) (slot : a.domains.get i = some d) :
    d.sound = true ∧ d.grant = none ∧ d.state = .unmanaged := by
  have free := allDomains_iff.mp h.unmanaged i d slot
  simp only [Bool.and_eq_true, beq_iff_eq, Option.isNone_iff_eq_none] at free
  exact ⟨allDomains_iff.mp h.sound i d slot, free⟩

theorem Alc.Idle.ofDomains {a : Alc}
    (h : ∀ i d, a.domains.get i = some d → d.sound = true ∧ d.grant = none ∧ d.state = .unmanaged)
    (free : a.round.reservation = 0) : a.Idle :=
  ⟨allDomains_iff.mpr fun i d slot => (h i d slot).1, allDomains_iff.mpr fun i d slot => by
    obtain ⟨-, grant, state⟩ := h i d slot
    simp [grant, state], free⟩

/-- One slot of the table changed. -/
theorem Alc.Idle.replace {a b : Alc} {i : Fin 6} {x : Option Domain} (h : a.Idle) (domains : b.domains = a.domains.set i x)
    (free : b.round.reservation = 0)
    (new : ∀ e, x = some e → e.sound = true ∧ e.grant = none ∧ e.state = .unmanaged) : b.Idle := by
  refine .ofDomains (fun j e slot => ?_) free
  rw [domains, get_set] at slot
  split at slot
  · exact new e slot
  · exact h.domain slot

theorem slot_of_domainAt {n : Nat} {i : Fin 6} {d : Domain} {s : State} (h : s.domainAt n = some (i, d)) :
    s.alc.domains.get i = some d := by
  unfold State.domainAt at h
  split at h
  · cases h
  · obtain ⟨e, slot, same⟩ := Option.map_eq_some_iff.mp h
    obtain ⟨rfl, rfl⟩ := Prod.mk.inj same
    exact slot

namespace Tidy

variable {s t : State} {i : Fin 6} {d e : Domain}

/-- A domain's record changed where the part is not managed. -/
theorem setDomain_asleep (asleep : s.managed = false) (slot : s.alc.domains.get i = some d) (sound : e.sound = d.sound)
    (grant : e.grant = d.grant) (state : e.state = d.state) : Tidy s (s.setDomain i (some e)) := by
  refine .ofUnmanaged asleep rfl (fun idle => ?_) fun _ ⟨closed, empty⟩ => ⟨closed, empty⟩
  refine idle.replace (i := i) rfl idle.free fun x own => ?_
  cases own
  obtain ⟨old, none, unmanaged⟩ := idle.domain slot
  exact ⟨sound.trans old, grant.trans none, state.trans unmanaged⟩

/-- A steady change of the table that begins by changing a domain on its floor. -/
theorem ofReplaced (managed : s.managed = true) (slot : s.alc.domains.get i = some d) (floor : e.floor = d.floor)
    (h : Steady s t) (grants : Grants (s.setDomain i (some e)) t) (budget : t.alc.budget = s.alc.budget) : Tidy s t := by
  have only : s.grantsOnly t := grantsOnly_trans (t := s.setDomain i (some e)) rfl grants.only
  refine .ofSteady managed h only budget ((floorSum_congr grants.cores).trans ?_)
  exact floorSum_replace (a := s.alc) (b := (s.setDomain i (some e)).alc) slot rfl floor

/-! ## DOMAIN_DECLARE and DOMAIN_RETIRE (R122 to R124) -/

theorem enterDomain_only (i : Fin 6) (d : Domain) (s : State) : s.grantsOnly (enterDomain i d s) := by
  cases managed : s.managed with
  | true =>
    rw [enterDomain_managed managed, assignIfNamed_eq]
    refine grantsOnly_trans ?_ (((Grants.refl _).recompute .ceiling).only)
    rw [State.grantsOnly, State.post, slk_post_eq]
    rfl
  | false =>
    have stored : enterDomain i d s = assignIfNamed d.line (some i) (s.setDomain i (some d)) := if_neg (by simp [managed])
    rw [stored, assignIfNamed_eq]
    rfl

theorem enterDomain (empty : s.alc.domains.get i = none) (sound : d.sound = true) (request : d.request = none)
    (grant : d.grant = if s.managed then some d.floor else none)
    (state : d.state = if s.managed then .settled else .unmanaged) : Tidy s (Machine.enterDomain i d s) := by
  have only := enterDomain_only i d s
  cases managed : s.managed with
  | true =>
    rw [managed, if_pos rfl] at grant state
    obtain ⟨table, booked⟩ := enterDomain_managed_books empty managed sound request grant state
    exact .ofManaged managed only (fun f => (table f).1) (fun f _ => (table f).2) booked
  | false =>
    rw [managed, if_neg Bool.false_ne_true] at grant state
    have stored : Machine.enterDomain i d s = assignIfNamed d.line (some i) (s.setDomain i (some d)) := if_neg (by simp [managed])
    have alc : (Machine.enterDomain i d s).alc = { s.alc with domains := s.alc.domains.set i (some d) } := by
      rw [stored, assignIfNamed_alc]
      rfl
    refine .ofUnmanaged managed only (fun idle => idle.replace (congrArg Alc.domains alc) ?_ ?_) fun _ ⟨closed, empty⟩ => ?_
    · rw [alc]
      exact idle.free
    · intro e own
      cases own
      exact ⟨sound, grant, state⟩
    · rw [alc]
      exact ⟨closed, empty⟩

theorem domainDeclare (f : DomainFields) (s : State) : Tidy s (Machine.domainDeclare f s).1 := by
  unfold Machine.domainDeclare
  split
  · exact refl s
  · split
    · exact refl s
    · next i _ =>
      split
      · exact refl s
      · next occupied =>
        split
        · exact refl s
        · next k _ =>
          split
          · exact refl s
          · next fields =>
            dsimp only
            split
            · exact refl s
            · split
              · exact refl s
              · split
                · exact refl s
                · have good := declareFieldsOk_iff.mp (by simpa using fields)
                  obtain ⟨-, -, -, priority, -, -, step, -, le, charger, -⟩ := good
                  exact enterDomain (by simpa using occupied) (sound_iff.mpr ⟨priority, step, le, charger⟩) rfl rfl rfl

/-- A retirement outside RUNNING and DOZING. -/
theorem emptySlot_asleep (asleep : s.managed = false) : Tidy s (emptySlot i d s) := by
  have alc := emptySlot_alc i d s
  refine .ofUnmanaged asleep (emptySlot_only i d s) (fun idle => ?_) fun idle ⟨closed, empty⟩ => ?_
  · have less : (emptySlot i d s).alc.round.reservation ≤ s.alc.round.reservation := emptySlot_reservation
    rw [idle.free] at less
    exact idle.replace (congrArg Alc.domains alc) (Nat.le_zero.mp less) fun _ none => by cases none
  · rw [alc]
    refine ⟨?_, by simp [empty, dropEntry]⟩
    dsimp only
    rw [closed]
    rfl

theorem domainRetire (slot : Nat) (s : State) : Tidy s (Machine.domainRetire slot s).1 := by
  unfold Machine.domainRetire
  split
  · exact refl s
  · next i d at_ =>
    have slot := slot_of_domainAt at_
    have only := emptySlot_only i d s
    split
    · next managed =>
      obtain ⟨floored, bounded, booked⟩ := retireManaged_books slot
      refine .ofManaged managed (grantsOnly_trans only ?_) floored bounded booked
      have formed := (Grants.refl (emptySlot i d s)).refreshB
      unfold retireManaged
      dsimp only
      split
      · exact formed.closeIfDone.only
      · exact formed.serve.only
    · next asleep => exact emptySlot_asleep (by simpa using asleep)

/-! ## DOMAIN_REQUEST and DOMAIN_PERMIT (R125 to R129) -/

theorem actOnRequest (managed : s.managed = true) (slot : s.alc.domains.get i = some d) (r : Option Nat) :
    Tidy s (Machine.actOnRequest i d { d with request := r } (s.setDomain i (some { d with request := r }))) := by
  refine .ofReplaced managed slot (e := { d with request := r }) rfl (actOnRequest_steady slot r)
    (actOnRequest_allocs _ (.refl _) (by simp)).grants ?_
  rw [actOnRequest_budget]
  rfl

theorem domainRequest (n value : Nat) (s : State) : Tidy s (Machine.domainRequest n value s).1 := by
  unfold Machine.domainRequest
  split
  · exact refl s
  · next i d at_ =>
    have slot := slot_of_domainAt at_
    split
    · exact refl s
    · split
      · exact refl s
      · dsimp only
        split
        · next managed => exact actOnRequest managed slot _
        · next asleep => exact setDomain_asleep (by simpa using asleep) slot rfl rfl rfl

theorem permitOff (managed : s.managed = true) (slot : s.alc.domains.get i = some d) : Tidy s (permitOffManaged i d s) := by
  refine .ofReplaced managed slot (e := { d with permit := .off, effCeiling := some d.floor }) rfl
    (permitOffManaged_steady slot) ?_ ?_
  · have told := ((Grants.refl
      (s.setDomain i (some { d with permit := .off, effCeiling := some d.floor }))).adjustReservation i).syncQueue i
    unfold permitOffManaged
    dsimp only
    split
    · exact told.reduce .permit
    · exact told.postGrant .ceiling i
  · unfold permitOffManaged
    dsimp only
    split
    · rw [reduce_budget, syncQueue_budget, adjustReservation_budget]
      rfl
    · rw [postGrant_alc, syncQueue_budget, adjustReservation_budget]
      rfl

theorem permitOn (managed : s.managed = true) (slot : s.alc.domains.get i = some d) (off : d.permit = .off) :
    Tidy s (permitOnManaged i d s) := by
  refine .ofReplaced managed slot (e := { d with permit := .on, effCeiling := some (s.ceilingOf { d with permit := .on }) }) rfl
    (permitOnManaged_steady slot off) ?_ ?_
  · have told := ((Grants.refl (s.setDomain i
      (some { d with permit := .on, effCeiling := some (s.ceilingOf { d with permit := .on }) }))).syncQueue i).postGrant .ceiling i
    unfold permitOnManaged
    dsimp only
    split
    · exact told.serve
    · exact told
  · unfold permitOnManaged
    dsimp only
    split
    · rw [serve_budget, postGrant_alc, syncQueue_budget]
      rfl
    · rw [postGrant_alc, syncQueue_budget]
      rfl

theorem domainPermitOff (n : Nat) (s : State) : Tidy s (Machine.domainPermitOff n s).1 := by
  unfold Machine.domainPermitOff
  split
  · exact refl s
  · next i d at_ =>
    have slot := slot_of_domainAt at_
    split
    · exact refl s
    · dsimp only
      split
      · next managed => exact permitOff managed slot
      · next asleep => exact setDomain_asleep (by simpa using asleep) slot rfl rfl rfl

theorem domainPermitOn (n : Nat) (s : State) : Tidy s (Machine.domainPermitOn n s).1 := by
  unfold Machine.domainPermitOn
  split
  · exact refl s
  · next i d at_ =>
    have slot := slot_of_domainAt at_
    split
    · exact refl s
    · next off =>
      dsimp only
      split
      · next managed => exact permitOn managed slot (by cases permit : d.permit with | off => rfl | on => exact absurd permit off)
      · next asleep => exact setDomain_asleep (by simpa using asleep) slot rfl rfl rfl

theorem domainPermitOther (n : Nat) (s : State) : Tidy s (Machine.domainPermitOther n s).1 := by
  unfold Machine.domainPermitOther
  split <;> exact refl s

/-! ## DOMAIN_SETTLED and deadlines (R145 to R148) -/

/-- Outside RUNNING and DOZING every domain is UNMANAGED, so that nothing can follow from another state. -/
theorem ofManagedState (slot : s.alc.domains.get i = some d) (state : d.state ≠ .unmanaged) (only : s.grantsOnly t)
    (h : s.managed = true → Tidy s t) : Tidy s t := by
  cases managed : s.managed with
  | true => exact h managed
  | false =>
    exact .ofUnmanaged managed only (fun idle => absurd (idle.domain slot).2.2 state)
      (fun idle _ => absurd (idle.domain slot).2.2 state)

theorem settleDomain (slot : s.alc.domains.get i = some d) (managed : s.managed = true) :
    Tidy s (closeIfDone (Machine.settleDomain i d s)) ∧ (d.state ≠ .revoking → Tidy s (Machine.settleDomain i d s)) := by
  have settled := (Grants.refl s).settleDomain i slot
  have budget : (Machine.settleDomain i d s).alc.budget = s.alc.budget := by rw [settleDomain_alc]
  exact ⟨.ofSteady managed (settleDomain_loose slot).closeIfDone settled.closeIfDone.only (by rw [closeIfDone_budget, budget])
      (floorSum_congr settled.closeIfDone.cores),
    fun other => .ofSteady managed (settleDomain_steady slot other) settled.only budget (floorSum_congr settled.cores)⟩

theorem domainSettled (n : Nat) (s : State) : Tidy s (Machine.domainSettled n s).1 := by
  unfold Machine.domainSettled
  split
  · exact refl s
  · next i d at_ =>
    have slot := slot_of_domainAt at_
    have settled := (Grants.refl s).settleDomain i slot
    split
    · exact refl s
    · exact refl s
    · next state =>
      split
      · exact refl s
      · exact ofManagedState slot (by simp [state]) settled.closeIfDone.only fun managed => (settleDomain slot managed).1
    · next unmanaged _ revoking =>
      split
      · exact refl s
      · dsimp only
        split
        · exact ofManagedState slot unmanaged settled.only fun managed => (settleDomain slot managed).2 revoking
        · exact refl s

/-- A deadline runs for a REVOKING domain. -/
theorem expireDeadline (slot : s.alc.domains.get i = some d) (revoking : d.state = .revoking) :
    Tidy s (Machine.expireDeadline i s) := by
  set u := detect .domainOverdue i (addOverdue d s) with hu
  have view : u.view = s.view := (detect_view ..).trans (by
    rw [addOverdue_eq]
    split
    · rfl
    · exact view_of_lines (linesOnly_addCauseTo [_] .overdue s))
  have alc : u.alc = s.alc := congrArg (·.1) view
  have slot' : u.alc.domains.get i = some d := by rw [alc]; exact slot
  have grants : Grants u (Machine.expireDeadline i s) := by
    rw [expireDeadline_eq slot, ← hu]
    exact (((Grants.refl u).setDomain (d' := d.expired s.now) slot' rfl).post _).closeIfDone
  have steady : Steady u (Machine.expireDeadline i s) := (Steady.ofAlc alc.symm).trans (expireDeadline_steady i s)
  refine (ofView view).trans (ofManagedState slot' (by simp [revoking]) grants.only fun managed =>
    .ofSteady managed steady grants.only ?_ (floorSum_congr grants.cores))
  rw [expireDeadline_eq slot, ← hu, closeIfDone_budget]
  rfl

theorem deadlineExpiry (i : Fin 6) (s : State) : Tidy s (Machine.atExpiry (s.deadlineOf i) (Machine.expireDeadline i) s) := by
  cases due : s.deadlineOf i with
  | none => exact refl s
  | some time =>
    unfold State.deadlineOf at due
    split at due
    · next d slot =>
      split at due
      · next revoking => exact (ofView (reach_view time s)).trans (expireDeadline (s := s.reach time) slot revoking)
      · cases due
    · cases due

/-! ## SYS_CAP (R108) -/

theorem sysCap (cap : Option Nat) (s : State) : Tidy s (Machine.sysCap cap s).1 := by
  unfold Machine.sysCap
  split
  · exact refl s
  · refine .ofZones (storeCap_ledger cap s) ?_
    unfold storeCap
    dsimp only
    split
    · rfl
    · exact grantsOnly_znm ((Grants.refl (s.withBudget fun b => { b with systemCap := cap })).recompute .sysCap).only

end Tidy

end Sys2Proof.Machine

/-! PROOFS. Placement, limits, RUN, DOZE, WAKE and RESTART are tidy (chapters 1, 4 and 11). -/

namespace Sys2Proof.Machine

/-- B is formed from the table, the chassis limits and the active set. -/
theorem formB_of_active {s t : State} (alc : t.alc = s.alc) (chassis : t.lst.chassis = s.lst.chassis) (active : t.active = s.active) :
    t.formB = s.formB := by
  simp only [State.formB, State.base, State.cap, State.derate, alc, chassis, active]

/-- The blocks at RESTART up to the Placement Unit (R185). -/
def State.clearedBlocks (s : State) : State :=
  restartPlacement <| restartZones <| restartContact (s.mdc.mode == .dozing) <| restartChannels <| restartAllocator <|
    restartLines <| restartMode <| restartLink s

namespace Tidy

variable {s t u : State}

/-- Outside RUNNING and DOZING limits and placement bear on nothing. -/
theorem ofSame (before : s.managed = false) (after : t.managed = false) (alc : t.alc = s.alc) (znm : t.znm = s.znm) : Tidy s t :=
  .ofAsleep before after (by rw [alc]; exact id) (fun _ => by rw [alc]; exact id) (zonesOk_same znm (after.trans before.symm))

/-! ## Placement (R69 to R76) -/

/-- A change of the placement record, reported and told. -/
theorem tellPlacement (f : Plu → Plu) (s : State) : Tidy s (Machine.tellPlacement s.plu.placement (s.withPlu f)) := by
  refine Tidy.trans (t := reportPlacement s.plu.placement (s.withPlu f)) ?_ (.ofView (post_view ..))
  unfold reportPlacement
  split
  · next same =>
    refine .ofView ?_
    rw [State.view, same]
    rfl
  · cases managed : s.managed with
    | true => exact handSet managed .placement rfl rfl rfl
    | false =>
      have still : Machine.handSet .placement (s.withPlu f) = s.withPlu f := if_neg (Bool.eq_false_iff.mp managed)
      rw [still]
      exact .ofSame managed managed rfl rfl

theorem expireDwell (s : State) : Tidy s (Machine.expireDwell s) := by
  unfold Machine.expireDwell
  split
  · exact .ofView rfl
  · exact .ofView rfl
  · exact (tellPlacement _ s).finishNew s

theorem placementPin (code : Nat) (timeout : Option Nat) (s : State) : Tidy s (Machine.placementPin code timeout s).1 := by
  unfold Machine.placementPin
  split
  · exact refl s
  · split
    · exact refl s
    · exact tellPlacement _ s

theorem endPin (s : State) : Tidy s (Machine.endPin s) := tellPlacement _ s

theorem placementUnpin (s : State) : Tidy s (Machine.placementUnpin s).1 := by
  unfold Machine.placementUnpin
  split
  · exact endPin s
  · exact refl s

/-! ## Limits (R2 to R14) -/

theorem active_storeSet {p : SetId} (f : LimitSet) (other : p ≠ s.activeId) : (storeSet p f s).active = s.active := by
  have get : (storeSet p f s).lst.get s.activeId = s.lst.get s.activeId := (Lst.get_set s.lst p s.activeId f).trans (if_neg other)
  exact congrArg (·.getD .none) get

theorem acceptSet (p : SetId) (f : LimitSet) (s : State) : Tidy s (Machine.acceptSet p f s) := by
  unfold Machine.acceptSet
  split
  · cases managed : s.managed with
    | true => exact handSet managed .setLoad rfl rfl rfl
    | false =>
      have still : Machine.handSet .setLoad (storeSet p f s) = storeSet p f s := if_neg (Bool.eq_false_iff.mp managed)
      rw [still]
      exact .ofSame managed managed rfl rfl
  · next other => exact .ofZones (.ofFormB rfl rfl (formB_of_active rfl rfl (active_storeSet f other))) rfl

theorem loadSet (number : Nat) (f : LimitSet) (s : State) : Tidy s (Machine.loadSet number f s).1 := by
  unfold Machine.loadSet
  split
  · exact refl s
  · split
    · exact refl s
    · split
      · exact refl s
      · split
        · exact refl s
        · exact acceptSet _ f s

/-- The lock comes before RUNNING and DOZING (R3, R181). -/
theorem chassisLimits (f : ChassisLimits) (lawful : s.Lawful) : Tidy s (Machine.chassisLimits f s).1 := by
  unfold Machine.chassisLimits
  split
  · exact refl s
  · next unlocked =>
    have asleep : s.managed = false := Bool.eq_false_iff.mpr fun m => lawful m (by simpa using unlocked)
    split
    · exact refl s
    · unfold enterLocked
      split
      · refine Tidy.trans (t := (s.withLst fun l => { l with chassis := some f }).setMode .locked) ?_ ?_
        · exact .ofSame asleep rfl rfl rfl
        · exact (ofView (stopContact_view _)).trans (applyTargets _)
      · exact .ofSame asleep asleep rfl rfl

/-! ## DOZE and WAKE (R184) -/

/-- A change between RUNNING and DOZING. -/
theorem setMode {m : Mode} (before : s.managed = true) (after : m.managed = true) : Tidy s (s.setMode m) := by
  have same : (s.setMode m).managed = s.managed := by rw [before, State.setMode, State.managed, after]
  exact .ofZones (.ofSame rfl same rfl rfl) rfl

theorem wakeUp (managed : s.managed = true) : Tidy s (Machine.wakeUp s) := by
  have running := (setMode (m := .running) managed rfl).trans (ofView (stopContact_view _))
  exact (running.trans (ofView (wakeContact_view _))).trans (reformDemands _)

theorem goDozing (managed : s.managed = true) : Tidy s (Machine.goDozing s) := by
  have dozing := ((setMode (m := .dozing) managed rfl).trans (ofView (stopContact_view _))).trans (ofView (dozeContact_view _))
  exact (dozing.trans (mapZones (f := fun _ r => { r with woke := false }) fun _ _ => rfl)).trans (reformDemands _)

theorem dozeOwner (s : State) : Tidy s (Machine.dozeOwner s).1 := by
  unfold Machine.dozeOwner
  split
  · next running => exact goDozing (by simp [State.managed, running, Mode.managed])
  · exact refl s
  · exact refl s

theorem wakeOwner (s : State) : Tidy s (Machine.wakeOwner s).1 := by
  unfold Machine.wakeOwner
  split
  · next dozing => exact wakeUp (by simp [State.managed, dozing, Mode.managed])
  · exact refl s
  · exact refl s

/-! ## RUN (R97, R117, R183) -/

/-- What the Allocator finds at its RUN entry. -/
theorem beforeRun_view (s : State) : ∃ time, (sourceRun <| zonesRun <| dropGuard <| stopContact <| s.setMode .running).view =
    (s.alc, .running, s.lst, s.plu.placement,
      { s.znm with zones := tabulate fun z => (s.znm.zones.get z).atRun time }) := by
  have stopped : (dropGuard <| stopContact <| s.setMode .running).view = (s.setMode .running).view :=
    (dropGuard_view _).trans (stopContact_view _)
  generalize (dropGuard <| stopContact <| s.setMode .running) = b at stopped ⊢
  have zones : (zonesRun b).view = b.zonesAtRun.view := view_of_notices (zonesRun_only b)
  have source := sourceRun_view (zonesRun b)
  refine ⟨b.now + b.active.stepInterval * 1000, source.trans (zones.trans ?_)⟩
  simp only [State.view, Prod.mk.injEq] at stopped
  obtain ⟨alc, mode, lst, placement, znm⟩ := stopped
  simp only [State.view, State.zonesAtRun, alc, mode, lst, placement, znm, State.setMode]

/-- A zone that was OFF is not CRITICAL at RUN. -/
theorem atRun_state {z : Zone} (off : z.state = .off) (time : Nat) : (z.atRun time).state ≠ .critical := by
  unfold Zone.atRun
  split
  · simp
  · simp [off]

theorem enterRunning (asleep : s.managed = false) : Tidy s (Machine.enterRunning s) := by
  unfold Machine.enterRunning
  obtain ⟨time, before⟩ := beforeRun_view s
  generalize (sourceRun <| zonesRun <| dropGuard <| stopContact <| s.setMode .running) = d at before ⊢
  simp only [State.view, Prod.mk.injEq] at before
  obtain ⟨alc, mode, -, -, znm⟩ := before
  obtain ⟨only, -⟩ := allocatorRun_facts d
  have after : (allocatorRun d).managed = true := (congrArg State.managed only).trans (congrArg Mode.managed mode)
  have zones : (allocatorRun d).znm = d.znm := grantsOnly_znm only
  refine Tidy.trans (t := allocatorRun d) ⟨fun g => ?_, fun g b => ?_, fun ⟨claim, off⟩ => ⟨?_, ?_⟩⟩ (reformDemands _)
  · obtain ⟨sound, -, free⟩ := (grantsOk_asleep asleep).mp g
    obtain ⟨floored, bounded, -⟩ := allocatorRun_books (s := d) (by rw [alc]; exact sound) (by rw [alc]; exact free)
    exact (grantsOk_managed after).mpr ⟨floored, bounded⟩
  · have idle := (grantsOk_asleep asleep).mp g
    obtain ⟨closed, empty⟩ := (books_asleep asleep idle).mp b
    obtain ⟨-, -, booked⟩ := allocatorRun_books (s := d) (by rw [alc]; exact idle.sound) (by rw [alc]; exact idle.free)
    exact (books_managed after).mpr (booked (by rw [alc]; exact closed) (by rw [alc]; exact empty))
  · have clear : s.znm.thermalClaim ≠ true := fun on => by
      obtain ⟨z, critical⟩ := claim.mp on
      rw [off asleep z] at critical
      cases critical
    rw [zones, znm]
    refine iff_of_false clear fun ⟨z, critical⟩ => ?_
    rw [get_tabulate] at critical
    exact atRun_state (off asleep z) time critical
  · exact fun m => absurd (after.symm.trans m) (by decide)

theorem runOwner (s : State) : Tidy s (Machine.runOwner s).1 := by
  by_cases can : s.canRun = true
  · have entered : (Machine.runOwner s).1 = Machine.enterRunning s := by rw [Machine.runOwner, if_pos can]
    have asleep : s.managed = false := by
      rw [State.canRun_iff] at can
      simp [State.managed, can.1, Mode.managed]
    rw [entered]
    exact enterRunning asleep
  · have same : (Machine.runOwner s).1 = s := by rw [Machine.runOwner, if_neg can]
    rw [same]
    exact refl s

/-! ## RESTART (R98, R138, R156, R185) -/

theorem clearedBlocks_facts (s : State) : s.clearedBlocks.alc.domains = Vector.replicate 6 none ∧
    s.clearedBlocks.alc.round = s.alc.round.closed ∧ s.clearedBlocks.alc.queue = [] ∧ s.clearedBlocks.managed = false ∧
    s.clearedBlocks.znm.thermalClaim = false ∧ ∀ z, (s.clearedBlocks.znm.zones.get z).state = .off := by
  have mode : (restartLines <| restartMode <| restartLink s).managed = false := by
    show Mode.managed (if s.lst.chassis.isSome then .locked else .prepare) = false
    split <;> rfl
  have round : (restartLines <| restartMode <| restartLink s).alc.round = s.alc.round := rfl
  unfold State.clearedBlocks
  generalize (restartLines <| restartMode <| restartLink s) = x at mode round ⊢
  have table := restartContact_view (s.mdc.mode == .dozing) (restartChannels (restartAllocator x))
  generalize restartContact (s.mdc.mode == .dozing) (restartChannels (restartAllocator x)) = v at table ⊢
  have alc : v.alc = (restartAllocator x).alc := congrArg (·.1) table
  have same : v.managed = x.managed := (managed_of_view table).trans rfl
  have kept : (restartPlacement (restartZones v)).alc = v.alc := rfl
  rw [kept, alc]
  refine ⟨rfl, congrArg Round.closed round, rfl, same.trans mode, rfl, fun z => ?_⟩
  simp [restartPlacement, restartZones, State.withPlu, State.withZnm, State.mapZones, Zone.restart]

theorem clearedBlocks (s : State) : Tidy s s.clearedBlocks := by
  obtain ⟨domains, round, queue, asleep, claim, off⟩ := clearedBlocks_facts s
  have idle : s.clearedBlocks.alc.Idle := .ofDomains (fun i d slot => by simp [domains, Vector.get] at slot) (by rw [round]; rfl)
  refine ⟨fun _ => (grantsOk_asleep asleep).mpr idle, fun _ _ => (books_asleep asleep idle).mpr ⟨?_, queue⟩, fun _ =>
    ⟨iff_of_false (by simp [claim]) fun ⟨z, critical⟩ => ?_, fun _ => off⟩⟩
  · rw [round]
    rfl
  · rw [off z] at critical
    cases critical

theorem takeRestart (s : State) : Tidy s (Machine.takeRestart s) := by
  refine Tidy.finishNew ?_ s
  have cleared := (clearedBlocks s).trans (ofView (restartSource_view _))
  exact (cleared.trans (deliverAdapter ..)).trans (foldl (fun t n => setFan n _ t) two _)

/-- At power-on nothing is declared and every zone is OFF. -/
theorem powerOn (s : State) : Tidy s { State.reset with choices := s.choices, pending := s.pending } where
  grants := fun _ => show GrantsOk State.reset by decide
  books := fun _ _ => show RoundOk State.reset.alc ∧ QueueOk State.reset by decide
  zones := fun _ => show ZonesOk State.reset by decide

end Tidy

end Sys2Proof.Machine

/-! PROOFS. The owner of every request is tidy (section 10.3). -/

namespace Sys2Proof.Machine
namespace Tidy

/-! ## Requests that only read (R16, R35, R59, R96, R136, R168, R186) -/

theorem readSet (n : Nat) (s : State) : Tidy s (Machine.readSet n s).1 := by
  unfold Machine.readSet
  split
  · exact refl s
  · split <;> exact refl s

theorem readChannels (first count : Nat) (s : State) : Tidy s (Machine.readChannels first count s).1 := by
  unfold Machine.readChannels
  split_ifs <;> exact refl s

theorem readElectrodes (first count : Nat) (s : State) : Tidy s (Machine.readElectrodes first count s).1 := by
  unfold Machine.readElectrodes
  split_ifs <;> exact refl s

theorem readZones (first count : Nat) (s : State) : Tidy s (Machine.readZones first count s).1 := by
  unfold Machine.readZones
  split_ifs <;> exact refl s

theorem readGrants (first count : Nat) (s : State) : Tidy s (Machine.readGrants first count s).1 := by
  unfold Machine.readGrants
  split_ifs <;> exact refl s

/-! ## Channels and electrodes (R19 to R25, R39 to R41, R56) -/

theorem channelSetup (f : ChannelFields) (s : State) : Tidy s (Machine.channelSetup f s).1 := by
  unfold Machine.channelSetup
  split
  · exact refl s
  · split
    · exact refl s
    · split_ifs
      · exact refl s
      · exact refl s
      · exact refl s
      · exact ofView (withMsu_view ..)

theorem scanListOwner (l : List Nat) (s : State) : Tidy s (Machine.scanListOwner l s).1 := by
  unfold Machine.scanListOwner
  dsimp only
  split_ifs
  · exact refl s
  · exact refl s
  · exact refl s
  · exact ofView (withMsu_view ..)
  · exact refl s

theorem calOverrideSet (channel gain : Nat) (offset : Int) (s : State) :
    Tidy s (Machine.calOverrideSet channel gain offset s).1 := by
  unfold Machine.calOverrideSet
  split
  · exact refl s
  · split
    · exact refl s
    · exact ofView (setChannel_view ..)

theorem calOverrideRestore (channel : Nat) (s : State) : Tidy s (Machine.calOverrideRestore channel s).1 := by
  unfold Machine.calOverrideRestore
  split
  · exact refl s
  · exact ofView (setChannel_view ..)

theorem calOverrideOther (channel : Nat) (s : State) : Tidy s (Machine.calOverrideOther channel s).1 := by
  unfold Machine.calOverrideOther
  split <;> exact refl s

theorem electrodeSetup (f : ElectrodeFields) (s : State) : Tidy s (Machine.electrodeSetup f s).1 := by
  unfold Machine.electrodeSetup
  split
  · exact refl s
  · split
    · exact refl s
    · split
      · exact refl s
      · split
        · exact ofView (setupElectrode_view ..)
        · exact refl s

theorem electrodeSetupResolution (n : Nat) (s : State) : Tidy s (Machine.electrodeSetupResolution n s).1 := by
  unfold Machine.electrodeSetupResolution
  split_ifs
  · exact refl s
  · exact refl s
  · exact refl s
  · exact ofView (changeResolution_view ..)

theorem rebaseOwner (s : State) : Tidy s (Machine.rebaseOwner s).1 := by
  unfold Machine.rebaseOwner
  split_ifs
  · exact refl s
  · exact refl s
  · exact ofView ((leaveElectrodes_view _).trans (withCsu_view ..))

/-! ## Zones and source (R81 to R84, R100) -/

theorem zoneSetup (f : ZoneFields) (s : State) : Tidy s (Machine.zoneSetup f s).1 := by
  unfold Machine.zoneSetup
  split
  · exact refl s
  · split
    · exact refl s
    · split
      · exact refl s
      · split_ifs
        · exact refl s
        · exact refl s
        · exact refl s
        · exact refl s
        · refine setZone _ ?_
          unfold Zone.setup Zone.derive
          dsimp only
          split <;> rfl

theorem zoneFeed (n : Nat) (v : Option Int) (s : State) : Tidy s (Machine.zoneFeed n v s).1 := by
  unfold Machine.zoneFeed
  split
  · exact refl s
  · next z _ =>
    dsimp only
    split_ifs
    · exact refl s
    · exact refl s
    · exact (setZone z (r := (s.znm.zones.get z).feed v s.now) rfl).trans (evaluateZone z _)

theorem staleZone (z : Fin 6) (s : State) : Tidy s (Machine.staleZone z s) := by
  have stale := setZone (s := s) z (r := { s.znm.zones.get z with temperature := none, feedTimer := none }) rfl
  exact ((stale.trans (ofView (detect_view ..))).trans (evaluateZone z _)).finishNew s

theorem sourceSetup (f : SourceFields) (s : State) : Tidy s (Machine.sourceSetup f s).1 := by
  unfold Machine.sourceSetup
  split
  · exact refl s
  · split
    · exact refl s
    · split
      · exact refl s
      · split
        · exact refl s
        · exact storeSource _ s

/-! ## Lines and fans (R151, R154, R166, R167) -/

theorem clampForce (mask : Byte) (action : Option ClampAction) (s : State) : Tidy s (Machine.clampForce mask action s).1 := by
  unfold Machine.clampForce
  split
  · exact refl s
  · split
    · exact refl s
    · exact ofView (view_of_lines (linesOnly_addCauseTo ..))
    · exact ofView (view_of_lines (linesOnly_withdrawCauseFrom ..))

theorem lineSetup (f : LineFields) (s : State) : Tidy s (Machine.lineSetup f s).1 := by
  unfold Machine.lineSetup
  split
  · exact refl s
  · split
    · exact refl s
    · split
      · exact ofView (view_of_lines (linesOnly_setLine ..))
      · exact refl s

theorem fanSetup (n : Nat) (enabled : Bool) (ppr minDuty : Nat) (s : State) :
    Tidy s (Machine.fanSetup n enabled ppr minDuty s).1 := by
  unfold Machine.fanSetup
  split
  · exact refl s
  · split
    · exact refl s
    · dsimp only
      split_ifs
      · exact refl s
      · exact (setFan ..).trans (applyTarget ..)
      · exact setFan ..

theorem fanRetry (n : Nat) (s : State) : Tidy s (Machine.fanRetry n s).1 := by
  unfold Machine.fanRetry
  split
  · exact refl s
  · split
    · exact refl s
    · exact setFan ..

theorem faultsOwner (clear : Word) (report : Option Word) (s : State) : Tidy s (Machine.faultsOwner clear report s).1 := by
  unfold Machine.faultsOwner
  split
  · exact refl s
  · exact ofView rfl

/-! ## Every owner -/

/-- An owner of requests that is tidy in every state of a lawful mode. -/
def TidyOwner (owner : State → State × Answer) : Prop := ∀ s, s.Lawful → Tidy s (owner s).1

/-- Every request row is the arrival of a frame of its kind and tag, whose owner is tidy. -/
theorem exec_of_request {c : Instr} {dt : Nat} {kind tag : Byte} (h : request? c = some (dt, kind, tag)) :
    ∃ owner, TidyOwner owner ∧
      ∀ s, exec c s = .next (Machine.acceptRequest kind tag owner (s.elapse dt)) := by
  cases c <;> simp only [request?, reduceCtorEq, Option.some.injEq, Prod.mk.injEq] at h <;> obtain ⟨rfl, rfl, rfl⟩ := h
  case identify => exact ⟨_, fun s _ => refl s, exec_identify _ _⟩
  case status => exact ⟨_, fun s _ => ofView rfl, exec_status _ _⟩
  case restart => exact ⟨_, fun s _ => ofView rfl, exec_restart _ _⟩
  case run => exact ⟨_, fun s _ => (runOwner s).finishing, exec_run _ _⟩
  case doze => exact ⟨_, fun s _ => (dozeOwner s).finishing, exec_doze _ _⟩
  case wake => exact ⟨_, fun s _ => (wakeOwner s).finishing, exec_wake _ _⟩
  case chassisLimits f => exact ⟨_, fun s l => (chassisLimits f l).finishing, exec_chassisLimits _ _ f⟩
  case loadSet n f => exact ⟨_, fun s _ => (loadSet n f s).finishing, exec_loadSet _ _ n f⟩
  case readSet n => exact ⟨_, fun s _ => readSet n s, exec_readSet _ _ n⟩
  case readSetChassis => exact ⟨_, fun s _ => refl s, exec_readSetChassis _ _⟩
  case channelSetup f => exact ⟨_, fun s _ => channelSetup f s, exec_channelSetup _ _ f⟩
  case scanList l => exact ⟨_, fun s _ => scanListOwner l s, exec_scanList _ _ l⟩
  case readChannels a n => exact ⟨_, fun s _ => readChannels a n s, exec_readChannels _ _ a n⟩
  case calOverrideSet c g o => exact ⟨_, fun s _ => calOverrideSet c g o s, exec_calOverrideSet _ _ c g o⟩
  case calOverrideRestore c => exact ⟨_, fun s _ => calOverrideRestore c s, exec_calOverrideRestore _ _ c⟩
  case electrodeSetup f => exact ⟨_, fun s _ => electrodeSetup f s, exec_electrodeSetup _ _ f⟩
  case electrodeSetupResolution r =>
    exact ⟨_, fun s _ => (electrodeSetupResolution r s).finishing, exec_electrodeSetupResolution _ _ r⟩
  case readElectrodes a n => exact ⟨_, fun s _ => readElectrodes a n s, exec_readElectrodes _ _ a n⟩
  case rebase => exact ⟨_, fun s _ => rebaseOwner s, exec_rebase _ _⟩
  case zoneSetup f => exact ⟨_, fun s _ => zoneSetup f s, exec_zoneSetup _ _ f⟩
  case zoneFeed z v => exact ⟨_, fun s _ => (zoneFeed z v s).finishing, exec_zoneFeed _ _ z v⟩
  case readZones a n => exact ⟨_, fun s _ => readZones a n s, exec_readZones _ _ a n⟩
  case sourceSetup f => exact ⟨_, fun s _ => sourceSetup f s, exec_sourceSetup _ _ f⟩
  case sysCap p => exact ⟨_, fun s _ => sysCap p s, exec_sysCap _ _ p⟩
  case clampForceSet m => exact ⟨_, fun s _ => clampForce m (some .set) s, exec_clampForceSet _ _ m⟩
  case clampForceClear m => exact ⟨_, fun s _ => clampForce m (some .clear) s, exec_clampForceClear _ _ m⟩
  case lineSetup f => exact ⟨_, fun s _ => lineSetup f s, exec_lineSetup _ _ f⟩
  case domainDeclare f => exact ⟨_, fun s _ => domainDeclare f s, exec_domainDeclare _ _ f⟩
  case domainRetire n => exact ⟨_, fun s _ => domainRetire n s, exec_domainRetire _ _ n⟩
  case domainRequest n v => exact ⟨_, fun s _ => domainRequest n v s, exec_domainRequest _ _ n v⟩
  case domainSettled n => exact ⟨_, fun s _ => domainSettled n s, exec_domainSettled _ _ n⟩
  case domainPermitOff n => exact ⟨_, fun s _ => domainPermitOff n s, exec_domainPermitOff _ _ n⟩
  case domainPermitOn n => exact ⟨_, fun s _ => domainPermitOn n s, exec_domainPermitOn _ _ n⟩
  case readGrants a n => exact ⟨_, fun s _ => readGrants a n s, exec_readGrants _ _ a n⟩
  case placementPin c o => exact ⟨_, fun s _ => (placementPin c o s).finishing, exec_placementPin _ _ c o⟩
  case placementUnpin => exact ⟨_, fun s _ => (placementUnpin s).finishing, exec_placementUnpin _ _⟩
  case fanSetup n e p d => exact ⟨_, fun s _ => fanSetup n e p d s, exec_fanSetup _ _ n e p d⟩
  case fanRetry n => exact ⟨_, fun s _ => fanRetry n s, exec_fanRetry _ _ n⟩
  case readFans => exact ⟨_, fun s _ => refl s, exec_readFans _ _⟩
  case faults a o => exact ⟨_, fun s _ => faultsOwner a o s, exec_faults _ _ a o⟩

/-- The owner of every frame kind is tidy. -/
theorem frameOwner (kind : Byte) (b : List Byte) : TidyOwner (Machine.frameOwner kind b) := by
  unfold Machine.frameOwner
  split
  · exact fun s _ => refl s
  · exact fun s _ => ofView rfl
  · exact fun s _ => ofView rfl
  · exact fun s _ => (runOwner s).finishing
  · exact fun s _ => (dozeOwner s).finishing
  · exact fun s _ => (wakeOwner s).finishing
  · exact fun s lawful => (chassisLimits _ lawful).finishing
  · exact fun s _ => (loadSet _ _ s).finishing
  · exact fun s _ => readSet _ s
  · exact fun s _ => channelSetup _ s
  · exact fun s _ => scanListOwner _ s
  · exact fun s _ => readChannels _ _ s
  · split
    · exact fun s _ => calOverrideSet _ _ _ s
    · exact fun s _ => calOverrideRestore _ s
    · exact fun s _ => calOverrideOther _ s
  · split
    · exact fun s _ => (electrodeSetupResolution _ s).finishing
    · exact fun s _ => electrodeSetup _ s
  · exact fun s _ => readElectrodes _ _ s
  · exact fun s _ => rebaseOwner s
  · exact fun s _ => zoneSetup _ s
  · exact fun s _ => (zoneFeed _ _ s).finishing
  · exact fun s _ => readZones _ _ s
  · exact fun s _ => sourceSetup _ s
  · exact fun s _ => sysCap _ s
  · exact fun s _ => clampForce _ _ s
  · exact fun s _ => lineSetup _ s
  · exact fun s _ => domainDeclare _ s
  · exact fun s _ => domainRetire _ s
  · exact fun s _ => domainRequest _ _ s
  · exact fun s _ => domainSettled _ s
  · split
    · exact fun s _ => domainPermitOff _ s
    · exact fun s _ => domainPermitOn _ s
    · exact fun s _ => domainPermitOther _ s
  · exact fun s _ => readGrants _ _ s
  · exact fun s _ => (placementPin _ _ s).finishing
  · exact fun s _ => (placementUnpin s).finishing
  · exact fun s _ => fanSetup _ _ _ _ s
  · exact fun s _ => fanRetry _ s
  · exact fun s _ => refl s
  · exact fun s _ => faultsOwner _ _ s

/-- So is the answerer of a received frame. -/
theorem frameAnswerer (kind : Byte) (b : List Byte) : TidyOwner (Machine.frameAnswerer kind b) := by
  unfold Machine.frameAnswerer
  split
  · exact fun s _ => refl s
  · split
    · exact frameOwner kind b
    · exact fun s _ => refl s

end Tidy

end Sys2Proof.Machine

/-! PROOFS. Every step is tidy, and with it the statement on grants, round, queue and zones (chapters 5, 7, 8 and 10). -/

namespace Sys2Proof.Machine

theorem lawful_of_view {s t : State} (h : t.view = s.view) (lawful : s.Lawful) : t.Lawful := fun managed => by
  have chassis : t.lst.chassis = s.lst.chassis := congrArg (fun v => v.2.2.1.chassis) h
  rw [chassis]
  exact lawful ((managed_of_view h).symm.trans managed)

namespace Tidy

variable {s t : State}

/-- An operation that begins with what is not in view. -/
theorem after {u : State} (h : t.view = s.view) (lawful : s.Lawful) (k : t.Lawful → Tidy t u) : Tidy s u :=
  (ofView h).trans (k (lawful_of_view h lawful))

/-! ## The receiver (R170 to R172, R178) -/

theorem takeFrame (length : Nat) (stored : List Byte) (check : Byte) (lawful : s.Lawful) :
    Tidy s (Machine.takeFrame length stored check s) := by
  unfold Machine.takeFrame
  split
  · exact acceptRequest (frameAnswerer _ _ s lawful)
  · exact ofView (detect_view ..)

theorem takeByte (b : Byte) (stop : Nat) (lawful : s.Lawful) : Tidy s (Machine.takeByte b stop s) := by
  by_cases check : ∃ n l, s.slk.rx = .check n l
  · obtain ⟨n, l, check⟩ := check
    rw [takeByte_check check]
    have ended : (endCheckByte s).view = s.view := by
      rcases endCheckByte_eq s with e | e
      · rw [e]
      · rw [e, endByte_view]
    exact after ((setReceiver_view ..).trans ended) lawful fun l => takeFrame _ _ _ l
  · obtain ⟨r, g, e⟩ := takeByte_other (b := b) (stop := stop) fun n l e => check ⟨n, l, e⟩
    rw [e]
    exact ofView ((setReceiver_view ..).trans (endByte_view s))

theorem receiveSample (before after : Level) (lawful : s.Lawful) : Tidy s (Machine.receiveSample before after s) := by
  have cases := receiveSample_cases before after s
  simp only [List.mem_cons, List.not_mem_nil, or_false] at cases
  rcases cases with h | h | h | h | h | h | h <;> rw [h]
  · exact refl s
  · exact ofView (withSlk_view ..)
  · exact Tidy.after (withSlk_view ..) lawful fun l => takeByte _ _ l
  · exact ofView ((frameError_view _).trans (endByte_view s))
  · exact ofView (takeBreak_view s)
  · exact ofView (withSlk_view ..)
  · exact ofView (withSlk_view ..)

theorem takeSample (lawful : s.Lawful) : Tidy s (Machine.takeSample s) := by
  rcases takeSample_cases s with e | ⟨level, rest, -, e⟩ <;> rw [e]
  · exact refl s
  · refine after ?_ lawful fun l => receiveSample _ _ l
    exact (withSlk_view ..).trans ((reach_view ..).trans (withSlk_view ..))

/-! ## Events (section 10.6) -/

theorem ofNext {u : State} (h : Tidy s u) (hs : (.next u : Host.Outcome State Fault Refusal) = .next t) : Tidy s t := by
  cases hs
  exact h

/-- A measurement scan that a conversion's end may have left with nothing to measure. -/
theorem spent {u : State} (h : u.view = s.view) : Tidy s (Machine.finishScan u) := (ofView h).trans (finishScan u)

theorem endElectrodeConversion (i : Fin 8) (raw : Nat) (v : ContactConversion) (s : State) :
    Tidy s (Machine.endElectrodeConversion i raw v s) := by
  unfold Machine.endElectrodeConversion
  refine spent ((afterContactConversion_view _).trans ?_)
  split
  · rfl
  · exact convertElectrode_view ..

theorem endGroupConversion (g : Fin 3) (raw : Nat) (s : State) : Tidy s (Machine.endGroupConversion g raw s) :=
  spent ((afterContactConversion_view _).trans ((withCsu_view ..).trans (noteMeasured_view ..)))

theorem endChannelConversion (raw : Nat) (v : ChannelConversion) (s : State) :
    Tidy s (Machine.endChannelConversion raw v s) := by
  unfold Machine.endChannelConversion
  refine spent ((advanceScan_view _).trans ?_)
  split
  · rfl
  · exact convertChannel_view ..

/-- A change of one fan's record at a timer's expiry. -/
theorem fanExpiry {timer : Option Nat} (n : Fin 2) (f : State → Fan) (s : State) :
    Tidy s (Machine.atExpiry timer (fun t => Machine.setFan n (f t) t) s) := atExpiry fun t => setFan n (f t) t

/-- Every command that is no request is tidy. -/
theorem exec_event {c : Instr} (h : request? c = none) (lawful : s.Lawful) (hs : exec c s = .next t) : Tidy s t := by
  have elapsed : ∀ dt, (s.elapse dt).Lawful := fun dt => lawful_of_view (elapse_view dt s) lawful
  cases c <;> simp only [request?, reduceCtorEq] at h <;> clear h
  case powerOnReset => exact (powerOn s).ofNext hs
  case restartTakesEffect =>
    refine ofNext ?_ hs
    split
    · exact takeRestart s
    · exact refl s
  case lidChange => exact (atExpiry fun t => ofView (changeLid_view t)).ofNext hs
  case motionChange => exact (atExpiry fun t => ofView (changeMotion_view t)).ofNext hs
  case adpChange => exact (atExpiry fun t => changeAdp t).ofNext hs
  case stillTimerExpiry => exact (atExpiry fun t => ofView (becomeStill_view t)).ofNext hs
  case dwellExpiry => exact (atExpiry fun t => expireDwell t).ofNext hs
  case pinExpiry => exact (atExpiry fun t => (endPin t).finishNew t).ofNext hs
  case sequenceTimerMatch =>
    have reloaded := (ofView (reach_view (s.msu.seqStart + ms s.msu.seqPeriod) s)).trans (ofView (withMsu_view
      (fun m => { m with seqStart := s.msu.seqStart + ms s.msu.seqPeriod, seqPeriod := s.mdc.mode.scanPeriod }) _))
    refine ofNext ?_ hs
    split
    · exact reloaded.trans (ofView (detect_view ..))
    · exact reloaded.trans (takeTrigger _)
  case channelConversionEnd raw =>
    simp only [exec, execChannelConversionEnd] at hs
    split at hs
    · exact (refl s).ofNext hs
    · exact ((ofView (reach_view _ s)).trans (endChannelConversion ..)).ofNext hs
  case contactTimerMatch =>
    exact (ofView ((contactTrigger_view _).trans ((withCsu_view ..).trans (reach_view _ s)))).ofNext hs
  case electrodeConversionEnd raw =>
    simp only [exec, execElectrodeConversionEnd] at hs
    split at hs
    · exact (refl s).ofNext hs
    · split at hs
      · exact ((ofView (reach_view _ s)).trans (endElectrodeConversion ..)).ofNext hs
      · exact (refl s).ofNext hs
  case groupConversionEnd raw =>
    simp only [exec, execGroupConversionEnd] at hs
    split at hs
    · exact (refl s).ofNext hs
    · split at hs
      · exact ((ofView (reach_view _ s)).trans (endGroupConversion ..)).ofNext hs
      · exact (refl s).ofNext hs
  case feedTimerExpiry z => exact (atExpiry fun t => staleZone z t).ofNext hs
  case stepTimerExpiry z => exact (atExpiry fun t => stepZone z t).ofNext hs
  case deadlineExpiry i => exact (deadlineExpiry i s).ofNext hs
  case tachEdge dt n => exact ((ofView (elapse_view dt s)).trans (setFan ..)).ofNext hs
  case speedTimeout n => exact (atExpiry fun t => ofView (withFans_view _ t)).ofNext hs
  case stallTimerExpiry n => exact (atExpiry fun t => (setFan n _ t).trans (ofView (detect_view ..))).ofNext hs
  case kickEnd n => exact (fanExpiry n _ s).ofNext hs
  case retryKickEnd n => exact (fanExpiry n _ s).ofNext hs
  case provingExpiry n => exact (fanExpiry n _ s).ofNext hs
  case retryTimerExpiry n => exact (fanExpiry n _ s).ofNext hs
  case rampTimerExpiry =>
    refine ofNext (ofView ?_) hs
    rfl
  case pwmPeriodStart =>
    refine ofNext (ofView ?_) hs
    rfl
  case frameComplete dt b =>
    refine ((ofView (elapse_view dt s)).trans ?_).ofNext hs
    split
    · unfold completeFrame
      split
      · exact takeByte _ _ (elapsed dt)
      · exact refl _
    · exact refl _
  case framingError dt =>
    refine ((ofView (elapse_view dt s)).trans ?_).ofNext hs
    split
    · exact ofView ((frameError_view _).trans (endByte_view _))
    · exact refl _
  case gapTimerExpiry => exact (atExpiry fun t => ofView ((detect_view ..).trans (setReceiver_view ..))).ofNext hs
  case lineBreak => exact (atExpiry fun t => ofView (takeBreak_view t)).ofNext hs
  case breakEnd dt => exact (ofView ((withSlk_view ..).trans (elapse_view dt s))).ofNext hs
  case replyTransmitStart dt hrdy => exact (ofView ((withSlk_view ..).trans (elapse_view dt s))).ofNext hs
  case noticeTransmitStart dt hrdy => exact (ofView ((withSlk_view ..).trans (elapse_view dt s))).ofNext hs
  case frameTransmitEnd dt => exact (ofView ((withSlk_view ..).trans (elapse_view dt s))).ofNext hs
  case receivedByte dt b =>
    refine ((ofView (elapse_view dt s)).trans ?_).ofNext hs
    split
    · exact takeByte _ _ (elapsed dt)
    · exact refl _
  case startBit dt =>
    refine ((ofView (elapse_view dt s)).trans ?_).ofNext hs
    split
    · exact refl _
    · exact ofView (withSlk_view ..)
  case lineFilterSample lid motion adp =>
    refine ofNext (ofView ?_) hs
    rfl

/-- Every command is tidy where the mode is lawful. -/
theorem exec_tidy {c : Instr} (lawful : s.Lawful) (hs : exec c s = .next t) : Tidy s t := by
  cases row : request? c with
  | none => exact exec_event row lawful hs
  | some r =>
    obtain ⟨dt, kind, tag⟩ := r
    obtain ⟨owner, tidy, arrives⟩ := exec_of_request row
    rw [arrives] at hs
    exact (after (elapse_view dt s) lawful fun l => acceptRequest (tidy _ l)).ofNext hs

/-- Every step is tidy where the mode is lawful. -/
theorem step_tidy (lawful : s.Lawful) (hs : step s = .next t) : Tidy s t := by
  unfold step at hs
  split at hs
  · exact (takeSample lawful).ofNext hs
  · next rest _ => exact after (withPending_view rest s) lawful fun l => exec_tidy l hs

end Tidy

/-- The modes of RUNNING and DOZING come after the lock (R3). -/
theorem lawful_of_modeOk {s : State} (modes : ModeOk s) : s.Lawful := fun managed unlocked => by
  have prepare := modes.1.mpr unlocked
  simp [State.managed, prepare, Mode.managed] at managed

/-- Settles O47: every step is tidy. -/
theorem everyStepKeepsTheGrantsWithinB : Obligations.EveryStepKeepsTheGrantsWithinB :=
  ⟨fun _ _ modes grants hs => (Tidy.step_tidy (lawful_of_modeOk modes) hs).grants grants,
    fun _ _ modes grants round queue hs => (Tidy.step_tidy (lawful_of_modeOk modes) hs).books grants ⟨round, queue⟩,
    fun _ _ modes zones hs => (Tidy.step_tidy (lawful_of_modeOk modes) hs).zones zones⟩

end Sys2Proof.Machine
